-- ==== Sys2Proof/Word.lean ====
section
/-! DEFINITION. The word types of the MT16 and the cyclic distances of section 1.5 of the Introduction:
ring indices are compared modulo 256 and sequence numbers modulo 64. -/

namespace Sys2Proof

/-- One byte of the window or of a trunk frame. -/
abbrev Byte := BitVec 8

/-- A 16-bit field of the window. -/
abbrev Half := BitVec 16

/-- A station address, 0 to 30, or 31 for every station (R5). -/
abbrev Address := BitVec 5

/-- A 6-bit sequence number, tag, ack or credit field (R5). -/
abbrev Seq := BitVec 6

/-- One of the 16 circuits of a station. -/
abbrev CircuitNo := Fin 16

/-- `b − a` for ring and queue indices, read as a number 0 to 255 (section 1.5). -/
abbrev span (a b : Byte) : Nat := (b - a).toNat

/-- The distance from sequence number `a` to `b`, 0 to 63 (section 6.1). -/
abbrev distance (a b : Seq) : Nat := (b - a).toNat

/-- `a` lies before `b`: their distance modulo 64 lies in 1 to 32 (section 1.5). -/
abbrev before (a b : Seq) : Bool := decide (1 ≤ distance a b) && decide (distance a b ≤ 32)

/-- All 16 circuit numbers, lowest first. -/
def allCircuits : List CircuitNo :=
  [0, 1, 2, 3, 4, 5, 6, 7, 8, 9, 10, 11, 12, 13, 14, 15]

/-- The addresses 0 to 30 that a station can have, lowest first. -/
def allAddresses : List Nat := List.range 31

end Sys2Proof
end

