-- ==== Sys2Proof/Syntax.lean ====
section
/-! DEFINITION. The commands of the MT16: one constructor of `Instr` for each row of spec/opcode_table.json, with the row's
operands, and the trunk frame's fields (R5), which the rows of received frames carry. -/

namespace Sys2Proof

/-- The header fields and the payload of a trunk frame (R5), without its kind, its zero bits and its check. -/
structure Frame where
  dst : Address
  src : Address
  /-- END mark, bit 5 of byte 1. -/
  endMark : Bool
  /-- POLL mark, bit 6 of byte 1. -/
  poll : Bool
  dstCircuit : CircuitNo
  srcCircuit : CircuitNo
  seq : Seq
  ack : Seq
  credit : Seq
  payload : List Byte
deriving DecidableEq, Repr

/-- The commands: happenings at the station, each taken whole. -/
inductive Instr where
  /-- The RESET pin falls (R173). -/
  | resetPinLow
  /-- The RESET pin rises with these levels on the straps ADDR4-0, RATE1-0 and LOOP (R173). -/
  | resetRelease (address : Address) (rate : BitVec 2) (loop : Bool)
  /-- The start pass ends (R174). -/
  | startPassEnd
  /-- The host writes CONTROL as 0x5A (R145, R175). -/
  | go
  /-- The host writes CONTROL as 0xA5 (R145, R181). -/
  | restart
  /-- The host writes CONTROL as `value`, neither GO nor RESTART (R145). -/
  | controlOtherValue (value : Byte)
  /-- The host writes the request post index (R153). -/
  | requestPostIndexWrite (value : Byte)
  /-- The Request Unit takes the OPEN at its take index (R60, R154). -/
  | openRequest
  /-- The Request Unit takes the LISTEN at its take index (R61, R154). -/
  | listenRequest
  /-- The Request Unit takes the CLOSE at its take index (R80, R89, R154). -/
  | closeRequest
  /-- The Request Unit takes the ABORT at its take index (R90, R154). -/
  | abortRequest
  /-- The host writes the attention take index (R162). -/
  | attentionTakeIndexWrite (value : Byte)
  /-- The Notice Unit drains the pending set into the room there is (R161). -/
  | pendingSetDrain
  /-- The host writes the interrupt enable (R163). -/
  | interruptEnableWrite (value : Byte)
  /-- The host writes a circuit's tx post index (R150). -/
  | txPostIndexWrite (circuit : CircuitNo) (value : Byte)
  /-- The host writes a circuit's rx release index (R151). -/
  | rxReleaseIndexWrite (circuit : CircuitNo) (value : Byte)
  /-- The host writes a circuit's GAP-ACK field (R127, R146). -/
  | gapAck (circuit : CircuitNo) (value : Byte)
  /-- The host reads the sticky quality flags with these byte enables BE1, BE0 (R147). -/
  | stickyQualityFlagsRead (be1 be0 : Bool)
  /-- The host writes the word at A15-A1 under the byte enables BE1, BE0 (R129, R130). -/
  | hostWrite (word : BitVec 15) (be1 be0 : Bool) (data : Half)
  /-- The line has been quiet for 20 bt in SETTLING (R3). -/
  | lineSettled
  /-- A falling edge from a peer is taken (R4). -/
  | lineBusy
  /-- The line becomes quiet in HEARING before an end mark, after these bytes (R6). -/
  | frameTruncated (bytes : List Byte)
  /-- A received frame of these bytes ends, and is damaged (R7). -/
  | damagedFrame (bytes : List Byte)
  /-- A received frame of these bytes ends, and is malformed (R8). -/
  | malformedFrame (bytes : List Byte)
  /-- A DATA frame ends (R65). -/
  | dataReceived (frame : Frame)
  /-- An ACK frame ends (R117). -/
  | ackReceived (frame : Frame)
  /-- A CALL frame ends (R69). -/
  | callReceived (frame : Frame)
  /-- An ANSWER frame ends (R66). -/
  | answerReceived (frame : Frame)
  /-- A REFUSE frame ends (R67). -/
  | refuseReceived (frame : Frame)
  /-- A CLEAR frame ends (R85). -/
  | clearReceived (frame : Frame)
  /-- A CONFIRM frame ends (R84). -/
  | confirmReceived (frame : Frame)
  /-- A ROLL frame ends (R30). -/
  | rollReceived (frame : Frame)
  /-- Tx done has reached the drain target of a DRAINING circuit (R81). -/
  | drainComplete (circuit : CircuitNo)
  /-- The round timer reaches the length of a silent round (R39). -/
  | silentRoundEnd
  /-- The round timer reaches the own position (R43). -/
  | turn
  /-- The bit read back differs from the bit driven (R15). -/
  | collisionDetected
  /-- The end mark of the own frame has been driven with no mismatch (R16). -/
  | frameSent
  /-- The line activity of the collided own frame ends (R16). -/
  | frameCollided
  /-- The consecutive-collision count has reached 16 in ACTIVE (R49, R179). -/
  | enterMuted
  /-- The age of a present peer reaches T_absent (R24). -/
  | peerAgedOut (address : Address)
  /-- The own silence timer reaches T_roll (R28). -/
  | silenceTimerExpiry
  /-- The join timer reaches T_join (R31, R178). -/
  | joinTimerExpiry
  /-- The mute timer reaches T_mute (R179). -/
  | muteTimerExpiry
  /-- The retry timer of a CALLING circuit reaches T_retry (R64). -/
  | callRetryExpiry (circuit : CircuitNo)
  /-- The retry timer of a CLEARING circuit reaches T_retry (R83). -/
  | clearRetryExpiry (circuit : CircuitNo)
  /-- The data retry timer of a circuit reaches T_retry (R107). -/
  | dataRetryExpiry (circuit : CircuitNo)
  /-- The probe timer of a circuit reaches T_retry (R110). -/
  | probeExpiry (circuit : CircuitNo)
  /-- The receive idle timer of a circuit reaches T_rxidle (R165). -/
  | rxIdleExpiry (circuit : CircuitNo)
  /-- The quality window timer reaches W (R170). -/
  | qualityWindowEnd
  /-- The Request Unit takes a record whose kind is not 1 to 4 (R155). -/
  | badKindRequest
deriving DecidableEq, Repr

end Sys2Proof
end

