-- ==== Sys2Proof/Decode.lean ====
section
/-! DEFINITION. Words of the opcode table. The MT16 decodes no instruction words: no row of spec/opcode_table.json gives a bit
(98_reader.md counts 0 rows with fixed bits and 0 with fields), so no word spells a command (log 30). -/

namespace Sys2Proof

/-- The command a word spells by the table's bits: none, since no row has bits (log 30). -/
def decodeTableWord (_nbits _w : Nat) : Option Instr := none

end Sys2Proof
end

