-- ==== Sys2Proof/Config.lean ====
section
/-! DEFINITION. The constants of the MT16 (all stated by the spec, in bit times where they are times) and the free
values: choices of order that the spec leaves open, with no body, so that no proof can rest on one. -/

namespace Sys2Proof.Config

/-- Quiet line, in bt (R2). -/
def quietTime : Nat := 20
/-- The guard G of a round (R39). -/
def guard : Nat := 24
/-- The position step S of a round (R39). -/
def positionStep : Nat := 16
/-- T_absent (R24). -/
def tAbsent : Nat := 262144
/-- T_roll (R28). -/
def tRoll : Nat := 32768
/-- T_join (R178). -/
def tJoin : Nat := 65536
/-- T_mute (R179). -/
def tMute : Nat := 262144
/-- T_retry, of calls, clears, data and probes (R57, R99). -/
def tRetry : Nat := 131072
/-- T_rxidle (R165). -/
def tRxIdle : Nat := 16384
/-- The unit of the quality window: W = 65,536 × 2^q (R169). -/
def windowUnit : Nat := 65536
/-- Consecutive collisions that mute an ACTIVE station (R49). -/
def muteCollisions : Nat := 16
/-- Entries of the orphan list (R74). -/
def orphanRoom : Nat := 4
/-- Untaken requests the request queue holds (R153). -/
def requestRoom : Nat := 16
/-- Entries of the attention queue (R158). -/
def attentionRoom : Nat := 64
/-- Segments outstanding on an assured circuit (R100). -/
def sendWindow : Nat := 8
/-- Sends of a CALL or a CLEAR (R64, R83). -/
def maxSends : Nat := 4
/-- Data retry count that loses a circuit (R107). -/
def maxDataRetries : Nat := 7
/-- Slots of the ring area (R131, R175). -/
def ringSlots : Nat := 240
/-- Bytes the receive buffer holds (R6). -/
def frameRoom : Nat := 261
/-- Longest payload of a segment (R5, R102). -/
def maxPayload : Nat := 252

/-- Free value (log 12): of a 16-bit host write that touches two watched fields, whether the one at the lower offset is taken
first (R144: either may be). The argument is the state's counter of free values. -/
opaque lowByteFirst : Nat → Bool

/-- Free value (log 13): of a frame that shows a duplicate address, whether the Circuit Table handles it before the entry to
HALTED (R33: either order). The argument is the state's counter of free values. -/
opaque tableBeforeHalt : Nat → Bool

/-- Free value (log 11): how many more of the host's waiting writes have reached memory when a write of CONTROL is taken (R145). The
argument is the state's counter of free values. -/
opaque writesLanded : Nat → Nat

end Sys2Proof.Config
end

