-- ==== Sys2Proof/Machine/Frames.lean ====
section
/-! DEFINITION. The trunk frame on the line (Chapter 1): its bytes (R5, R9), its bits (R1), its check value (R10, R11) and the
classification of a received frame as damaged, malformed or good (R7, R8). -/

namespace Sys2Proof.Machine

/-- The eight frame kinds (R9). -/
inductive Kind where
  | data | ack | call | answer | refuse | clear | confirm | roll
deriving DecidableEq, Repr

/-- The kind codes of R9. -/
def Kind.code : Kind → BitVec 3
  | .data => 0
  | .ack => 1
  | .call => 2
  | .answer => 3
  | .refuse => 4
  | .clear => 5
  | .confirm => 6
  | .roll => 7

/-- The kind a code names (R9). -/
def Kind.ofCode (b : BitVec 3) : Kind :=
  match b.toNat with
  | 0 => .data
  | 1 => .ack
  | 2 => .call
  | 3 => .answer
  | 4 => .refuse
  | 5 => .clear
  | 6 => .confirm
  | _ => .roll

/-- The reasons of a REFUSE (R9). -/
inductive RefuseReason where
  | noListener | modeMismatch
deriving DecidableEq, Repr

/-- The reason codes of R9. -/
def RefuseReason.code : RefuseReason → Byte
  | .noListener => 1
  | .modeMismatch => 2

/-! ## The check value -/

/-- One bit into the check register (R10, steps 2 to 4). -/
def checkBit (r : Half) (bit : Bool) : Half :=
  if Bool.xor bit r.msb then (r <<< 1) ^^^ 0x1021 else r <<< 1

/-- One byte into the check register, bit 7 first (R10). -/
def checkByte (r : Half) (b : Byte) : Half :=
  [7, 6, 5, 4, 3, 2, 1, 0].foldl (fun r i => checkBit r (b.getLsbD i)) r

/-- The check register before the first header bit (R10, step 1). -/
def checkStart : Half := 0xFFFF

/-- The check value of a run of bytes (R10). -/
def checkOf (bytes : List Byte) : Half :=
  bytes.foldl checkByte checkStart

/-- High byte of a 16-bit value. -/
def highByte (v : Half) : Byte := v.extractLsb' 8 8

/-- Low byte of a 16-bit value. -/
def lowByte (v : Half) : Byte := v.extractLsb' 0 8

/-- A 16-bit value from its high and low byte. -/
def halfOf (high low : Byte) : Half := high ++ low

/-! ## Building a frame -/

/-- The seven header bytes of R5. -/
def headerBytes (k : Kind) (f : Frame) (length : Byte) : List Byte :=
  [ k.code ++ f.dst,
    (0 : BitVec 1) ++ BitVec.ofBool f.poll ++ BitVec.ofBool f.endMark ++ f.src,
    BitVec.ofNat 4 f.srcCircuit.val ++ BitVec.ofNat 4 f.dstCircuit.val,
    (0 : BitVec 2) ++ f.seq,
    (0 : BitVec 2) ++ f.ack,
    (0 : BitVec 2) ++ f.credit,
    length ]

/-- Header and payload, the part of a frame that its check covers (R5, R10). -/
def frameBody (k : Kind) (f : Frame) : List Byte :=
  headerBytes k f (BitVec.ofNat 8 f.payload.length) ++ f.payload

/-- A body followed by its check, high byte first (R5, R10). -/
def withCheck (body : List Byte) : List Byte :=
  body ++ [highByte (checkOf body), lowByte (checkOf body)]

/-- The bytes of a whole frame (R5). -/
def frameBytes (k : Kind) (f : Frame) : List Byte :=
  withCheck (frameBody k f)

/-- The ten bits of one byte on the line: start bit, data bits least significant first, continuation bit (R1). -/
def lineBits (b : Byte) (last : Bool) : List Bool :=
  false :: ([0, 1, 2, 3, 4, 5, 6, 7].map fun i => b.getLsbD i) ++ [!last]

/-- The bits of a frame on the line: only the last byte carries the end mark (R1). -/
def frameLineBits : List Byte → List Bool
  | [] => []
  | [b] => lineBits b true
  | b :: rest => lineBits b false ++ frameLineBits rest

/-! ## Classifying a received frame -/

/-- Byte `i` of a received frame (R5). -/
def byteAt (bytes : List Byte) (i : Nat) : Byte := bytes.getD i 0

/-- The kind field of a received frame (R5). -/
def kindOf (bytes : List Byte) : Kind :=
  Kind.ofCode ((byteAt bytes 0).extractLsb' 5 3)

/-- The source field of a received frame (R5). -/
def sourceOf (bytes : List Byte) : Address :=
  (byteAt bytes 1).extractLsb' 0 5

/-- The header fields and the payload of a received frame with a consistent byte count (R5). -/
def parseFrame (bytes : List Byte) : Frame where
  dst := (byteAt bytes 0).extractLsb' 0 5
  src := sourceOf bytes
  endMark := (byteAt bytes 1).getLsbD 5
  poll := (byteAt bytes 1).getLsbD 6
  dstCircuit := Fin.ofNat 16 ((byteAt bytes 2).extractLsb' 0 4).toNat
  srcCircuit := Fin.ofNat 16 ((byteAt bytes 2).extractLsb' 4 4).toNat
  seq := (byteAt bytes 3).extractLsb' 0 6
  ack := (byteAt bytes 4).extractLsb' 0 6
  credit := (byteAt bytes 5).extractLsb' 0 6
  payload := (bytes.drop 7).take (bytes.length - 9)

/-- The zero bits of the header bytes that every kind has are zero (R8). -/
def headerZeroBits (bytes : List Byte) : Bool :=
  !(byteAt bytes 1).getLsbD 7 &&
  (byteAt bytes 3).extractLsb' 6 2 == 0 &&
  (byteAt bytes 4).extractLsb' 6 2 == 0 &&
  (byteAt bytes 5).extractLsb' 6 2 == 0

/-- The payload length is the one the kind requires (R8, R9). -/
def lengthFits (k : Kind) (n : Nat) : Bool :=
  match k with
  | .data => decide (n ≤ Config.maxPayload)
  | .ack => n == 0
  | .call => n == 2
  | .answer => n == 0
  | .refuse => n == 1
  | .clear => n == 0
  | .confirm => n == 0
  | .roll => n == 4

/-- The payload rules of CALL, REFUSE and ROLL (R8): the mode, the reason, and the bit for address 31. -/
def payloadFits (k : Kind) (payload : List Byte) : Bool :=
  match k with
  | .call => byteAt payload 1 == 0 || byteAt payload 1 == 1
  | .refuse => byteAt payload 0 == 1 || byteAt payload 0 == 2
  | .roll => !(byteAt payload 3).getLsbD 7
  | _ => true

/-- The frame rules of R8 on the fields of a frame: destination, source, marks, credit, length and payload. -/
def keepsRules (k : Kind) (f : Frame) : Bool :=
  (k == .data || !f.endMark) &&
  (k == .ack || !f.poll) &&
  ((k == .roll) == (f.dst == 31)) &&
  f.src != 31 &&
  decide (f.credit.toNat ≤ 32) &&
  lengthFits k f.payload.length &&
  payloadFits k f.payload

/-- The class of a received frame (R7, R8), with what each class lets the station trust. -/
inductive FrameClass where
  | damaged
  | malformed (source : Address)
  | good (kind : Kind) (frame : Frame)
deriving DecidableEq, Repr

/-- The damaged tests of R7 after truncation: the byte count, the length field and the check (R11). -/
def countAndCheckFit (bytes : List Byte) : Bool :=
  decide (9 ≤ bytes.length) && decide (bytes.length ≤ Config.frameRoom) &&
  decide (bytes.length = 9 + (byteAt bytes 6).toNat) &&
  checkOf (bytes.take (bytes.length - 2)) ==
    halfOf (byteAt bytes (bytes.length - 2)) (byteAt bytes (bytes.length - 1))

/-- Classification of a received frame from the bytes decoded (R7, R8). -/
def classify (truncated : Bool) (bytes : List Byte) : FrameClass :=
  if truncated || !countAndCheckFit bytes then .damaged
  else if headerZeroBits bytes && keepsRules (kindOf bytes) (parseFrame bytes) then
    .good (kindOf bytes) (parseFrame bytes)
  else .malformed (sourceOf bytes)

/-- The present set a ROLL carries: bit `a` stands for address `a` (R9). -/
def presentBit (payload : List Byte) (a : Nat) : Bool :=
  (byteAt payload (a / 8)).getLsbD (a % 8)

/-- The four payload bytes of a present set (R9). -/
def presentPayload (mask : BitVec 32) : List Byte :=
  [mask.extractLsb' 0 8, mask.extractLsb' 8 8, mask.extractLsb' 16 8, mask.extractLsb' 24 8]

end Sys2Proof.Machine
end

