-- ==== Sys2Proof/Machine/State.lean ====
section
/-! DEFINITION. The state of the MT16 as plain data: every block's state of section 1.3, the window, the pins, and the queue of
commands that wait. The state holds what the part holds INSIDE; the window holds what the host sees (R130). -/

namespace Sys2Proof.Machine

open Sys2Proof

/-- The MT16 raises no fault that stops it: every fault the spec names (QUEUE_FAULT, POST_FAULT, RELEASE_FAULT, SLOT_FAULT) is
written and raised, and the part goes on. So this type has no constructor (log 28). -/
inductive Fault
deriving DecidableEq, Repr

/-- Why a command has no meaning in the model. -/
inductive Refusal where
  /-- Raised by `exec` for a row that has no meaning yet, by name. Safe. No row is refused (log 28). -/
  | notModelled (mnemonic : String)
deriving DecidableEq, Repr

/-! ## Names of R139 -/

/-- Station states (R177). -/
inductive StationState where
  | reset | config | joining | active | muted | halted
deriving DecidableEq, Repr

/-- Halt causes (R139). -/
inductive HaltCause where
  | noCause | duplicateAddress | badStrap
deriving DecidableEq, Repr

/-- Start status (R139, R175). -/
inductive StartStatus where
  | noStatus | ok | badCount | badSize | noRoom | badStep | badWindow | badThreshold
deriving DecidableEq, Repr

/-- Circuit states (R58). -/
inductive CircuitState where
  | free | listening | calling | opened | draining | clearing | ended
deriving DecidableEq, Repr

/-- Transfer modes (R57). -/
inductive CircuitMode where
  | assured | plain
deriving DecidableEq, Repr

/-- End causes (R139). -/
inductive EndCause where
  | noCause | peerCleared | lostRetries | lostAbsent | lostStale | slotFault | lostMuted | lostHalted
deriving DecidableEq, Repr

/-- Fault kinds of a circuit record (R135). -/
inductive FaultKind where
  | noFault | postFault | releaseFault | slotFault
deriving DecidableEq, Repr

/-- Request kinds (R137). -/
inductive RequestKind where
  | openR | listenR | closeR | abortR
deriving DecidableEq, Repr

/-- Completion outcomes (R139, R157). -/
inductive CompletionOutcome where
  | connected | done | noPeer | noAnswer | refusedNoListener | refusedMode | lost | peerCleared | unconfirmed
deriving DecidableEq, Repr

/-- Refusal outcomes (R139, R155). -/
inductive RefusalOutcome where
  | badCircuit | badKind | badField | badPeer | badState | busy | notActive | queueFault
deriving DecidableEq, Repr

/-- Attention causes of a circuit (R139), in the draining order of R161. -/
inductive CircuitCause where
  | dataIn | spaceOut | done | ended | gap | fault
deriving DecidableEq, Repr

/-- Attention causes of the station (R139), in the draining order of R161. -/
inductive StationCause where
  | roster | quality | station | refused
deriving DecidableEq, Repr

/-- A pair of source and cause (R158). -/
inductive NoticePair where
  | circuit (c : CircuitNo) (cause : CircuitCause)
  | station (cause : StationCause)
deriving DecidableEq, Repr

/-- Quality levels (R170). -/
inductive Level where
  | good | poor
deriving DecidableEq, Repr

/-- Line Interface states (section 1.2 of Chapter 1). -/
inductive LineState where
  | off | settling | idle | hearing | sending | stopped
deriving DecidableEq, Repr

/-- Turn Arbiter states (section 3.1). -/
inductive ArbiterState where
  | off | waiting | round | busy
deriving DecidableEq, Repr

/-- Ladder modes (R46). -/
inductive LadderMode where
  | compressed | full
deriving DecidableEq, Repr

/-- Kinds of circuit control frame (section 3.7). -/
inductive ControlKind where
  | answer | confirm | clear
deriving DecidableEq, Repr

/-! ## Station Control (Chapter 11) -/

/-- State of Station Control, the latched straps and the RESET pin (R173 to R181). -/
structure Station where
  state : StationState
  haltCause : HaltCause
  startStatus : StartStatus
  /-- The latched address straps, 0 to 31. -/
  address : Address
  rate : BitVec 2
  loop : Bool
  circuitCount : Nat
  /-- Held from a GO that passes to the next restart or pin reset (R175). -/
  creditStep : Option Nat
  joinTimer : Option Nat
  muteTimer : Option Nat
  /-- The RESET pin is low (R173). -/
  resetLow : Bool
  /-- The start pass is running, and has written this many of its fields (R174, log 16). -/
  startPass : Option Nat
deriving DecidableEq, Repr

/-! ## Line Interface (Chapter 1) -/

/-- State of the Line Interface (section 1.9). The own frame in progress is `Selector.inFlight`. -/
structure Line where
  state : LineState
  quiet : Nat
  rxBuffer : List Byte
  rxCount : Nat
  rxCheck : Half
  txCheck : Half
  /-- The bytes of the own frame whose driving has begun (R10, R14). -/
  driven : List Byte
  /-- The bit of the own frame that is on the line, from 0 (R1). -/
  txBit : Nat
  rxEnable : Bool
  txEnable : Bool
  /-- The TXEN pin asserted. -/
  txen : Bool
  /-- The level of the TXD pin. -/
  txd : Bool
deriving DecidableEq, Repr

/-! ## Turn Arbiter and Transmit Selector (Chapter 3) -/

/-- State of the Turn Arbiter (R37 to R49). -/
structure Arbiter where
  state : ArbiterState
  /-- The rotation base B. -/
  base : Address
  fullNext : Bool
  mode : LadderMode
  /-- n, fixed when the round began (R38). -/
  positions : Nat
  /-- The own position, fixed when the round began (R38). -/
  ownPosition : Nat
  roundTimer : Nat
  /-- The turn of this round has been made (R43, log 26). -/
  turnMade : Bool
  collisions : Nat
deriving DecidableEq, Repr

/-- The payload of a frame description: literal bytes, or a reference to a transmit slot (section 1.7). -/
inductive PayloadSource where
  | literal (bytes : List Byte)
  | slot (offset : Nat) (length : Byte)
deriving DecidableEq, Repr

/-- What the frame in flight is to its owner (R53). -/
inductive FrameUse where
  | control (k : ControlKind)
  | orphan
  | call
  | newData
  | resend (seq : Seq)
  | ack
  | roll
deriving DecidableEq, Repr

/-- The block a report goes to (section 1.7), with the lifetime of the circuit the frame was built for (R54). -/
inductive FrameOwner where
  | circuit (c : CircuitNo) (lifetime : Nat)
  | orphanList
  | roster
deriving DecidableEq, Repr

/-- The flags the start of a frame discharged, as far as a collided report may still set them again (R52 to R54). -/
structure Discharged where
  control : Option ControlKind
  call : Bool
  ack : Bool
  poll : Bool
deriving DecidableEq, Repr

/-- The frame in flight: its description and what it discharged (R52). -/
structure FlightFrame where
  use : FrameUse
  owner : FrameOwner
  kind : Kind
  /-- The header fields, fixed when the start was taken (R14); the payload stands in `payload`. -/
  header : Frame
  payload : PayloadSource
  discharged : Discharged
deriving DecidableEq, Repr

/-- State of the Transmit Selector that is not per circuit (section 3.7). -/
structure Selector where
  /-- The data rotation pointer (R51). -/
  pointer : Nat
  rollOwed : Bool
  inFlight : Option FlightFrame
deriving DecidableEq, Repr

/-! ## Roster (Chapter 2) -/

/-- One roster entry (R21). -/
structure RosterEntry where
  present : Bool
  age : Nat
deriving DecidableEq, Repr

/-- State of the Roster (R21, R25, R28). -/
structure Roster where
  entries : Vector RosterEntry 31
  silence : Nat
  changeCounter : Half
deriving DecidableEq, Repr

/-! ## Orphan list (section 4.6) -/

/-- The reply an orphan entry owes: the fields of R74 that its kind uses. -/
inductive Reply where
  | refuse (tag : Seq) (reason : RefuseReason)
  | clear (ownCircuit : CircuitNo)
  | confirm (ownCircuit : CircuitNo)
deriving DecidableEq, Repr

/-- An orphan entry (R74). -/
structure Orphan where
  peer : Address
  peerCircuit : CircuitNo
  reply : Reply
  inFlight : Bool
deriving DecidableEq, Repr

/-- The orphan list and its drop count (R74, R75). -/
structure Orphans where
  entries : List Orphan
  drops : Half
deriving DecidableEq, Repr

/-! ## Circuits (Chapters 4 to 7) -/

/-- A completed request as the completion fields show it (R157). -/
structure Completion where
  kind : RequestKind
  id : Byte
  outcome : CompletionOutcome
  overtaken : Option (RequestKind × Byte)
deriving DecidableEq, Repr

/-- The context of one circuit: the Circuit Table's fields (R57, R97), its owed flags (section 3.7), its ring partition (R176),
the Transfer Engine's state (R99, R111, R120, R124), the port's copies (R148) and its receive idle timer (R165). -/
structure Circuit where
  state : CircuitState
  mode : CircuitMode
  /-- Peer station, or in LISTENING the peer filter. -/
  peer : Address
  peerCircuit : Option CircuitNo
  service : Byte
  callTag : Seq
  peerTag : Option Seq
  initialCredit : Nat
  endCause : EndCause
  inFlight : Option (RequestKind × Byte)
  completion : Option Completion
  rxNotice : Byte
  txNotice : Byte
  retryTimer : Option Nat
  sendCount : Nat
  callOwed : Bool
  lifetime : Nat
  drainTarget : Byte
  unsentCount : Byte
  faultKind : FaultKind
  controlOwed : Option ControlKind
  ackOwed : Bool
  pollOwed : Bool
  txBase : Half
  txSize : Nat
  rxBase : Half
  rxSize : Nat
  /-- N. -/
  nextSeq : Seq
  /-- U. -/
  oldestSeq : Seq
  /-- Lim. -/
  limit : Seq
  /-- R. -/
  resendPoint : Option Seq
  dataRetryTimer : Option Nat
  dataRetryCount : Nat
  probeTimer : Option Nat
  /-- E. -/
  expectedSeq : Seq
  lastLimit : Seq
  lastCredit : Nat
  txDone : Byte
  postedCopy : Byte
  rxFill : Byte
  releaseCopy : Byte
  discardCount : Half
  gapCount : Half
  overrunCount : Half
  firstGap : Option Byte
  rxIdleTimer : Option Nat
deriving DecidableEq, Repr

/-! ## Request Unit, Notice Unit (Chapter 9) and Quality Monitor (Chapter 10) -/

/-- The last refusal record (R156). -/
structure RefusalRecord where
  id : Byte
  circuit : Byte
  kind : Byte
  outcome : Byte
deriving DecidableEq, Repr

/-- State of the Request Unit (R153, R156). -/
structure Requests where
  postCopy : Byte
  take : Byte
  refusal : RefusalRecord
  refusalCount : Half
deriving DecidableEq, Repr

/-- State of the Notice Unit (sections 9.4 to 9.6). -/
structure Notice where
  fill : Byte
  sequence : Byte
  takeCopy : Byte
  /-- The pairs of the entries held, in queue order: the noted set (R160). -/
  held : List NoticePair
  /-- The pending set, in the order it drains (R161). -/
  waiting : List NoticePair
  irqEnable : Bool
  /-- The IRQ output asserted (R163). -/
  irq : Bool
deriving DecidableEq, Repr

/-- q and the thresholds, held from a GO (R169). -/
structure QualityParams where
  exponent : Nat
  low : Nat
  high : Nat
deriving DecidableEq, Repr

/-- State of the Quality Monitor (R168 to R172). -/
structure Quality where
  level : Level
  d : Half
  k : Half
  framesSent : Half
  goodHeard : Half
  damagedHeard : Half
  malformed : Half
  ownCollisions : Half
  wentPoor : Bool
  wentGood : Bool
  mutedSeen : Bool
  windowTimer : Option Nat
  params : Option QualityParams
deriving DecidableEq, Repr

/-! ## The window and the host bus (Chapter 8) -/

/-- The window's bytes that differ from `unlistedByte`, offsets strictly rising. -/
abbrev Memory := List Host.Cell

/-- What an offset that the list does not hold reads as (log 1). -/
def unlistedByte : Byte := 0

/-- What the port drives on D15-D8 and D7-D0 for the last watched read; `none` is a lane not driven (R129, R147, log 17). -/
structure HostBus where
  dataHigh : Option Byte
  dataLow : Option Byte
deriving DecidableEq, Repr

/-- The MT16, its window and the commands that wait. -/
structure State where
  station : Station
  line : Line
  arbiter : Arbiter
  selector : Selector
  roster : Roster
  orphans : Orphans
  circuits : Vector Circuit 16
  requests : Requests
  notice : Notice
  quality : Quality
  window : Memory
  bus : HostBus
  /-- The model's own: how many free values have been drawn (logs 11, 12, 13). -/
  choices : Nat
  /-- The model's own: how many of the host writes that wait, the first of them, stand in memory already (R145, log 11). -/
  landed : Nat
  /-- The commands that wait, first in, first out. -/
  pending : List Instr
deriving DecidableEq, Repr

/-! ## Reset -/

/-- Station Control while RESET is low (R173), with straps latched at an earlier release. -/
def Station.reset (address : Address) (rate : BitVec 2) (loop : Bool) : Station where
  state := .reset
  haltCause := .noCause
  startStatus := .noStatus
  address := address
  rate := rate
  loop := loop
  circuitCount := 0
  creditStep := none
  joinTimer := none
  muteTimer := none
  resetLow := true
  startPass := none

/-- The Line Interface after pin reset and after restart (R19). -/
def Line.reset : Line where
  state := .off
  quiet := 0
  rxBuffer := []
  rxCount := 0
  rxCheck := checkStart
  txCheck := checkStart
  driven := []
  txBit := 0
  rxEnable := false
  txEnable := false
  txen := false
  txd := true

/-- The Turn Arbiter after pin reset and after restart, with B as R55 gives it. -/
def Arbiter.reset (base : Address) : Arbiter where
  state := .off
  base := base
  fullNext := false
  mode := .compressed
  positions := 0
  ownPosition := 0
  roundTimer := 0
  turnMade := false
  collisions := 0

/-- The Transmit Selector after pin reset and after restart (R56). -/
def Selector.reset : Selector where
  pointer := 0
  rollOwed := false
  inFlight := none

/-- An absent roster entry (R21). -/
def RosterEntry.absent : RosterEntry where
  present := false
  age := 0

/-- The Roster after pin reset and after restart (R35). -/
def Roster.reset : Roster where
  entries := Vector.replicate 31 RosterEntry.absent
  silence := 0
  changeCounter := 0

/-- The orphan list after pin reset and after restart (R76). -/
def Orphans.reset : Orphans where
  entries := []
  drops := 0

/-- A circuit after pin reset (R78, R97, R119, R128). -/
def Circuit.reset : Circuit where
  state := .free
  mode := .assured
  peer := 0
  peerCircuit := none
  service := 0
  callTag := 0
  peerTag := none
  initialCredit := 0
  endCause := .noCause
  inFlight := none
  completion := none
  rxNotice := 0
  txNotice := 0
  retryTimer := none
  sendCount := 0
  callOwed := false
  lifetime := 0
  drainTarget := 0
  unsentCount := 0
  faultKind := .noFault
  controlOwed := none
  ackOwed := false
  pollOwed := false
  txBase := 0
  txSize := 0
  rxBase := 0
  rxSize := 0
  nextSeq := 0
  oldestSeq := 0
  limit := 0
  resendPoint := none
  dataRetryTimer := none
  dataRetryCount := 0
  probeTimer := none
  expectedSeq := 0
  lastLimit := 0
  lastCredit := 0
  txDone := 0
  postedCopy := 0
  rxFill := 0
  releaseCopy := 0
  discardCount := 0
  gapCount := 0
  overrunCount := 0
  firstGap := none
  rxIdleTimer := none

/-- The refusal record after pin reset and after restart (R167). -/
def RefusalRecord.reset : RefusalRecord where
  id := 0
  circuit := 0
  kind := 0
  outcome := 0

/-- The Request Unit after pin reset and after restart (R167). -/
def Requests.reset : Requests where
  postCopy := 0
  take := 0
  refusal := RefusalRecord.reset
  refusalCount := 0

/-- The Notice Unit after pin reset and after restart, but for the interrupt enable, which a restart keeps (R163, R167). -/
def Notice.reset (irqEnable : Bool) : Notice where
  fill := 0
  sequence := 0
  takeCopy := 0
  held := []
  waiting := []
  irqEnable := irqEnable
  irq := false

/-- The Quality Monitor after pin reset and after restart (R172). -/
def Quality.reset : Quality where
  level := .good
  d := 0
  k := 0
  framesSent := 0
  goodHeard := 0
  damagedHeard := 0
  malformed := 0
  ownCollisions := 0
  wentPoor := false
  wentGood := false
  mutedSeen := false
  windowTimer := none
  params := none

/-- B after pin reset and after restart: the own address if it is 0 to 30, and 0 if it is 31 (R55). -/
def resetBase (address : Address) : Address :=
  if address = 31 then 0 else address

/-- Every block at its pin-reset values, over a window, straps, bus lanes, counter of free values and queue that pin reset
leaves alone (R19, R35, R55, R56, R78, R97, R119, R128, R152, R167, R172, R173). -/
def State.atPinReset (address : Address) (rate : BitVec 2) (loop : Bool) (window : Memory) (bus : HostBus) (choices : Nat)
    (pending : List Instr) : State where
  station := Station.reset address rate loop
  line := Line.reset
  arbiter := Arbiter.reset (resetBase address)
  selector := Selector.reset
  roster := Roster.reset
  orphans := Orphans.reset
  circuits := Vector.replicate 16 Circuit.reset
  requests := Requests.reset
  notice := Notice.reset false
  quality := Quality.reset
  window := window
  bus := bus
  choices := choices
  landed := 0
  pending := pending

/-- The station right after reset: RESET low at power-on, no strap sampled yet, nothing written into the window (log 2). -/
def State.reset : State :=
  State.atPinReset 0 0 false [] ⟨none, none⟩ 0 []

end Sys2Proof.Machine
end

