-- ==== Sys2Proof/Machine/Ops.lean ====
section
/-! DEFINITION. The named operations over the window's memory, the state's fields and the timers, on which every block is
written. -/

namespace Sys2Proof.Machine

open Sys2Proof

/-! ## Memory -/

/-- The byte at an offset. -/
def Memory.read : Memory → Nat → Byte
  | [], _ => unlistedByte
  | (b, w) :: rest, a => if a = b then w else Memory.read rest a

/-- Write a byte, keeping the canonical form: the byte an unlisted offset reads as is not listed. -/
def Memory.write : Memory → Nat → Byte → Memory
  | [], a, v => if v = unlistedByte then [] else [(a, v)]
  | (b, w) :: rest, a, v =>
    if a < b then
      if v = unlistedByte then (b, w) :: rest else (a, v) :: (b, w) :: rest
    else if a = b then
      if v = unlistedByte then rest else (a, v) :: rest
    else (b, w) :: Memory.write rest a v

/-- The canonical form from offset `lo` on: offsets rise strictly below 65536, and no cell is what an unlisted offset reads. -/
def Memory.wfFrom : Nat → Memory → Bool
  | _, [] => true
  | lo, (a, v) :: rest =>
    decide (lo ≤ a) && decide (a < 65536) && decide (v ≠ unlistedByte) && Memory.wfFrom (a + 1) rest

/-- The memory is in its canonical form. -/
def Memory.wf (m : Memory) : Bool := Memory.wfFrom 0 m

/-! ## Window accesses

Offsets are 16-bit: an offset beyond 0xFFFF names the one it wraps to (log 25; no ring a GO accepts reaches there). -/

/-- The byte of the window at an offset. -/
def State.peek (s : State) (a : Nat) : Byte := Memory.read s.window (a % 65536)

/-- Write one byte of the window. -/
def State.poke (s : State) (a : Nat) (v : Byte) : State :=
  { s with window := Memory.write s.window (a % 65536) v }

/-- Write a 16-bit field of the window, low byte at the lower offset (R129). -/
def State.pokeHalf (s : State) (a : Nat) (v : Half) : State :=
  (s.poke a (lowByte v)).poke (a + 1) (highByte v)

/-- Write a run of bytes from an offset up. -/
def State.pokeBytes (s : State) (a : Nat) : List Byte → State
  | [] => s
  | v :: rest => State.pokeBytes (s.poke a v) (a + 1) rest

/-! ## Circuits and blocks -/

/-- The context of circuit `c`. -/
def State.circuit (s : State) (c : CircuitNo) : Circuit := s.circuits.get c

/-- Change the context of circuit `c`, and nothing else. -/
def State.updCircuit (s : State) (c : CircuitNo) (f : Circuit → Circuit) : State :=
  { s with circuits := s.circuits.set c (f (s.circuit c)) }

/-- The circuit number is below the configured circuit count (R135). -/
def State.configured (s : State) (c : CircuitNo) : Bool := decide (c.val < s.station.circuitCount)

/-- The station state is one in which receive is enabled (R3): JOINING, ACTIVE or MUTED. -/
def StationState.receives : StationState → Bool
  | .joining | .active | .muted => true
  | .reset | .config | .halted => false

/-- The station state is one in which transmit is enabled (R3): JOINING or ACTIVE. -/
def StationState.transmits : StationState → Bool
  | .joining | .active => true
  | .reset | .config | .muted | .halted => false

/-- The station state is one in which requests are taken and the circuit records are watched (R146, R154). -/
def StationState.serves : StationState → Bool
  | .joining | .active | .muted | .halted => true
  | .reset | .config => false

/-- The circuit is in service for transfer: OPEN or DRAINING. -/
def CircuitState.transfers : CircuitState → Bool
  | .opened | .draining => true
  | .free | .listening | .calling | .clearing | .ended => false

/-- The circuit holds a live peer circuit: OPEN, DRAINING or CLEARING (R70, R79). -/
def CircuitState.live : CircuitState → Bool
  | .opened | .draining | .clearing => true
  | .free | .listening | .calling | .ended => false

/-- The first circuit, lowest number first, that satisfies `p`. -/
def State.findCircuit (s : State) (p : CircuitNo → Circuit → Bool) : Option CircuitNo :=
  allCircuits.find? fun c => p c (s.circuit c)

/-- Do `f` for every circuit, lowest number first (log 14). -/
def State.eachCircuit (s : State) (f : CircuitNo → State → State) : State :=
  allCircuits.foldl (fun s c => f c s) s

/-! ## Counters and timers -/

/-- A 16-bit counter that stops at 65,535 (R168). -/
def countUp (n : Half) : Half := if n = 0xFFFF then n else n + 1

/-- One bt of a timer that runs up to `limit` and waits there. -/
def tickTimer (limit : Nat) (t : Option Nat) : Option Nat := t.map fun n => min limit (n + 1)

/-- The timer has reached `limit` in this bt. -/
def reached (limit : Nat) (before after : Option Nat) : Bool :=
  match before, after with
  | some m, some n => decide (m < limit) && decide (limit ≤ n)
  | _, _ => false

/-- The timer runs and stands at `limit`: its expiry is due. One that has been stopped or restarted since it got there has no expiry
(log 4). -/
def timerOut (limit : Nat) : Option Nat → Bool
  | some n => decide (limit ≤ n)
  | none => false

end Sys2Proof.Machine
end

