-- ==== Sys2Proof/Machine/Operands.lean ====
section
/-! DEFINITION. Where the window's operands lie and what they mean: the map of R131, the Station Block of R133, the circuit
record of R135, the Start Block and the request record of R137, the codes of R139, and the rings of R141. -/

namespace Sys2Proof.Machine

open Sys2Proof

/-! ## Offsets of the Station Block (R133) -/

def offPartCode : Nat := 0x00
def offRevision : Nat := 0x02
def offStationState : Nat := 0x03
def offHaltCause : Nat := 0x04
def offOwnAddress : Nat := 0x05
def offRate : Nat := 0x06
def offLoop : Nat := 0x07
def offStartStatus : Nat := 0x08
def offCircuitCount : Nat := 0x09
def offControl : Nat := 0x0A
def offInterruptEnable : Nat := 0x0B
def offRequestPost : Nat := 0x0C
def offRequestTake : Nat := 0x0D
def offAttentionTake : Nat := 0x0E
def offAttentionFill : Nat := 0x0F
def offAttentionSequence : Nat := 0x10
def offPendingFlag : Nat := 0x11
def offPendingCount : Nat := 0x12
def offLevel : Nat := 0x13
def offPresentLow : Nat := 0x14
def offPresentHigh : Nat := 0x16
def offChangeCounter : Nat := 0x18
def offSticky : Nat := 0x1A
def offFramesSent : Nat := 0x1C
def offGoodHeard : Nat := 0x1E
def offDamagedHeard : Nat := 0x20
def offMalformed : Nat := 0x22
def offOwnCollisions : Nat := 0x24
def offWindowD : Nat := 0x26
def offWindowK : Nat := 0x28
def offRefusalId : Nat := 0x2A
def offRefusalCircuit : Nat := 0x2B
def offRefusalKind : Nat := 0x2C
def offRefusalOutcome : Nat := 0x2D
def offRefusalCount : Nat := 0x2E
def offOrphanDrops : Nat := 0x30

/-! ## Offsets in a circuit record (R135) -/

/-- The record of circuit `c` (R131). -/
def recordBase (c : CircuitNo) : Nat := 0x0100 + 64 * c.val

def recState : Nat := 0x00
def recMode : Nat := 0x01
def recEndCause : Nat := 0x02
def recPeer : Nat := 0x03
def recPeerCircuit : Nat := 0x04
def recService : Nat := 0x05
def recCallTag : Nat := 0x06
def recPeerTag : Nat := 0x07
def recDoneKind : Nat := 0x08
def recDoneId : Nat := 0x09
def recDoneOutcome : Nat := 0x0A
def recOverKind : Nat := 0x0B
def recOverId : Nat := 0x0C
def recRxNotice : Nat := 0x0D
def recTxNotice : Nat := 0x0E
def recFaultKind : Nat := 0x0F
def recTxBase : Nat := 0x10
def recTxSize : Nat := 0x12
def recRxSize : Nat := 0x13
def recRxBase : Nat := 0x14
def recTxDone : Nat := 0x16
def recRxFill : Nat := 0x17
def recFirstGap : Nat := 0x18
def recGapCount : Nat := 0x1A
def recDiscardCount : Nat := 0x1C
def recOverrunCount : Nat := 0x1E
def recUnsent : Nat := 0x20
def recTxPost : Nat := 0x30
def recRxRelease : Nat := 0x31
def recGapAck : Nat := 0x32

/-- Write one byte of a circuit record. -/
def State.pokeRecord (s : State) (c : CircuitNo) (off : Nat) (v : Byte) : State :=
  s.poke (recordBase c + off) v

/-- Write a 16-bit field of a circuit record. -/
def State.pokeRecordHalf (s : State) (c : CircuitNo) (off : Nat) (v : Half) : State :=
  s.pokeHalf (recordBase c + off) v

/-! ## Codes (R139) -/

def StationState.code : StationState → Byte
  | .reset => 0
  | .config => 1
  | .joining => 2
  | .active => 3
  | .muted => 4
  | .halted => 5

def HaltCause.code : HaltCause → Byte
  | .noCause => 0
  | .duplicateAddress => 1
  | .badStrap => 2

def StartStatus.code : StartStatus → Byte
  | .noStatus => 0
  | .ok => 1
  | .badCount => 2
  | .badSize => 3
  | .noRoom => 4
  | .badStep => 5
  | .badWindow => 6
  | .badThreshold => 7

def CircuitState.code : CircuitState → Byte
  | .free => 0
  | .listening => 1
  | .calling => 2
  | .opened => 3
  | .draining => 4
  | .clearing => 5
  | .ended => 6

def CircuitMode.code : CircuitMode → Byte
  | .assured => 0
  | .plain => 1

def EndCause.code : EndCause → Byte
  | .noCause => 0
  | .peerCleared => 1
  | .lostRetries => 2
  | .lostAbsent => 3
  | .lostStale => 4
  | .slotFault => 5
  | .lostMuted => 6
  | .lostHalted => 7

def FaultKind.code : FaultKind → Byte
  | .noFault => 0
  | .postFault => 1
  | .releaseFault => 2
  | .slotFault => 3

def RequestKind.code : RequestKind → Byte
  | .openR => 1
  | .listenR => 2
  | .closeR => 3
  | .abortR => 4

def CompletionOutcome.code : CompletionOutcome → Byte
  | .connected => 1
  | .done => 2
  | .noPeer => 3
  | .noAnswer => 4
  | .refusedNoListener => 5
  | .refusedMode => 6
  | .lost => 7
  | .peerCleared => 8
  | .unconfirmed => 9

def RefusalOutcome.code : RefusalOutcome → Byte
  | .badCircuit => 16
  | .badKind => 17
  | .badField => 18
  | .badPeer => 19
  | .badState => 20
  | .busy => 21
  | .notActive => 22
  | .queueFault => 23

def CircuitCause.code : CircuitCause → Byte
  | .dataIn => 1
  | .spaceOut => 2
  | .done => 3
  | .ended => 4
  | .gap => 5
  | .fault => 6

def StationCause.code : StationCause → Byte
  | .roster => 16
  | .quality => 17
  | .station => 18
  | .refused => 19

def Level.code : Level → Byte
  | .good => 0
  | .poor => 1

/-- A circuit number as a byte. -/
def circuitByte (c : CircuitNo) : Byte := BitVec.ofNat 8 c.val

/-- A peer circuit as the record shows it: 0xFF absent (R135). -/
def peerCircuitByte : Option CircuitNo → Byte
  | none => 0xFF
  | some c => circuitByte c

/-- A peer tag as the record shows it: 0xFF absent (R135). -/
def peerTagByte : Option Seq → Byte
  | none => 0xFF
  | some t => t.zeroExtend 8

/-- The first-gap marker as the record shows it: 0xFFFF NONE (R135). -/
def firstGapHalf : Option Byte → Half
  | none => 0xFFFF
  | some i => i.zeroExtend 16

/-! ## The request record (R137) -/

/-- The eight bytes of a request record that are read. -/
structure RequestRecord where
  id : Byte
  kind : Byte
  circuit : Byte
  peer : Byte
  service : Byte
  mode : Byte
  rxNotice : Byte
  txNotice : Byte
deriving DecidableEq, Repr

/-- The offset of the request record at a take index (R131). -/
def requestOffset (take : Byte) : Nat := 0x0500 + 16 * (take.toNat % 16)

/-- The request record at the take index (R154, step 1). -/
def State.requestRecord (s : State) : RequestRecord where
  id := s.peek (requestOffset s.requests.take)
  kind := s.peek (requestOffset s.requests.take + 1)
  circuit := s.peek (requestOffset s.requests.take + 2)
  peer := s.peek (requestOffset s.requests.take + 3)
  service := s.peek (requestOffset s.requests.take + 4)
  mode := s.peek (requestOffset s.requests.take + 5)
  rxNotice := s.peek (requestOffset s.requests.take + 6)
  txNotice := s.peek (requestOffset s.requests.take + 7)

/-- The circuit a request names; used once R155's first check has passed. -/
def RequestRecord.circuitNo (r : RequestRecord) : CircuitNo := Fin.ofNat 16 r.circuit.toNat

/-- The mode a request names; used once R155's third check has passed. -/
def RequestRecord.circuitMode (r : RequestRecord) : CircuitMode := if r.mode = 1 then .plain else .assured

/-- The station address in the low bits of the peer field; used once the peer or filter has been checked. -/
def RequestRecord.peerAddress (r : RequestRecord) : Address := r.peer.extractLsb' 0 5

/-! ## The Start Block (R137) -/

/-- The Start Block's offset in the window (R131). -/
def startBlock : Nat := 0x0800

def State.startCount (s : State) : Nat := (s.peek startBlock).toNat
def State.startStep (s : State) : Nat := (s.peek (startBlock + 1)).toNat
def State.startExponent (s : State) : Nat := (s.peek (startBlock + 2)).toNat
def State.startLow (s : State) : Nat := (s.peek (startBlock + 3)).toNat
def State.startHigh (s : State) : Nat := (s.peek (startBlock + 4)).toNat
/-- The transmit ring size code of circuit `c`. -/
def State.startTxCode (s : State) (c : CircuitNo) : Nat := (s.peek (startBlock + 0x10 + 2 * c.val)).toNat
/-- The receive ring size code of circuit `c`. -/
def State.startRxCode (s : State) (c : CircuitNo) : Nat := (s.peek (startBlock + 0x11 + 2 * c.val)).toNat

/-! ## Rings and slots (R141) -/

/-- The window offset of the slot that index `k` names in a ring of base `b` and size `z` (R141). -/
def slotOffset (b : Half) (z : Nat) (k : Byte) : Nat := b.toNat + 256 * (k.toNat % z)

/-- The transmit slot of sequence `seq` on an assured circuit (R98); on a plain circuit the slot of N is the one at tx done
(R120). -/
def Circuit.txSlot (c : Circuit) (seq : Seq) : Nat :=
  match c.mode with
  | .assured => slotOffset c.txBase c.txSize (c.txDone + BitVec.ofNat 8 (distance c.oldestSeq seq))
  | .plain => slotOffset c.txBase c.txSize c.txDone

/-- The receive slot at rx fill (R113, R126). -/
def Circuit.rxSlot (c : Circuit) : Nat := slotOffset c.rxBase c.rxSize c.rxFill

/-- Posted transmit slots not done: (posted copy − tx done) mod 256. -/
def Circuit.postedSpan (c : Circuit) : Nat := span c.txDone c.postedCopy

/-- Filled receive slots: (rx fill − release copy) mod 256. -/
def Circuit.filledSpan (c : Circuit) : Nat := span c.releaseCopy c.rxFill

/-- Free receive slots (R111). -/
def Circuit.freeSlots (c : Circuit) : Nat := c.rxSize - c.filledSpan

/-- The credit the circuit would announce: its free slots, capped at 32 (R114). -/
def Circuit.credit (c : Circuit) : Nat := min 32 c.freeSlots

/-- The limit the circuit would announce: E plus the free slots (R115). -/
def Circuit.limitNow (c : Circuit) : Seq := c.expectedSeq + BitVec.ofNat 6 c.freeSlots

/-- Outstanding segments: (N − U) mod 64 (R99). -/
def Circuit.outstanding (c : Circuit) : Nat := distance c.oldestSeq c.nextSeq

/-! ## Watched fields (R144) -/

/-- A watched field of the window. -/
inductive WatchedField where
  | control
  | interruptEnable
  | requestPost
  | attentionTake
  | txPost (c : CircuitNo)
  | rxRelease (c : CircuitNo)
  | gapAck (c : CircuitNo)
deriving DecidableEq, Repr

/-- The watched field at an offset, if there is one (R144). -/
def watchedAt (off : Nat) : Option WatchedField :=
  if off = offControl then some .control
  else if off = offInterruptEnable then some .interruptEnable
  else if off = offRequestPost then some .requestPost
  else if off = offAttentionTake then some .attentionTake
  else if 0x0100 ≤ off ∧ off < 0x0500 then
    if off % 64 = recTxPost then some (.txPost (Fin.ofNat 16 ((off - 0x0100) / 64)))
    else if off % 64 = recRxRelease then some (.rxRelease (Fin.ofNat 16 ((off - 0x0100) / 64)))
    else if off % 64 = recGapAck then some (.gapAck (Fin.ofNat 16 ((off - 0x0100) / 64)))
    else none
  else none

/-- The offset of a watched field in the window. -/
def WatchedField.offset : WatchedField → Nat
  | .control => offControl
  | .interruptEnable => offInterruptEnable
  | .requestPost => offRequestPost
  | .attentionTake => offAttentionTake
  | .txPost c => recordBase c + recTxPost
  | .rxRelease c => recordBase c + recRxRelease
  | .gapAck c => recordBase c + recGapAck

end Sys2Proof.Machine
end

