-- ==== Sys2Proof/Machine/Flags.lean ====
section
/-! DEFINITION. The flags: the owed flags of circuits with what a frame in flight may still restore of them (section 3.7, R52 to
R54), full-next (R45), ROLL owed (R29), and the sticky quality flags (R171). -/

namespace Sys2Proof.Machine

open Sys2Proof

/-! ## Owed flags -/

/-- The frame is one of this lifetime of circuit `c` (R54). -/
def FlightFrame.isOf (f : FlightFrame) (c : CircuitNo) (lifetime : Nat) : Bool :=
  f.owner == .circuit c lifetime

/-- Change what the frame in flight of circuit `c` may still restore: the flags were cleared since its start (R54). -/
def State.forget (s : State) (c : CircuitNo) (f : Discharged → Discharged) : State :=
  { s with selector.inFlight := s.selector.inFlight.map fun fl =>
      if fl.isOf c (s.circuit c).lifetime then { fl with discharged := f fl.discharged } else fl }

/-- Clear ACK owed and POLL owed of circuit `c`. -/
def State.clearAckPoll (s : State) (c : CircuitNo) : State :=
  (s.forget c fun d => { d with ack := false, poll := false }).updCircuit c fun k =>
    { k with ackOwed := false, pollOwed := false }

/-- Clear the control owed of circuit `c`. -/
def State.clearControl (s : State) (c : CircuitNo) : State :=
  (s.forget c fun d => { d with control := none }).updCircuit c fun k => { k with controlOwed := none }

/-- Make a control frame owed; a new kind replaces an old one (R57). -/
def State.oweControl (s : State) (c : CircuitNo) (kind : ControlKind) : State :=
  s.updCircuit c fun k => { k with controlOwed := some kind }

/-- Make a standalone ACK owed (R115). -/
def State.oweAck (s : State) (c : CircuitNo) : State :=
  s.updCircuit c fun k => { k with ackOwed := true }

/-- All owed state is cleared: every circuit's control, ACK and POLL owed flags, and ROLL owed (R56, on entry to MUTED and
HALTED). -/
def State.clearAllOwed (s : State) : State :=
  let t := s.eachCircuit fun c s => (s.clearAckPoll c).clearControl c
  { t with selector.rollOwed := false }

/-- Set full-next (R45). -/
def State.setFullNext (s : State) : State := { s with arbiter.fullNext := true }

/-- Set ROLL owed (R29). -/
def State.oweRoll (s : State) : State := { s with selector.rollOwed := true }

/-! ## Sticky quality flags -/

/-- The sticky flags field: bit 0 WENT_POOR, bit 1 WENT_GOOD, bit 2 MUTED_SEEN (R133, R171). -/
def Quality.stickyByte (q : Quality) : Byte :=
  (0 : BitVec 5) ++ BitVec.ofBool q.mutedSeen ++ BitVec.ofBool q.wentGood ++ BitVec.ofBool q.wentPoor

/-- Write the sticky flags field as the flags stand. -/
def State.showSticky (s : State) : State := s.pokeHalf offSticky (s.quality.stickyByte.zeroExtend 16)

/-- Set MUTED_SEEN and write the field (R171). -/
def State.setMutedSeen (s : State) : State := ({ s with quality.mutedSeen := true } : State).showSticky

/-- Clear the sticky flags and write the field as 0 (R147). -/
def State.clearSticky (s : State) : State :=
  ({ s with quality.wentPoor := false, quality.wentGood := false, quality.mutedSeen := false } : State).showSticky

end Sys2Proof.Machine
end

