-- ==== Sys2Proof/Machine/Notice.lean ====
section
/-! DEFINITION. The Notice Unit (sections 9.4 to 9.7): raising a cause, writing an entry, the noted and pending sets, the take
index, the interrupt output and the notice levels. -/

namespace Sys2Proof.Machine

open Sys2Proof

/-! ## Entries -/

/-- The source byte of an entry (R137). -/
def NoticePair.sourceByte : NoticePair → Byte
  | .circuit c _ => circuitByte c
  | .station _ => 0xFF

/-- The cause byte of an entry (R139). -/
def NoticePair.causeByte : NoticePair → Byte
  | .circuit _ k => k.code
  | .station k => k.code

/-- The place of a pair in the draining order: sources 0 to 15 and then the station, causes in the order of R161. -/
def NoticePair.rank : NoticePair → Nat
  | .circuit c k => 32 * c.val + k.code.toNat
  | .station k => 32 * 16 + k.code.toNat

/-- How many addresses the present set holds. -/
def Roster.size (r : Roster) : Nat := r.entries.toList.countP fun e => e.present

/-- The detail of an entry, read from state as the entry is written; a GAP entry has its own at the raise, and 0 here (R159). -/
def State.detailOf (s : State) : NoticePair → Byte
  | .circuit c .dataIn => BitVec.ofNat 8 (s.circuit c).filledSpan
  | .circuit c .spaceOut => BitVec.ofNat 8 (s.circuit c).postedSpan
  | .circuit c .done => match (s.circuit c).completion with
    | some d => d.outcome.code
    | none => 0
  | .circuit c .ended => (s.circuit c).endCause.code
  | .circuit _ .gap => 0
  | .circuit c .fault => (s.circuit c).faultKind.code
  | .station .roster => BitVec.ofNat 8 s.roster.size
  | .station .quality => s.quality.level.code
  | .station .station => s.station.state.code
  | .station .refused => s.requests.refusal.outcome

/-- The four snapshot bytes of an entry (R137, R158). -/
def State.snapshotOf (s : State) : NoticePair → List Byte
  | .circuit c _ =>
    [(s.circuit c).txDone, (s.circuit c).rxFill, (s.circuit c).postedCopy, (s.circuit c).releaseCopy]
  | .station _ =>
    [lowByte s.roster.changeCounter, highByte s.roster.changeCounter, s.station.state.code, 0]

/-- The offset of the entry at a fill index (R132). -/
def entryOffset (fill : Byte) : Nat := 0x0600 + 8 * (fill.toNat % 64)

/-- IRQ as R163 sets it afresh: asserted while enabled and entries are held. -/
def State.updateIrq (s : State) : State :=
  { s with notice.irq := s.notice.irqEnable && s.notice.fill != s.notice.takeCopy }

/-- How many entries are held (section 9.4). -/
def Notice.count (n : Notice) : Nat := span n.takeCopy n.fill

/-- Write an entry: its eight bytes, then the sequence, then the fill index (R158); the pair joins the noted set (R160). -/
def State.writeEntry (s : State) (p : NoticePair) (detail : Byte) : State :=
  let s1 := s.pokeBytes (entryOffset s.notice.fill)
    ([s.notice.sequence, p.sourceByte, p.causeByte, detail] ++ s.snapshotOf p)
  let s2 := { s1 with
    notice.sequence := s.notice.sequence + 1
    notice.fill := s.notice.fill + 1
    notice.held := s.notice.held ++ [p] }
  ((s2.poke offAttentionSequence s2.notice.sequence).poke offAttentionFill s2.notice.fill).updateIrq

/-! ## Raising -/

/-- Write the pending flag and the pending count (R161). -/
def State.showWaiting (s : State) : State :=
  (s.poke offPendingFlag (if s.notice.waiting.isEmpty then 0 else 1)).poke offPendingCount
    (BitVec.ofNat 8 s.notice.waiting.length)

/-- Add a pair to the pending set, kept in draining order, unless it is there (R161). -/
def insertPair (p : NoticePair) : List NoticePair → List NoticePair
  | [] => [p]
  | q :: rest => if p = q then q :: rest else if p.rank < q.rank then p :: q :: rest else q :: insertPair p rest

/-- Raise a cause with a given detail: absorbed if noted, held back if the queue is full, and otherwise written (R158, R160,
R161). -/
def State.raiseWith (s : State) (p : NoticePair) (detail : Byte) : State :=
  if p ∈ s.notice.held then s
  else if Config.attentionRoom ≤ s.notice.count then
    if p ∈ s.notice.waiting then s
    else ({ s with notice.waiting := insertPair p s.notice.waiting } : State).showWaiting
  else s.writeEntry p detail

/-- Raise a cause whose detail is read from state (R158, R159). -/
def State.raise (s : State) (p : NoticePair) : State := s.raiseWith p (s.detailOf p)

/-- Raise a cause if there is one to raise. -/
def State.raiseOption (s : State) : Option NoticePair → State
  | none => s
  | some p => s.raise p

/-! ## Draining and taking -/

/-- Drain these pending pairs, in order, until the queue is full (R161). -/
def State.drainPairs (s : State) : List NoticePair → State
  | [] => s
  | p :: rest =>
    if Config.attentionRoom ≤ s.notice.count then s
    else
      let s1 : State := ({ s with notice.waiting := rest } : State).showWaiting
      State.drainPairs (s1.writeEntry p (s1.detailOf p)) rest

/-- Drain the pending set into the room there is (R161). -/
def State.drainWaiting (s : State) : State := s.drainPairs s.notice.waiting

/-- Take a value written to the attention take index (R162): accepted up to the fill index, ignored beyond it. -/
def State.takeAttention (s : State) (v : Byte) : State :=
  if span s.notice.takeCopy v ≤ s.notice.count then
    (({ s with
        notice.takeCopy := v
        notice.held := s.notice.held.drop (span s.notice.takeCopy v) } : State).drainWaiting).updateIrq
  else s

/-- Take bit 0 of a value written to the interrupt enable (R163). -/
def State.takeInterruptEnable (s : State) (v : Byte) : State :=
  ({ s with notice.irqEnable := v.getLsbD 0 } : State).updateIrq

/-! ## Notice levels -/

/-- A fill of a receive slot of circuit `c`, whose segment carried END or not (R164). -/
def State.noticeFill (s : State) (c : CircuitNo) (endMark : Bool) : State :=
  if endMark || decide ((s.circuit c).rxNotice.toNat ≤ (s.circuit c).filledSpan) then
    (s.updCircuit c fun k => { k with rxIdleTimer := none }).raise (.circuit c .dataIn)
  else s.updCircuit c fun k => { k with rxIdleTimer := some 0 }

/-- A release of transmit slots of circuit `c`, which held `before` outstanding slots (R166). -/
def State.noticeRelease (s : State) (c : CircuitNo) (before : Nat) : State :=
  if (s.circuit c).txNotice.toNat < before ∧ (s.circuit c).postedSpan ≤ (s.circuit c).txNotice.toNat then
    s.raise (.circuit c .spaceOut)
  else s

end Sys2Proof.Machine
end

