-- ==== Sys2Proof/Machine/Circuits.lean ====
section
/-! DEFINITION. The Circuit Table's shared operations (Chapters 4 and 5): the orphan list, completions, going FREE, entering
ENDED and CLEARING, loss, and the start of a circuit's transfer state. -/

namespace Sys2Proof.Machine

open Sys2Proof

/-! ## The orphan list (section 4.6) -/

/-- The kind of frame a reply is (R74). -/
def Reply.kind : Reply → Kind
  | .refuse _ _ => .refuse
  | .clear _ => .clear
  | .confirm _ => .confirm

/-- Two entries are duplicates: same peer, peer circuit and kind (R75). -/
def Orphan.sameKey (a b : Orphan) : Bool :=
  a.peer == b.peer && a.peerCircuit == b.peerCircuit && a.reply.kind == b.reply.kind

/-- Add an entry to the orphan list: not while MUTED or HALTED, not a duplicate, and dropped and counted if the list is full
(R75). -/
def State.addOrphan (s : State) (peer : Address) (peerCircuit : CircuitNo) (reply : Reply) : State :=
  let entry : Orphan := ⟨peer, peerCircuit, reply, false⟩
  if s.station.state = .muted ∨ s.station.state = .halted then s
  else if s.orphans.entries.any entry.sameKey then s
  else if Config.orphanRoom ≤ s.orphans.entries.length then
    ({ s with orphans.drops := s.orphans.drops + 1 } : State).pokeHalf offOrphanDrops (s.orphans.drops + 1)
  else { s with orphans.entries := s.orphans.entries ++ [entry] }

/-! ## State changes and completions -/

/-- Change the circuit's state and write the record's state field (R58). -/
def State.setCircuitState (s : State) (c : CircuitNo) (st : CircuitState) : State :=
  (s.updCircuit c fun k => { k with state := st }).pokeRecord c recState st.code

/-- Write the completion fields; no request is in flight afterwards (R157). -/
def State.writeCompletion (s : State) (c : CircuitNo) (d : Completion) : State :=
  (((((s.updCircuit c fun k => { k with completion := some d, inFlight := none }).pokeRecord c recDoneKind d.kind.code
    ).pokeRecord c recDoneId d.id
    ).pokeRecord c recDoneOutcome d.outcome.code
    ).pokeRecord c recOverKind (match d.overtaken with | some o => o.1.code | none => 0)
    ).pokeRecord c recOverId (match d.overtaken with | some o => o.2 | none => 0)

/-- The completion of the request in flight with an outcome (R157). -/
def Circuit.completes (k : Circuit) (outcome : CompletionOutcome) : Option Completion :=
  k.inFlight.map fun r => ⟨r.1, r.2, outcome, none⟩

/-- Write a completion if there is one. -/
def State.writeCompletionOption (s : State) (c : CircuitNo) : Option Completion → State
  | none => s
  | some d => s.writeCompletion c d

/-- The DONE a completion raises (R157). -/
def doneOf (c : CircuitNo) (d : Option Completion) : Option NoticePair :=
  d.map fun _ => .circuit c .done

/-- Write the unsent count: the posted copy minus tx done (R79, R85). -/
def State.writeUnsent (s : State) (c : CircuitNo) : State :=
  let n : Byte := (s.circuit c).postedCopy - (s.circuit c).txDone
  (s.updCircuit c fun k => { k with unsentCount := n }).pokeRecord c recUnsent n

/-- The owed frames of a circuit that goes FREE: a CONFIRM is moved to the orphan list, all else is cleared (R79, step 2). -/
def State.releaseOwed (s : State) (c : CircuitNo) : State :=
  let k := s.circuit c
  let s1 := (s.clearAckPoll c).updCircuit c fun k => { k with callOwed := false }
  let s2 := if k.controlOwed = some .confirm then s1.addOrphan k.peer (k.peerCircuit.getD 0) (.confirm c) else s1
  s2.clearControl c

/-- A circuit goes FREE, in the order of R79; the DONE of a completion is raised by the caller, after this. -/
def State.goFree (s : State) (c : CircuitNo) (done : Option Completion) : State :=
  let s1 := if (s.circuit c).state.live then s.writeUnsent c else s
  let s2 := (s1.releaseOwed c).updCircuit c fun k =>
    { k with
      retryTimer := none
      sendCount := 0
      dataRetryTimer := none
      probeTimer := none
      rxIdleTimer := none
      inFlight := none }
  (s2.writeCompletionOption c done).setCircuitState c .free

/-- A circuit goes FREE and its request in flight completes with an outcome, raising DONE (R79, R157). -/
def State.freeWith (s : State) (c : CircuitNo) (outcome : CompletionOutcome) : State :=
  let d := (s.circuit c).completes outcome
  (s.goFree c d).raiseOption (doneOf c d)

/-- The request in flight completes with an outcome and the circuit changes state, raising DONE (R66, R71). -/
def State.completeInto (s : State) (c : CircuitNo) (outcome : CompletionOutcome) (st : CircuitState) : State :=
  let d := (s.circuit c).completes outcome
  (((s.writeCompletionOption c d).updCircuit c fun k => { k with inFlight := none }).setCircuitState c st).raiseOption
    (doneOf c d)

/-! ## ENDED, CLEARING and loss -/

/-- An OPEN circuit enters ENDED with a cause, owing a CONFIRM or nothing (R85, R91). -/
def State.enterEnded (s : State) (c : CircuitNo) (cause : EndCause) (confirm : Bool) : State :=
  let s1 := if confirm then s.oweControl c .confirm else s.clearControl c
  let s2 := (s1.clearAckPoll c).updCircuit c fun k =>
    { k with dataRetryTimer := none, probeTimer := none, retryTimer := none, endCause := cause }
  let s3 := (s2.writeUnsent c).pokeRecord c recEndCause cause.code
  (s3.setCircuitState c .ended).raise (.circuit c .ended)

/-- A circuit is lost with a cause (R91). -/
def State.lose (s : State) (c : CircuitNo) (cause : EndCause) : State :=
  match (s.circuit c).state with
  | .calling => s.freeWith c .lost
  | .opened => s.enterEnded c cause false
  | .draining => s.freeWith c .lost
  | .clearing => s.freeWith c .unconfirmed
  | .listening => if cause = .lostHalted then s.freeWith c .lost else s
  | .ended => s
  | .free => s

/-- A drained circuit enters CLEARING with CLEAR owed (R81). -/
def State.enterClearing (s : State) (c : CircuitNo) : State :=
  (((s.clearAckPoll c).oweControl c .clear).updCircuit c fun k =>
    { k with sendCount := 0, retryTimer := none, dataRetryTimer := none, probeTimer := none }).setCircuitState c .clearing

/-- The drain is complete: DRAINING with tx done at the drain target (R81). -/
def Circuit.drained (k : Circuit) : Bool := k.state == .draining && k.txDone == k.drainTarget

/-- Test a drain, and enter CLEARING if it is complete (R81). -/
def State.testDrain (s : State) (c : CircuitNo) : State :=
  if (s.circuit c).drained then s.enterClearing c else s

/-! ## The stall for credit (section 6.5) -/

/-- Posted slots that have been sent: the outstanding ones of an assured circuit, none of a plain one (R98, R120). -/
def Circuit.sentSpan (k : Circuit) : Nat :=
  match k.mode with
  | .assured => k.outstanding
  | .plain => 0

/-- The circuit has a posted slot that has not been sent, before the drain target in DRAINING (tests 2 and 3 of R100 and
R121). -/
def Circuit.hasUnsent (k : Circuit) : Bool :=
  decide (k.sentSpan < k.postedSpan) && (k.state != .draining || decide (k.sentSpan < span k.txDone k.drainTarget))

/-- Stalled for credit (R109). -/
def Circuit.stalled (k : Circuit) : Bool :=
  k.mode == .assured && k.state.transfers && k.hasUnsent && k.nextSeq == k.oldestSeq && !before k.nextSeq k.limit

/-- Test the stall condition afresh: start, keep or stop the probe timer (R109). -/
def State.testStall (s : State) (c : CircuitNo) : State :=
  s.updCircuit c fun k =>
    { k with probeTimer := if k.stalled then (match k.probeTimer with | none => some 0 | some t => some t) else none }

/-! ## Taking an OPEN or a LISTEN -/

/-- The index copies at the host's indices (R149), with the record's fields. -/
def State.takeIndices (s : State) (c : CircuitNo) : State :=
  let tx := s.peek (recordBase c + recTxPost)
  let rx := s.peek (recordBase c + recRxRelease)
  ((s.updCircuit c fun k => { k with postedCopy := tx, txDone := tx, releaseCopy := rx, rxFill := rx }).pokeRecord c
    recTxDone tx).pokeRecord c recRxFill rx

/-- The starting send and receive state in either mode (R99, R111, R120, R124). -/
def Circuit.startTransfer (k : Circuit) : Circuit :=
  let k1 := { k with
    expectedSeq := 0
    nextSeq := 0
    dataRetryTimer := none
    probeTimer := none
    rxIdleTimer := none
    discardCount := 0
    gapCount := 0
    overrunCount := 0
    unsentCount := 0
    firstGap := none }
  match k.mode with
  | .assured =>
    { k1 with
      oldestSeq := 0
      limit := 0
      resendPoint := none
      dataRetryCount := 0
      lastLimit := BitVec.ofNat 6 k.initialCredit
      lastCredit := k.initialCredit }
  | .plain => k1

/-- The index copies, the starting transfer state and the transfer fields of the record at the taking of an OPEN or a LISTEN
(R99, R111, R124, R149). -/
def State.startTransfer (s : State) (c : CircuitNo) : State :=
  (((((s.takeIndices c).updCircuit c Circuit.startTransfer).pokeRecordHalf c recFirstGap 0xFFFF).pokeRecordHalf c recGapCount 0
    ).pokeRecordHalf c recDiscardCount 0).pokeRecordHalf c recOverrunCount 0 |>.pokeRecord c recUnsent 0

/-- The Circuit Table's fields that OPEN and LISTEN taken both set, with the record's fields (R57, R60, R61). -/
def State.takeContext (s : State) (c : CircuitNo) (kind : RequestKind) (r : RequestRecord) : State :=
  let s1 := s.updCircuit c fun k =>
    { k with
      mode := r.circuitMode
      peer := r.peerAddress
      service := r.service
      rxNotice := r.rxNotice
      txNotice := r.txNotice
      peerCircuit := none
      peerTag := none
      endCause := .noCause
      initialCredit := min 32 k.rxSize
      lifetime := k.lifetime + 1
      inFlight := some (kind, r.id) }
  (((((((s1.pokeRecord c recMode r.circuitMode.code).pokeRecord c recEndCause 0).pokeRecord c recPeer
    (r.peerAddress.zeroExtend 8)).pokeRecord c recPeerCircuit 0xFF).pokeRecord c recService r.service).pokeRecord c
    recPeerTag 0xFF).pokeRecord c recRxNotice r.rxNotice).pokeRecord c recTxNotice r.txNotice

end Sys2Proof.Machine
end

