-- ==== Sys2Proof/Machine/Roster.lean ====
section
/-! DEFINITION. The Roster (Chapter 2): its entries, the present-set mirror, and the losses that a removal brings. -/

namespace Sys2Proof.Machine

open Sys2Proof

/-- The entry of an address; address 31 names none (R21, R22). -/
def Roster.entry (r : Roster) (a : Nat) : RosterEntry :=
  if h : a < 31 then r.entries.get ⟨a, h⟩ else RosterEntry.absent

/-- The address is present (R21). -/
def Roster.isPresent (r : Roster) (a : Address) : Bool := (r.entry a.toNat).present

/-- Change the entry of an address 0 to 30. -/
def Roster.setEntry (r : Roster) (a : Address) (e : RosterEntry) : Roster :=
  if h : a.toNat < 31 then { r with entries := r.entries.set a.toNat e } else r

/-- The present set as a 32-bit word: bit a is address a, and bit 31 is 0 (R25). -/
def Roster.presentSet (r : Roster) : BitVec 32 :=
  allAddresses.foldl (fun w a => if (r.entry a).present then w ||| (1 <<< a) else w) 0

/-- Write the half of the mirror that holds address `a`, then the change counter, advanced by one (R25). -/
def State.writeMirror (s : State) (a : Address) : State :=
  let s1 := if a.toNat < 16 then s.pokeHalf offPresentLow (s.roster.presentSet.extractLsb' 0 16)
    else s.pokeHalf offPresentHigh (s.roster.presentSet.extractLsb' 16 16)
  let n := s.roster.changeCounter + 1
  ({ s1 with roster.changeCounter := n } : State).pokeHalf offChangeCounter n

/-- An address becomes present with age 0: mirror, counter and ROSTER (R22, R25, R26, R35). -/
def State.markPresent (s : State) (a : Address) : State :=
  (({ s with roster := s.roster.setEntry a ⟨true, 0⟩ } : State).writeMirror a).raise (.station .roster)

/-- A peer is added: full-next is set as well (R22, R45). -/
def State.addPeer (s : State) (a : Address) : State := s.setFullNext.markPresent a

/-- A present peer is refreshed (R23). -/
def State.refreshPeer (s : State) (a : Address) : State :=
  { s with roster := s.roster.setEntry a ⟨true, 0⟩ }

/-- The source of a good or malformed frame reaches the Roster (R22, R23): address 31 names no entry, and the own address is
not refreshed (R23, R34). A duplicate address is found before this is reached (R32). -/
def State.rosterSource (s : State) (a : Address) : State :=
  if a = 31 ∨ a = s.station.address then s
  else if s.roster.isPresent a then s.refreshPeer a
  else s.addPeer a

/-- The present set of a good ROLL from a peer: a missing own bit makes ROLL owed in ACTIVE (R30). -/
def State.examineRoll (s : State) (f : Frame) : State :=
  if s.station.state = .active ∧ f.src ≠ s.station.address ∧ presentBit f.payload s.station.address.toNat = false then
    s.oweRoll
  else s

/-- Every circuit that names the removed peer is lost with LOST_ABSENT; LISTENING and ENDED ones are not reached (R93). -/
def State.loseAbsent (s : State) (a : Address) : State :=
  s.eachCircuit fun c s => if (s.circuit c).peer = a then s.lose c .lostAbsent else s

/-- A peer is removed by ageing: full-next, mirror, counter, ROSTER, and the losses (R24). -/
def State.removePeer (s : State) (a : Address) : State :=
  let s1 : State := { s.setFullNext with roster := s.roster.setEntry a RosterEntry.absent }
  ((s1.writeMirror a).raise (.station .roster)).loseAbsent a

/-- A circuit number is lost with the same cause on every circuit (R96). -/
def State.loseAll (s : State) (cause : EndCause) : State :=
  s.eachCircuit fun c s => s.lose c cause

/-- The roster is emptied on entry to HALTED: both halves 0, the counter advanced once, no ROSTER (R25, R36). -/
def State.emptyRoster (s : State) : State :=
  let n := s.roster.changeCounter + 1
  ((({ s with
      roster.entries := Vector.replicate 31 RosterEntry.absent
      roster.silence := 0
      roster.changeCounter := n } : State).pokeHalf offPresentLow 0).pokeHalf offPresentHigh 0).pokeHalf offChangeCounter n

/-- The station's own frame was sent: the silence timer returns to 0 and ROLL owed is cleared (R28). -/
def State.ownFrameSent (s : State) : State :=
  { s with roster.silence := 0, selector.rollOwed := false }

end Sys2Proof.Machine
end

