-- ==== Sys2Proof/Machine/Requests.lean ====
section
/-! DEFINITION. The Request Unit (sections 9.1 and 9.2): the post index, the taking of requests, their validation, and the effects
of OPEN, LISTEN, CLOSE and ABORT (R59 to R61, R80, R89, R90). -/

namespace Sys2Proof.Machine

open Sys2Proof

/-! ## Refusals -/

/-- Write the last refusal record and advance the refusal count (R156, steps 1 and 2). -/
def State.writeRefusal (s : State) (id circuit kind : Byte) (outcome : RefusalOutcome) : State :=
  let n := s.requests.refusalCount + 1
  (((({ s with
        requests.refusal := ⟨id, circuit, kind, outcome.code⟩
        requests.refusalCount := n } : State).poke offRefusalId id).poke offRefusalCircuit circuit).poke offRefusalKind
    kind).poke offRefusalOutcome outcome.code |>.pokeHalf offRefusalCount n

/-- Take a value written to the request post index (R153). -/
def State.takeRequestPost (s : State) (v : Byte) : State :=
  let t := s.requests.take
  if span t v ≤ Config.requestRoom ∧ span t s.requests.postCopy ≤ span t v then
    { s with requests.postCopy := v }
  else (s.writeRefusal v 0xFF 0 .queueFault).raise (.station .refused)

/-! ## Validation (R155) -/

/-- What R59's table answers to a request that does not apply to the circuit's state. -/
def stateRefusal (kind : RequestKind) (st : CircuitState) : Option RefusalOutcome :=
  match kind with
  | .openR | .listenR =>
    match st with
    | .free => none
    | .listening | .calling | .draining | .clearing => some .busy
    | .opened | .ended => some .badState
  | .closeR =>
    match st with
    | .opened | .ended => none
    | .free => some .badState
    | .listening | .calling | .draining | .clearing => some .busy
  | .abortR => none

/-- The kind a request's kind byte names (R137). -/
def requestKindOf (b : Byte) : Option RequestKind :=
  match b.toNat with
  | 1 => some .openR
  | 2 => some .listenR
  | 3 => some .closeR
  | 4 => some .abortR
  | _ => none

/-- Check 3: the fields an OPEN and a LISTEN both use, and the filter of a LISTEN. -/
def RequestRecord.fieldsFit (r : RequestRecord) (kind : RequestKind) (rxSize txSize : Nat) : Bool :=
  match kind with
  | .openR =>
    decide (r.mode.toNat ≤ 1) && decide (1 ≤ r.rxNotice.toNat) && decide (r.rxNotice.toNat ≤ rxSize) &&
    decide (r.txNotice.toNat < txSize)
  | .listenR =>
    decide (r.mode.toNat ≤ 1) && decide (1 ≤ r.rxNotice.toNat) && decide (r.rxNotice.toNat ≤ rxSize) &&
    decide (r.txNotice.toNat < txSize) && decide (r.peer.toNat ≤ 31)
  | .closeR => true
  | .abortR => true

/-- Check 5: the peer of an OPEN lies in 0 to 30 and, with loop test off, is not the own address. -/
def Station.peerFits (st : Station) (peer : Byte) : Bool :=
  decide (peer.toNat ≤ 30) && (st.loop || decide (peer.toNat ≠ st.address.toNat))

/-- Check 6: the station state admits the request. -/
def stateAdmits (kind : RequestKind) (st : StationState) : Bool :=
  match kind with
  | .openR => st == .active
  | .listenR => st.receives
  | .closeR => true
  | .abortR => true

/-- The first check of R155 that fails, or none. -/
def State.validate (s : State) (r : RequestRecord) : Option RefusalOutcome :=
  if ¬r.circuit.toNat < s.station.circuitCount then some .badCircuit
  else
    match requestKindOf r.kind with
    | none => some .badKind
    | some kind =>
      let k := s.circuit r.circuitNo
      if r.fieldsFit kind k.rxSize k.txSize = false then some .badField
      else
        match stateRefusal kind k.state with
        | some outcome => some outcome
        | none =>
          if kind = .openR ∧ s.station.peerFits r.peer = false then some .badPeer
          else if stateAdmits kind s.station.state = false then some .notActive
          else none

/-! ## Effects -/

/-- An OPEN to a present peer places the circuit in CALLING (R60). -/
def State.placeCall (s : State) (c : CircuitNo) (r : RequestRecord) : State :=
  let s1 := (s.takeContext c .openR r).updCircuit c fun k =>
    { k with callTag := k.callTag + 1, sendCount := 0, retryTimer := none, callOwed := true }
  ((s1.pokeRecord c recCallTag ((s1.circuit c).callTag.zeroExtend 8)).startTransfer c).setCircuitState c .calling

/-- An OPEN that passes the checks; with its peer absent it completes NO_PEER at once (R60). -/
def State.openTaken (s : State) (r : RequestRecord) : State × Option NoticePair :=
  let c := r.circuitNo
  if s.roster.isPresent r.peerAddress then (s.placeCall c r, none)
  else (s.writeCompletion c ⟨.openR, r.id, .noPeer, none⟩, some (.circuit c .done))

/-- A LISTEN that passes the checks (R61). -/
def State.listenTaken (s : State) (r : RequestRecord) : State × Option NoticePair :=
  let c := r.circuitNo
  (((s.takeContext c .listenR r).startTransfer c).setCircuitState c .listening, none)

/-- A CLOSE on an OPEN circuit starts the drain (R80, R109). -/
def State.startDrain (s : State) (c : CircuitNo) (id : Byte) : State :=
  let s1 := s.updCircuit c fun k => { k with drainTarget := k.postedCopy, inFlight := some (.closeR, id) }
  ((s1.setCircuitState c .draining).testDrain c).testStall c

/-- A CLOSE that passes the checks: an OPEN circuit drains, an ENDED one goes FREE with DONE (R80, R89). -/
def State.closeTaken (s : State) (r : RequestRecord) : State × Option NoticePair :=
  let c := r.circuitNo
  if (s.circuit c).state = .ended then
    (s.goFree c (some ⟨.closeR, r.id, .done, none⟩), some (.circuit c .done))
  else (s.startDrain c r.id, none)

/-- The CLEAR an ABORT owes to a peer circuit that is known (R90). -/
def State.abortReply (s : State) (c : CircuitNo) (k : Circuit) : State :=
  if k.state.live then s.addOrphan k.peer (k.peerCircuit.getD 0) (.clear c) else s

/-- An ABORT (R90): it completes DONE in every state, overtaking the request in flight. -/
def State.abortTaken (s : State) (r : RequestRecord) : State × Option NoticePair :=
  let c := r.circuitNo
  let k := s.circuit c
  let d : Completion := ⟨.abortR, r.id, .done, k.inFlight⟩
  if k.state = .free then (s.writeCompletion c d, some (.circuit c .done))
  else ((s.goFree c (some d)).abortReply c k, some (.circuit c .done))

/-- What a valid request does, by its kind. -/
def State.actOn (s : State) (r : RequestRecord) : State × Option NoticePair :=
  match requestKindOf r.kind with
  | some .openR => s.openTaken r
  | some .listenR => s.listenTaken r
  | some .closeR => s.closeTaken r
  | some .abortR => s.abortTaken r
  | none => (s, none)

/-! ## The taking (R154) -/

/-- A request waits and the station takes requests (R154). -/
def State.requestWaiting (s : State) : Bool :=
  s.requests.postCopy != s.requests.take && s.station.state.serves

/-- Advance the take index and write its field (R154, step 3). -/
def State.advanceTake (s : State) : State :=
  let n := s.requests.take + 1
  ({ s with requests.take := n } : State).poke offRequestTake n

/-- Take the request at the take index: read, validate, act or refuse, advance, raise (R154, R156). -/
def State.takeRequest (s : State) : State :=
  let r := s.requestRecord
  match s.validate r with
  | some outcome =>
    ((s.writeRefusal r.id r.circuit r.kind outcome).advanceTake).raise (.station .refused)
  | none => ((s.actOn r).1.advanceTake).raiseOption (s.actOn r).2

/-- The taking as a row of one kind names it: nothing happens unless a request of that kind is at the take index (log 9). -/
def State.takeIf (s : State) (kind : Option RequestKind) : State :=
  if s.requestWaiting ∧ requestKindOf s.requestRecord.kind = kind then s.takeRequest else s

end Sys2Proof.Machine
end

