-- ==== Sys2Proof/Machine/Accesses.lean ====
section
/-! DEFINITION. The host's write accesses (sections 8.1 and 8.8): the bytes of each, its arrival in memory, and the later writes that
may have reached memory when an earlier write of CONTROL is taken. -/

namespace Sys2Proof.Machine

open Sys2Proof

/-- The byte of one lane of a word, if its byte enable is active (R129). -/
def laneBytes (on : Bool) (off : Nat) (v : Byte) : List (Nat × Byte) := if on then [(off, v)] else []

/-- The bytes of a word under its byte enables (R129). -/
def wordBytes (word : BitVec 15) (be1 be0 : Bool) (data : Half) : List (Nat × Byte) :=
  laneBytes be0 (2 * word.toNat) (lowByte data) ++ laneBytes be1 (2 * word.toNat + 1) (highByte data)

/-- The bytes that a host write puts into the window, if the command is one (R129, R144). -/
def accessBytes : Instr → Option (List (Nat × Byte))
  | .hostWrite word be1 be0 data => some (wordBytes word be1 be0 data)
  | .go => some [(WatchedField.control.offset, 0x5A)]
  | .restart => some [(WatchedField.control.offset, 0xA5)]
  | .controlOtherValue v => some [(WatchedField.control.offset, v)]
  | .interruptEnableWrite v => some [(WatchedField.interruptEnable.offset, v)]
  | .requestPostIndexWrite v => some [(WatchedField.requestPost.offset, v)]
  | .attentionTakeIndexWrite v => some [(WatchedField.attentionTake.offset, v)]
  | .txPostIndexWrite c v => some [((WatchedField.txPost c).offset, v)]
  | .rxReleaseIndexWrite c v => some [((WatchedField.rxRelease c).offset, v)]
  | .gapAck c v => some [((WatchedField.gapAck c).offset, v)]
  | _ => none

/-- The writes of the host behind this command wait for it: a read is served as it is taken, in the order of the accesses (R130), and
what the host does after the pin has fallen comes after that (log 11). -/
def holdsBack : Instr → Bool
  | .stickyQualityFlagsRead _ _ => true
  | .resetPinLow => true
  | _ => false

/-- The host writes in the queue that could have reached memory by now, in their order. -/
def State.writesAhead (s : State) : List (List (Nat × Byte)) :=
  (s.pending.takeWhile fun i => !holdsBack i).filterMap accessBytes

/-- The access writes CONTROL. -/
def touchesControl (bytes : List (Nat × Byte)) : Bool := bytes.any fun b => b.1 == offControl

/-- Write the bytes of one access; no access is split (R130). -/
def State.pokeEach (s : State) (bytes : List (Nat × Byte)) : State := bytes.foldl (fun s b => s.poke b.1 b.2) s

/-- A host write's command comes to its turn: its bytes reach memory, unless they stand there already (R130, R144). -/
def State.arrive (s : State) (bytes : List (Nat × Byte)) : State :=
  if s.landed = 0 then s.pokeEach bytes else { s with landed := s.landed - 1 }

/-- The later host writes that have reached memory when a write of CONTROL is taken (R145): if one that writes CONTROL waits and has
not landed, a free number of the waiting writes has, each whole and in the order of the host's accesses (R130, log 11). -/
def State.landLater (s : State) : State :=
  let waiting := s.writesAhead.drop s.landed
  if waiting.any touchesControl then
    let now := waiting.take (Config.writesLanded s.choices)
    { now.foldl State.pokeEach s with landed := s.landed + now.length, choices := s.choices + 1 }
  else s

end Sys2Proof.Machine
end

