-- ==== Sys2Proof/Machine/Quality.lean ====
section
/-! DEFINITION. The Quality Monitor (Chapter 10): its counts, the window end and the level. -/

namespace Sys2Proof.Machine

open Sys2Proof

/-- One good frame heard (R168). -/
def State.countGood (s : State) : State :=
  ({ s with quality.goodHeard := s.quality.goodHeard + 1 } : State).pokeHalf offGoodHeard (s.quality.goodHeard + 1)

/-- One malformed frame (R168). -/
def State.countMalformed (s : State) : State :=
  ({ s with quality.malformed := s.quality.malformed + 1 } : State).pokeHalf offMalformed (s.quality.malformed + 1)

/-- One damaged frame heard: the cumulative counter and D (R168). -/
def State.countDamaged (s : State) : State :=
  (({ s with
      quality.damagedHeard := s.quality.damagedHeard + 1
      quality.d := countUp s.quality.d } : State).pokeHalf offDamagedHeard (s.quality.damagedHeard + 1)).pokeHalf offWindowD
    (countUp s.quality.d)

/-- One own frame sent (R168). -/
def State.countSent (s : State) : State :=
  ({ s with quality.framesSent := s.quality.framesSent + 1 } : State).pokeHalf offFramesSent (s.quality.framesSent + 1)

/-- One own collision: the cumulative counter and K (R168). -/
def State.countCollision (s : State) : State :=
  (({ s with
      quality.ownCollisions := s.quality.ownCollisions + 1
      quality.k := countUp s.quality.k } : State).pokeHalf offOwnCollisions (s.quality.ownCollisions + 1)).pokeHalf offWindowK
    (countUp s.quality.k)

/-- Set D and K to 0 and write both fields (R170, R172). -/
def State.clearWindowCounts (s : State) : State :=
  (({ s with quality.d := 0, quality.k := 0 } : State).pokeHalf offWindowD 0).pokeHalf offWindowK 0

/-- The length of the quality window: W = 65,536 × 2^q bt (R169). -/
def QualityParams.window (p : QualityParams) : Nat := Config.windowUnit * 2 ^ p.exponent

/-- The level changes, with its field, its sticky flag and QUALITY, in the order of R170. -/
def State.changeLevel (s : State) (level : Level) : State :=
  let s1 := ({ s with quality.level := level } : State).poke offLevel level.code
  let s2 : State := match level with
    | .poor => { s1 with quality.wentPoor := true }
    | .good => { s1 with quality.wentGood := true }
  s2.showSticky.raise (.station .quality)

/-- The level that the window's sum calls for (R170). -/
def QualityParams.nextLevel (p : QualityParams) (level : Level) (sum : Nat) : Level :=
  match level with
  | .good => if p.high ≤ sum then .poor else .good
  | .poor => if sum ≤ p.low then .good else .poor

/-- A window ends: the level is tested, D and K are cleared, and the timer restarts (R169, R170). -/
def State.endWindow (s : State) (p : QualityParams) : State :=
  let next := p.nextLevel s.quality.level (s.quality.d.toNat + s.quality.k.toNat)
  let s1 := if next = s.quality.level then s else s.changeLevel next
  ({ s1 with quality.windowTimer := some 0 } : State).clearWindowCounts

end Sys2Proof.Machine
end

