-- ==== Sys2Proof/Machine/Arbiter.lean ====
section
/-! DEFINITION. The Turn Arbiter (Chapter 3): positions, rounds, the rotation base and the line-busy happening. -/

namespace Sys2Proof.Machine

open Sys2Proof

/-- How far address `a` lies from B in ascending rotation: 0 for B + 1, 30 for B itself (R41, R42). -/
def rotation (base : Address) (a : Nat) : Nat := (a + 30 - base.toNat) % 31

/-- The compressed position of address `a`: the members that come before it in ascending rotation from B (R41). -/
def Roster.compressedPosition (r : Roster) (base : Address) (a : Nat) : Nat :=
  (allAddresses.filter fun m => (r.entry m).present && decide (rotation base m < rotation base a)).length

/-- The number of positions of a round (R41, R42). -/
def Roster.positionsIn (r : Roster) : LadderMode → Nat
  | .compressed => r.size
  | .full => 31

/-- The position of an address in a round (R41, R42). -/
def Roster.positionIn (r : Roster) (base : Address) (a : Nat) : LadderMode → Nat
  | .compressed => r.compressedPosition base a
  | .full => rotation base a

/-- The mode a round that begins now takes (R46). -/
def State.nextMode (s : State) : LadderMode :=
  if s.arbiter.fullNext || s.quality.level == .poor then .full else .compressed

/-- A round begins: timer 0, and mode, n and own position fixed; a full round clears full-next (R38, R46). -/
def State.beginRound (s : State) : State :=
  { s with
    arbiter.state := .round
    arbiter.mode := s.nextMode
    arbiter.fullNext := if s.nextMode = .full then false else s.arbiter.fullNext
    arbiter.positions := s.roster.positionsIn s.nextMode
    arbiter.ownPosition := s.roster.positionIn s.arbiter.base s.station.address.toNat s.nextMode
    arbiter.roundTimer := 0
    arbiter.turnMade := false }

/-- The time at which position p starts (R39). -/
def positionStart (p : Nat) : Nat := Config.guard + p * Config.positionStep

/-- The length of a silent round of the round in progress (R39). -/
def Arbiter.silentLength (a : Arbiter) : Nat := positionStart a.positions

/-- The round timer stands at the own position, and the turn of the round has not been made (R43, log 26). -/
def Arbiter.turnDue (a : Arbiter) : Bool :=
  a.state == .round && !a.turnMade && a.roundTimer == positionStart a.ownPosition

/-- The round timer stands at the length of a silent round (R39). -/
def Arbiter.silenceDue (a : Arbiter) : Bool := a.state == .round && decide (a.silentLength ≤ a.roundTimer)

/-- B after a frame end with this source, if the frame end has one (R40). -/
def nextBase (base : Address) : Option Address → Address
  | none => base
  | some a => if a = 31 then base else a

/-- A frame end reaches the Turn Arbiter in BUSY: B is updated and a new round begins (R37, R38, R40). -/
def State.frameEnd (s : State) (source : Option Address) : State :=
  if s.arbiter.state = .busy then
    ({ s with arbiter.base := nextBase s.arbiter.base source } : State).beginRound
  else s

/-- The line becomes busy: the round is over for this station, and an unreached position is deferred (R37, R44). -/
def State.lineBusyToArbiter (s : State) : State :=
  if s.arbiter.state = .round then { s with arbiter.state := .busy } else s

end Sys2Proof.Machine
end

