-- ==== Sys2Proof/Machine/Transfer.lean ====
section
/-! DEFINITION. The Transfer Engine (Chapters 6 and 7) on received segments and acknowledgements, on host posts, releases and
GAP-ACK, and on its timers. -/

namespace Sys2Proof.Machine

open Sys2Proof

/-! ## Receiving segments -/

/-- Write a segment into the receive slot at rx fill: payload, then header (R113, R126, R140). -/
def State.writeSlot (s : State) (c : CircuitNo) (f : Frame) (gapped : Bool) (missing : Nat) : State :=
  let slot := (s.circuit c).rxSlot
  ((((s.pokeBytes (slot + 4) f.payload).poke slot (BitVec.ofNat 8 f.payload.length)).poke (slot + 1)
    ((0 : BitVec 6) ++ BitVec.ofBool gapped ++ BitVec.ofBool f.endMark)).poke (slot + 2)
    (BitVec.ofNat 8 missing)).poke (slot + 3) (f.seq.zeroExtend 8)

/-- Advance rx fill and write its field, with E one past the segment's sequence (R112, R125). -/
def State.advanceFill (s : State) (c : CircuitNo) (seq : Seq) : State :=
  let s1 := s.updCircuit c fun k => { k with rxFill := k.rxFill + 1, expectedSeq := seq + 1 }
  s1.pokeRecord c recRxFill (s1.circuit c).rxFill

/-- An assured segment: taken if it is the one expected and a slot is free; an ACK is owed in every case (R112, R113, R115). -/
def State.takeAssuredSegment (s : State) (c : CircuitNo) (f : Frame) : State :=
  let k := s.circuit c
  if f.seq ≠ k.expectedSeq then s.oweAck c
  else if k.freeSlots = 0 then
    ((s.updCircuit c fun k => { k with discardCount := k.discardCount + 1 }).pokeRecordHalf c recDiscardCount
      (k.discardCount + 1)).oweAck c
  else (((s.writeSlot c f false 0).advanceFill c f.seq).oweAck c).noticeFill c f.endMark

/-- Count a gap, and latch the first-gap marker if it is NONE (R126, step 3; R127). -/
def State.markGap (s : State) (c : CircuitNo) : State :=
  let k := s.circuit c
  let s1 := (s.updCircuit c fun k => { k with gapCount := k.gapCount + 1 }).pokeRecordHalf c recGapCount (k.gapCount + 1)
  match k.firstGap with
  | some _ => s1
  | none => (s1.updCircuit c fun k => { k with firstGap := some k.rxFill }).pokeRecordHalf c recFirstGap
      (firstGapHalf (some k.rxFill))

/-- A plain segment: taken if a slot is free, with a GAP mark if segments are missing; otherwise an overrun (R125, R126). -/
def State.takePlainSegment (s : State) (c : CircuitNo) (f : Frame) : State :=
  let k := s.circuit c
  let missing := distance k.expectedSeq f.seq
  if k.freeSlots = 0 then
    (s.updCircuit c fun k => { k with overrunCount := k.overrunCount + 1 }).pokeRecordHalf c recOverrunCount
      (k.overrunCount + 1)
  else if missing = 0 then
    ((s.writeSlot c f false 0).advanceFill c f.seq).noticeFill c f.endMark
  else
    (((((s.writeSlot c f true missing).markGap c).advanceFill c f.seq).raiseWith (.circuit c .gap)
      (BitVec.ofNat 8 missing)).noticeFill c f.endMark)

/-! ## Acknowledgement and credit on receipt -/

/-- The resend point after an acknowledgement `a` that brings progress from `u` (R104, step 5). -/
def resendAfter (r : Option Seq) (u a n : Seq) : Option Seq :=
  let moved := r.map fun p => if before p a || p == u then a else p
  if moved = some n then none else moved

/-- The send state after an acknowledgement that brings progress (R104, steps 1 to 5). -/
def Circuit.acknowledge (k : Circuit) (a : Seq) (credit : Seq) : Circuit :=
  { k with
    txDone := k.txDone + BitVec.ofNat 8 (distance k.oldestSeq a)
    oldestSeq := a
    dataRetryCount := 0
    dataRetryTimer := if k.nextSeq = a then none else some 0
    limit := a + credit
    resendPoint := resendAfter k.resendPoint k.oldestSeq a k.nextSeq }

/-- The ack `a` brings progress: it lies in the range from U + 1 to N (R104). -/
def Circuit.progress (k : Circuit) (a : Seq) : Bool :=
  decide (1 ≤ distance k.oldestSeq a) && decide (distance k.oldestSeq a ≤ k.outstanding)

/-- The ack and credit of a DATA or an ACK reach the send side of an assured circuit (R104, R105). -/
def State.takeAck (s : State) (c : CircuitNo) (a credit : Seq) : State :=
  let k := s.circuit c
  if k.progress a then
    let s1 := s.updCircuit c fun k => k.acknowledge a credit
    let s2 := (s1.pokeRecord c recTxDone (s1.circuit c).txDone).noticeRelease c k.postedSpan
    (s2.testDrain c).testStall c
  else if a = k.oldestSeq then
    (s.updCircuit c fun k => { k with limit := if before k.limit (a + credit) then a + credit else k.limit }).testStall c
  else s

/-- A DATA handed to the Transfer Engine (R112, R125); the receive side is taken before the send side (log 15). -/
def State.takeData (s : State) (c : CircuitNo) (f : Frame) : State :=
  match (s.circuit c).mode with
  | .assured => (s.takeAssuredSegment c f).takeAck c f.ack f.credit
  | .plain => s.takePlainSegment c f

/-- An ACK handed to the Transfer Engine: a POLL makes ACK owed, ack and credit go to the send side (R117); a plain circuit
discards it whole (R123). -/
def State.takeAckFrame (s : State) (c : CircuitNo) (f : Frame) : State :=
  match (s.circuit c).mode with
  | .assured => (if f.poll then s.oweAck c else s).takeAck c f.ack f.credit
  | .plain => s

/-! ## Host posts, releases and GAP-ACK -/

/-- A fault on a circuit record: the kind is written and FAULT raised (R136, R150, R151). -/
def State.recordFault (s : State) (c : CircuitNo) (kind : FaultKind) : State :=
  ((s.updCircuit c fun k => { k with faultKind := kind }).pokeRecord c recFaultKind kind.code).raise (.circuit c .fault)

/-- A post of `v` is one the port accepts: not beyond the ring, not backward (R150). -/
def Circuit.postFits (k : Circuit) (v : Byte) : Bool :=
  decide (span k.txDone v ≤ k.txSize) && decide (k.postedSpan ≤ span k.txDone v)

/-- Take a value written to a tx post index (R150). The stall is tested afresh at every accepted post (R109), one of the value held
before too, which R150 says changes nothing (DESIGN CHOICE, log 34). -/
def State.takePost (s : State) (c : CircuitNo) (v : Byte) : State :=
  let k := s.circuit c
  if k.state = .free ∨ k.state = .ended then s
  else if k.postFits v then
    let s1 := s.updCircuit c fun k => { k with postedCopy := v }
    if k.state.transfers then s1.testStall c else s1
  else s.recordFault c .postFault

/-- An ACK is owed for the room a release gave: the limit now lies beyond the last announced one by the credit step, or by any
amount after a credit of 0 (R115). -/
def Circuit.creditDue (k : Circuit) (step : Nat) : Bool :=
  before k.lastLimit k.limitNow && (decide (step ≤ distance k.lastLimit k.limitNow) || k.lastCredit == 0)

/-- Take a value written to an rx release index (R151, R116, R123). -/
def State.takeRelease (s : State) (c : CircuitNo) (v : Byte) : State :=
  let k := s.circuit c
  if k.state = .free then s
  else if span k.releaseCopy v ≤ k.filledSpan then
    let s1 := s.updCircuit c fun k => { k with releaseCopy := v }
    if k.mode = .assured ∧ k.state.transfers ∧ (s1.circuit c).creditDue (s.station.creditStep.getD 1) then s1.oweAck c
    else s1
  else s.recordFault c .releaseFault

/-- Take a GAP-ACK write: the first-gap marker becomes NONE (R127, R146). -/
def State.takeGapAck (s : State) (c : CircuitNo) : State :=
  (s.updCircuit c fun k => { k with firstGap := none }).pokeRecordHalf c recFirstGap 0xFFFF

/-! ## Timers -/

/-- The data retry timer of an assured OPEN or DRAINING circuit runs out (R107, R92). -/
def State.dataRetryOut (s : State) (c : CircuitNo) : State :=
  let k := s.circuit c
  if Config.maxDataRetries ≤ k.dataRetryCount + 1 then
    (s.updCircuit c fun k => { k with dataRetryCount := Config.maxDataRetries, dataRetryTimer := none }).lose c .lostRetries
  else
    s.updCircuit c fun k =>
      { k with dataRetryCount := k.dataRetryCount + 1, resendPoint := some k.oldestSeq, dataRetryTimer := some 0 }

/-- The probe timer of a stalled circuit runs out: POLL owed, and the timer restarts while the stall holds (R109, R110). -/
def State.probeOut (s : State) (c : CircuitNo) : State :=
  (s.updCircuit c fun k => { k with pollOwed := true, probeTimer := some 0 }).testStall c

end Sys2Proof.Machine
end

