-- ==== Sys2Proof/Machine/Selector.lean ====
section
/-! DEFINITION. The Transmit Selector (section 3.7): what frame each owed thing is, the choice of one frame at a turn (R50, R51,
R100, R102, R121), and the start of transmission (R14, R52). -/

namespace Sys2Proof.Machine

open Sys2Proof

/-! ## Frames of circuits, of the orphan list and of the Roster -/

/-- The header of a frame from circuit `c` to its peer circuit, with all else 0. -/
def State.circuitHeader (s : State) (c : CircuitNo) : Frame where
  dst := (s.circuit c).peer
  src := s.station.address
  endMark := false
  poll := false
  dstCircuit := (s.circuit c).peerCircuit.getD 0
  srcCircuit := c
  seq := 0
  ack := 0
  credit := 0
  payload := []

/-- The owner of a frame of circuit `c` as it now stands (R54). -/
def State.ownerOf (s : State) (c : CircuitNo) : FrameOwner := .circuit c (s.circuit c).lifetime

/-- Nothing discharged. -/
def Discharged.nothing : Discharged := ⟨none, false, false, false⟩

/-- The kind of frame of a control kind. -/
def ControlKind.frameKind : ControlKind → Kind
  | .answer => .answer
  | .confirm => .confirm
  | .clear => .clear

/-- The initial credit that a CALL or an ANSWER announces: 0 in plain mode (R62, R73). -/
def Circuit.callCredit (k : Circuit) : Seq :=
  match k.mode with
  | .assured => BitVec.ofNat 6 k.initialCredit
  | .plain => 0

/-- The control frame a circuit owes (R73, R82, R85). -/
def State.controlFrame (s : State) (c : CircuitNo) (kind : ControlKind) : FlightFrame where
  use := .control kind
  owner := s.ownerOf c
  kind := kind.frameKind
  header := match kind with
    | .answer =>
      { s.circuitHeader c with seq := (s.circuit c).peerTag.getD 0, credit := (s.circuit c).callCredit }
    | .confirm => s.circuitHeader c
    | .clear => s.circuitHeader c
  payload := .literal []
  discharged := { Discharged.nothing with control := some kind }

/-- The frame of an orphan entry (R74). -/
def State.orphanFrame (s : State) (o : Orphan) : FlightFrame where
  use := .orphan
  owner := .orphanList
  kind := o.reply.kind
  header :=
    { dst := o.peer
      src := s.station.address
      endMark := false
      poll := false
      dstCircuit := o.peerCircuit
      srcCircuit := match o.reply with
        | .refuse _ _ => 0
        | .clear c => c
        | .confirm c => c
      seq := match o.reply with
        | .refuse tag _ => tag
        | .clear _ => 0
        | .confirm _ => 0
      ack := 0
      credit := 0
      payload := [] }
  payload := .literal (match o.reply with
    | .refuse _ reason => [reason.code]
    | .clear _ => []
    | .confirm _ => [])
  discharged := Discharged.nothing

/-- The CALL of a CALLING circuit (R62). -/
def State.callFrame (s : State) (c : CircuitNo) : FlightFrame where
  use := .call
  owner := s.ownerOf c
  kind := .call
  header := { s.circuitHeader c with dstCircuit := 0, seq := (s.circuit c).callTag, credit := (s.circuit c).callCredit }
  payload := .literal [(s.circuit c).service, (s.circuit c).mode.code]
  discharged := { Discharged.nothing with call := true }

/-- A DATA of sequence `seq`, new or resent, whose slot lies at `slot` (R101, R120). -/
def State.dataFrame (s : State) (c : CircuitNo) (seq : Seq) (use : FrameUse) (slot : Nat) : FlightFrame where
  use := use
  owner := s.ownerOf c
  kind := .data
  header :=
    { s.circuitHeader c with
      seq := seq
      ack := match (s.circuit c).mode with
        | .assured => (s.circuit c).expectedSeq
        | .plain => 0
      credit := match (s.circuit c).mode with
        | .assured => BitVec.ofNat 6 (s.circuit c).credit
        | .plain => 0
      endMark := (s.peek (slot + 1)).getLsbD 0 }
  payload := .slot (slot + 4) (s.peek slot)
  discharged := { Discharged.nothing with ack := (s.circuit c).ackOwed }

/-- The standalone ACK of a circuit (R117). -/
def State.ackFrame (s : State) (c : CircuitNo) : FlightFrame where
  use := .ack
  owner := s.ownerOf c
  kind := .ack
  header :=
    { s.circuitHeader c with
      ack := (s.circuit c).expectedSeq
      credit := BitVec.ofNat 6 (s.circuit c).credit
      poll := (s.circuit c).pollOwed }
  payload := .literal []
  discharged := { Discharged.nothing with ack := (s.circuit c).ackOwed, poll := (s.circuit c).pollOwed }

/-- The ROLL of the station (R27). -/
def State.rollFrame (s : State) : FlightFrame where
  use := .roll
  owner := .roster
  kind := .roll
  header :=
    { dst := 31
      src := s.station.address
      endMark := false
      poll := false
      dstCircuit := 0
      srcCircuit := 0
      seq := 0
      ack := 0
      credit := 0
      payload := [] }
  payload := .literal (presentPayload s.roster.presentSet)
  discharged := Discharged.nothing

/-! ## Candidates -/

/-- The control frame that makes a circuit a candidate in rank 1: ANSWER, CONFIRM, or the CLEAR of a circuit in CLEARING
(R50). -/
def Circuit.controlCandidate (k : Circuit) : Option ControlKind :=
  match k.controlOwed with
  | some .clear => if k.state = .clearing then some .clear else none
  | some kind => some kind
  | none => none

/-- Rank 1, circuits: the lowest-numbered control frame owed (R50). -/
def State.rankControl (s : State) : Option FlightFrame :=
  allCircuits.findSome? fun c => (s.circuit c).controlCandidate.map fun kind => s.controlFrame c kind

/-- Rank 1, then the oldest orphan entry (R50, R76). -/
def State.rankOrphan (s : State) : Option FlightFrame :=
  s.orphans.entries.head?.map s.orphanFrame

/-- Rank 2: the lowest-numbered CALLING circuit that owes a CALL (R50, R62). -/
def State.rankCall (s : State) : Option FlightFrame :=
  (s.findCircuit fun _ k => k.state == .calling && k.callOwed).map s.callFrame

/-- The sequence a circuit wants to resend: rank 3 without the slot check (R108). -/
def Circuit.wantsResend (k : Circuit) : Option Seq :=
  if k.mode == .assured && k.state.transfers then k.resendPoint else none

/-- The sequence of the new segment a circuit may send: rank 4 without the slot check (R100 tests 1 to 5, R121 tests 1 to
3). -/
def Circuit.wantsNew (k : Circuit) : Option Seq :=
  let window := match k.mode with
    | .assured => decide (k.outstanding < Config.sendWindow) && before k.nextSeq k.limit
    | .plain => true
  if k.state.transfers && k.hasUnsent && window then some k.nextSeq else none

/-- A slot length fault: the fault kind and FAULT, the loss, and a CLEAR to the orphan list (R95, R102, R159). -/
def State.slotFault (s : State) (c : CircuitNo) : State :=
  let k := s.circuit c
  ((s.recordFault c .slotFault).lose c .slotFault).addOrphan k.peer (k.peerCircuit.getD 0) (.clear c)

/-- The first circuit of a list that wants to send a DATA and whose slot passes the length check; a circuit whose slot fails it
is lost and passed over (R102). -/
def State.scanData (s : State) (wants : Circuit → Option Seq) (use : Seq → FrameUse) : List CircuitNo → State × Option FlightFrame
  | [] => (s, none)
  | c :: rest =>
    match wants (s.circuit c) with
    | none => State.scanData s wants use rest
    | some seq =>
      let slot := (s.circuit c).txSlot seq
      if Config.maxPayload < (s.peek slot).toNat then State.scanData (s.slotFault c) wants use rest
      else (s, some (s.dataFrame c seq (use seq) slot))

/-- The configured circuits in rotation from the data rotation pointer (R51). -/
def State.rotationOrder (s : State) : List CircuitNo :=
  (allCircuits.filter fun c => s.configured c && decide (s.selector.pointer ≤ c.val)) ++
  (allCircuits.filter fun c => s.configured c && decide (c.val < s.selector.pointer))

/-- Rank 5: the lowest-numbered circuit with ACK owed or POLL owed (R50, R117). -/
def State.rankAck (s : State) : Option FlightFrame :=
  (s.findCircuit fun _ k => k.mode == .assured && k.state.transfers && (k.ackOwed || k.pollOwed)).map s.ackFrame

/-- Rank 6: ROLL owed (R50). -/
def State.rankRoll (s : State) : Option FlightFrame :=
  if s.selector.rollOwed then some s.rollFrame else none

/-- Ranks 3 to 6, with the losses the slot checks make on the way (R50, R102). -/
def State.chooseData (s : State) : State × Option FlightFrame :=
  match s.scanData Circuit.wantsResend .resend allCircuits with
  | (s1, some f) => (s1, some f)
  | (s1, none) =>
    match s1.scanData Circuit.wantsNew (fun _ => .newData) s1.rotationOrder with
    | (s2, some f) => (s2, some f)
    | (s2, none) => (s2, s2.rankAck <|> s2.rankRoll)

/-- The one frame the Transmit Selector chooses at a turn: only a ROLL in JOINING, by rank in ACTIVE (R50). -/
def State.choose (s : State) : State × Option FlightFrame :=
  match s.station.state with
  | .joining => (s, s.rankRoll)
  | .active =>
    match s.rankControl <|> s.rankOrphan <|> s.rankCall with
    | some f => (s, some f)
    | none => s.chooseData
  | .reset => (s, none)
  | .config => (s, none)
  | .muted => (s, none)
  | .halted => (s, none)

/-! ## The start of transmission -/

/-- Mark the oldest orphan entry in flight (R52, R76). -/
def markOldest : List Orphan → List Orphan
  | [] => []
  | o :: rest => { o with inFlight := true } :: rest

/-- The owed state that the start of a frame discharges (R52). -/
def State.discharge (s : State) (f : FlightFrame) : State :=
  match f.owner with
  | .roster => s
  | .orphanList => { s with orphans.entries := markOldest s.orphans.entries }
  | .circuit c _ =>
    s.updCircuit c fun k =>
      match f.use with
      | .control _ => { k with controlOwed := none }
      | .call => { k with callOwed := false }
      | .newData => { k with ackOwed := false }
      | .resend _ => { k with ackOwed := false }
      | .ack => { k with ackOwed := false, pollOwed := false }
      | .orphan => k
      | .roll => k

/-- The length of a frame's payload. -/
def FlightFrame.payloadLength (f : FlightFrame) : Nat :=
  match f.payload with
  | .literal bytes => bytes.length
  | .slot _ length => length.toNat

/-- Byte `i` of a frame's header and payload; slot bytes are read from the window as they stand (R14). -/
def State.bodyByte (s : State) (f : FlightFrame) (i : Nat) : Byte :=
  if i < 7 then byteAt (headerBytes f.kind f.header (BitVec.ofNat 8 f.payloadLength)) i
  else
    match f.payload with
    | .literal bytes => byteAt bytes (i - 7)
    | .slot offset _ => s.peek (offset + (i - 7))

/-- A start of transmission: taken in IDLE with transmit enabled, and refused otherwise with nothing changed (R4, R14, R18,
R37, R52). Its start bit is a transition, and in loop test the line is busy from here on (R2, R18). -/
def State.startFrame (s : State) (f : FlightFrame) : State :=
  if s.line.state = .idle ∧ s.line.txEnable = true then
    let b := s.bodyByte f 0
    ({ s.discharge f with
        selector.inFlight := some f
        line.state := .sending
        line.quiet := 0
        line.driven := [b]
        line.txBit := 0
        line.txCheck := checkByte checkStart b
        line.txen := !s.station.loop
        line.txd := s.station.loop } : State).lineBusyToArbiter
  else s

/-- The own position has come (R43): the turn is made once in the round, and offered in JOINING and ACTIVE with the line
IDLE. -/
def State.makeTurn (s : State) : State :=
  let s1 : State := { s with arbiter.turnMade := true }
  if s1.station.state.transmits ∧ s1.line.state = .idle then
    match s1.choose with
    | (s2, some f) => s2.startFrame f
    | (s2, none) => s2
  else s1

end Sys2Proof.Machine
end

