-- ==== Sys2Proof/Machine/Stations.lean ====
section
/-! DEFINITION. Station Control (Chapter 11): the pin reset, the start pass, GO with its validation and ring layout, the entries
to JOINING, ACTIVE, MUTED and HALTED, and RESTART. -/

namespace Sys2Proof.Machine

open Sys2Proof

/-! ## Pin reset and the start pass -/

/-- The Line Interface goes OFF, dropping what is on the line with no report; the quiet measure and the check registers keep their
values (R3, R19, R20). -/
def Line.off (l : Line) : Line :=
  { l with
    state := .off
    rxBuffer := []
    rxCount := 0
    driven := []
    txBit := 0
    rxEnable := false
    txEnable := false
    txen := false
    txd := true }

/-- The RESET pin falls: every block takes its pin-reset values, and the window stays as it is (R19, R173, log 20). -/
def State.pinReset (s : State) : State :=
  { State.atPinReset s.station.address s.station.rate s.station.loop s.window s.bus s.choices s.pending with
    line := s.line.off
    landed := s.landed }

/-- One write of the start pass: a byte or a 16-bit field (R174). -/
inductive FieldWrite where
  | byte (off : Nat) (v : Byte)
  | half (off : Nat) (v : Half)
deriving DecidableEq, Repr

/-- Do one write of the start pass. -/
def State.writeField (s : State) : FieldWrite → State
  | .byte off v => s.poke off v
  | .half off v => s.pokeHalf off v

/-- The fields the start pass writes before its end, in the order of R174: the state field, the Station Block by the table of
R133, and the 16 circuit records. Within the second and the third of these steps the order of the fields, by rising offset, and the
bytes of one write, two from 0x14 on, are a DESIGN CHOICE (log 16). -/
def startPassWrites (address : Address) (rate : BitVec 2) (loop : Bool) : List FieldWrite :=
  [ .byte offStationState 0,
    .half offPartCode 0x4D16,
    .byte offRevision 0x01,
    .byte offHaltCause 0,
    .byte offOwnAddress (address.zeroExtend 8),
    .byte offRate (rate.zeroExtend 8),
    .byte offLoop (BitVec.ofBool loop |>.zeroExtend 8) ] ++
  ((List.range 12).map fun i => .byte (offStartStatus + i) 0) ++
  ((List.range 118).map fun i => .half (offPresentLow + 2 * i) 0) ++
  ((List.range 512).map fun i => .half (0x0100 + 2 * i) 0)

/-- Do a run of start-pass writes. -/
def State.writeFields (s : State) (ws : List FieldWrite) : State :=
  ws.foldl State.writeField s

/-- What is left of the start pass when it has written `n` fields. -/
def State.startPassRest (s : State) (n : Nat) : List FieldWrite :=
  (startPassWrites s.station.address s.station.rate s.station.loop).drop n

/-- The last writes of the start pass: CONFIG, or HALTED with BAD_STRAP when the latched address is 31 (R174). -/
def State.finishStartPass (s : State) : State :=
  if s.station.address = 31 then
    (({ s with station.startPass := none, station.haltCause := .badStrap, station.state := .halted } : State).poke offHaltCause
      HaltCause.badStrap.code).poke offStationState StationState.halted.code
  else
    ({ s with station.startPass := none, station.state := .config } : State).poke offStationState StationState.config.code

/-! ## Changes of station state -/

/-- The last steps of a change of state: the state field, then STATION (R177). -/
def State.enterState (s : State) (st : StationState) : State :=
  (({ s with station.state := st } : State).poke offStationState st.code).raise (.station .station)

/-- Entry to JOINING from CONFIG (R178, R19, R35, R55, R56, R169). -/
def State.enterJoiningFromConfig (s : State) : State :=
  let s1 : State := { s with
    line.state := .settling
    line.quiet := 0
    line.rxBuffer := []
    line.rxCount := 0
    line.rxEnable := true
    line.txEnable := true
    line.txen := false
    roster.silence := 0
    selector.rollOwed := false
    selector.pointer := 0
    selector.inFlight := none }
  let s2 := s1.markPresent s.station.address
  let s3 : State := { s2 with
    arbiter.state := .waiting
    arbiter.base := s.station.address
    arbiter.fullNext := true
    arbiter.mode := .full
    arbiter.roundTimer := 0
    arbiter.collisions := 0
    quality.windowTimer := some 0
    station.joinTimer := some 0 }
  s3.enterState .joining

/-- Entry to JOINING from MUTED (R178, R55, R36). What the circuits owe is unchanged (R50, R56), a CONFIRM that R87 made owed in MUTED
too, against R97's row of this entry, which has none owed (DESIGN CHOICE, log 37). -/
def State.enterJoiningFromMuted (s : State) : State :=
  ({ s.setFullNext with
      line.txEnable := true
      arbiter.collisions := 0
      station.muteTimer := none
      station.joinTimer := some 0 } : State).enterState .joining

/-- Entry to ACTIVE (R178, R55). -/
def State.enterActive (s : State) : State :=
  ({ s with arbiter.collisions := 0, station.joinTimer := none } : State).enterState .active

/-- Entry to MUTED, in the order of R179. -/
def State.enterMutedState (s : State) : State :=
  let s1 : State := { s with line.txEnable := false, line.txen := false }
  let s2 := s1.clearAllOwed
  let s3 : State := { s2 with orphans.entries := [] }
  let s4 := (s3.loseAll .lostMuted).setMutedSeen
  ({ s4 with
      station.muteTimer := some 0
      arbiter.collisions := 0
      roster.silence := 0 } : State).enterState .muted

/-- Entry to HALTED on a duplicate address, in the order of R180. -/
def State.enterHaltedState (s : State) : State :=
  let s1 : State := { s with line := s.line.off, selector.inFlight := none }
  let s2 := s1.clearAllOwed
  let s3 : State := { s2 with orphans.entries := [] }
  let s4 := (s3.loseAll .lostHalted).emptyRoster
  let s5 : State := { s4 with
    arbiter.state := .off
    arbiter.base := s.station.address
    arbiter.fullNext := false
    arbiter.mode := .compressed
    arbiter.roundTimer := 0
    arbiter.collisions := 0
    quality.windowTimer := none }
  let s6 := s5.clearWindowCounts
  (({ s6 with
      station.joinTimer := none
      station.muteTimer := none
      station.haltCause := .duplicateAddress } : State).poke offHaltCause HaltCause.duplicateAddress.code).enterState .halted

/-! ## GO (section 11.2) -/

/-- The ring size of a code: 2^code slots (R175). -/
def ringSize (code : Nat) : Nat := 2 ^ code

/-- The circuits below a count. -/
def circuitsBelow (n : Nat) : List CircuitNo := allCircuits.filter fun c => decide (c.val < n)

/-- The slots that the rings of the circuits below `n` take (R175, check 3). -/
def State.ringTotal (s : State) (n : Nat) : Nat :=
  (circuitsBelow n).foldl (fun sum c => sum + ringSize (s.startTxCode c) + ringSize (s.startRxCode c)) 0

/-- The outcome of the Start Block's checks, in order (R175). -/
def State.checkStartBlock (s : State) : StartStatus :=
  if ¬(1 ≤ s.startCount ∧ s.startCount ≤ 16) then .badCount
  else if ¬((circuitsBelow s.startCount).all fun c =>
      decide (s.startTxCode c ≤ 5) && decide (s.startRxCode c ≤ 5)) = true then .badSize
  else if Config.ringSlots < s.ringTotal s.startCount then .noRoom
  else if ¬(1 ≤ s.startStep ∧ s.startStep ≤ 8) then .badStep
  else if 3 < s.startExponent then .badWindow
  else if ¬s.startLow < s.startHigh then .badThreshold
  else .ok

/-- Write the start status. -/
def State.setStartStatus (s : State) (st : StartStatus) : State :=
  ({ s with station.startStatus := st } : State).poke offStartStatus st.code

/-- Lay out the two rings of one circuit from a base, with the record's fields (R176). -/
def State.layRings (s : State) (c : CircuitNo) (base : Half) (tx rx : Nat) : State :=
  let rxBase := base + BitVec.ofNat 16 (256 * tx)
  ((((s.updCircuit c fun k => { k with txBase := base, txSize := tx, rxBase := rxBase, rxSize := rx }).pokeRecordHalf c recTxBase
    base).pokeRecord c recTxSize (BitVec.ofNat 8 tx)).pokeRecordHalf c recRxBase rxBase).pokeRecord c recRxSize
    (BitVec.ofNat 8 rx)

/-- Lay out the rings of a list of circuits, one after another (R176). The size codes are read in `codes`. -/
def State.layAllRings (s codes : State) (base : Half) : List CircuitNo → State
  | [] => s
  | c :: rest =>
    let tx := ringSize (codes.startTxCode c)
    let rx := ringSize (codes.startRxCode c)
    State.layAllRings (s.layRings c base tx rx) codes (base + BitVec.ofNat 16 (256 * (tx + rx))) rest

/-- The offset of the first ring (R131, R176). -/
def ringArea : Half := 0x1000

/-- A GO that passes: rings, count, status, credit step, quality parameters, and the entry to JOINING (R175, R176, R178). -/
def State.acceptGo (s : State) : State :=
  let n := s.startCount
  let s1 := s.layAllRings s ringArea (circuitsBelow n)
  let s2 := ({ s1 with station.circuitCount := n } : State).poke offCircuitCount (BitVec.ofNat 8 n)
  let s3 := s2.setStartStatus .ok
  ({ s3 with
      station.creditStep := some s.startStep
      quality.params := some ⟨s.startExponent, s.startLow, s.startHigh⟩ } : State).enterJoiningFromConfig

/-- A GO taken in CONFIG (R175). -/
def State.takeGo (s : State) : State :=
  match s.checkStartBlock with
  | .ok => s.acceptGo
  | st => s.setStartStatus st

/-! ## RESTART (section 11.7) -/

/-- A circuit after a restart (R78, R97, R119): FREE, timers stopped, nothing owed, the partition given up; call tag, lifetime and
the rest are kept. -/
def Circuit.restarted (k : Circuit) : Circuit :=
  { k with
    state := .free
    inFlight := none
    retryTimer := none
    sendCount := 0
    callOwed := false
    controlOwed := none
    ackOwed := false
    pollOwed := false
    dataRetryTimer := none
    probeTimer := none
    rxIdleTimer := none
    txBase := 0
    txSize := 0
    rxBase := 0
    rxSize := 0 }

/-- Write the state field of every configured circuit as FREE (R78, R136). -/
def State.showAllFree (s : State) : State :=
  s.eachCircuit fun c s => if s.configured c then s.pokeRecord c recState CircuitState.free.code else s

/-- The Station Block's fields that a restart writes, but for state and halt cause (R35, R76, R167, R172, R181). -/
def restartWrites : List FieldWrite :=
  [ .byte offCircuitCount 0,
    .byte offStartStatus 0,
    .byte offRequestTake 0,
    .byte offAttentionFill 0,
    .byte offAttentionSequence 0,
    .byte offPendingFlag 0,
    .byte offPendingCount 0,
    .byte offLevel 0 ] ++
  ((List.range 15).map fun i => .half (offPresentLow + 2 * i) 0)

/-- The station state and halt cause a restart leaves (R181). -/
def restartState (address : Address) : StationState := if address = 31 then .halted else .config

/-- The halt cause a restart leaves (R181). -/
def restartCause (address : Address) : HaltCause := if address = 31 then .badStrap else .noCause

/-- A RESTART taken: every block takes its restart values (R181). -/
def State.takeRestart (s : State) : State :=
  let a := s.station.address
  let s1 := (s.showAllFree).writeFields restartWrites
  let s2 : State := { s1 with
    station.state := restartState a
    station.haltCause := restartCause a
    station.startStatus := .noStatus
    station.circuitCount := 0
    station.creditStep := none
    station.joinTimer := none
    station.muteTimer := none
    line := s1.line.off
    arbiter := Arbiter.reset (resetBase a)
    selector := Selector.reset
    roster := Roster.reset
    orphans := Orphans.reset
    circuits := s1.circuits.map Circuit.restarted
    requests := Requests.reset
    notice := Notice.reset s1.notice.irqEnable
    quality := Quality.reset }
  (s2.poke offHaltCause (restartCause a).code).poke offStationState (restartState a).code

/-! ## CONTROL (R145) -/

/-- CONTROL is written back to 0 (R145), unless a later write of it stands in memory already: the field then keeps that value until
the later write is taken. -/
def State.writeBackControl (s : State) : State :=
  if (s.writesAhead.take s.landed).any touchesControl then s else s.poke offControl 0

/-- A value written to CONTROL is taken, with the later writes that have reached memory before: GO in CONFIG, RESTART in any state but
RESET, and the write-back in any state but RESET. -/
def State.takeControl (s : State) (v : Byte) : State :=
  if s.station.state = .reset then s
  else
    let s1 := s.landLater
    let s2 :=
      if v = 0x5A ∧ s1.station.state = .config then s1.takeGo
      else if v = 0xA5 then s1.takeRestart
      else s1
    s2.writeBackControl

end Sys2Proof.Machine
end

