-- ==== Sys2Proof/Machine/Host.lean ====
section
/-! DEFINITION. The Host Window Port on the host's accesses (sections 8.1 and 8.8): watched writes, plain writes and the one
watched read. -/

namespace Sys2Proof.Machine

open Sys2Proof

/-- The watched fields of a circuit record are taken below the configured count, from JOINING on (R146). -/
def State.watchesCircuit (s : State) (c : CircuitNo) : Bool := s.configured c && s.station.state.serves

/-- A value written to a watched field is taken by its block (R144 to R146); in RESET the station's fields are plain memory. So an
interrupt enable that the host writes in RESET after the start pass has written it stands in the window while the latched enable
stays clear until the next write (R134, R163: DESIGN CHOICE, log 33). -/
def State.takeField (s : State) (w : WatchedField) (v : Byte) : State :=
  match w with
  | .control => s.takeControl v
  | .interruptEnable => if s.station.state = .reset then s else s.takeInterruptEnable v
  | .requestPost => if s.station.state = .reset then s else s.takeRequestPost v
  | .attentionTake => if s.station.state = .reset then s else s.takeAttention v
  | .txPost c => if s.watchesCircuit c then s.takePost c v else s
  | .rxRelease c => if s.watchesCircuit c then s.takeRelease c v else s
  | .gapAck c => if s.watchesCircuit c then s.takeGapAck c else s

/-- The host writes one watched field: the window holds the value, and the block takes it (R144). -/
def State.writeWatched (s : State) (w : WatchedField) (v : Byte) : State := (s.arrive [(w.offset, v)]).takeField w v

/-- What a write of one byte is taken as: nothing, if the lane is off or the field is not watched. -/
def State.takeLane (s : State) (on : Bool) (off : Nat) (v : Byte) : State :=
  match on, watchedAt off with
  | true, some w => s.takeField w v
  | _, _ => s

/-- Both lanes of the write are watched (R144). -/
def bothWatched (be1 be0 : Bool) (off : Nat) : Bool :=
  be1 && be0 && (watchedAt off).isSome && (watchedAt (off + 1)).isSome

/-- A host write of a word under its byte enables (R129, R130): memory first, then each watched field; of two, either may be
taken first (R144, log 12). -/
def State.hostWrite (s : State) (word : BitVec 15) (be1 be0 : Bool) (data : Half) : State :=
  let off := 2 * word.toNat
  let s1 := s.arrive (wordBytes word be1 be0 data)
  if bothWatched be1 be0 off then
    let s2 : State := { s1 with choices := s1.choices + 1 }
    if Config.lowByteFirst s1.choices then
      (s2.takeLane be0 off (lowByte data)).takeLane be1 (off + 1) (highByte data)
    else (s2.takeLane be1 (off + 1) (highByte data)).takeLane be0 off (lowByte data)
  else (s1.takeLane be0 off (lowByte data)).takeLane be1 (off + 1) (highByte data)

/-- What a lane drives. -/
def lane (on : Bool) (v : Byte) : Option Byte := if on then some v else none

/-- A host read of the sticky quality flags (R147): the low lane returns the flags and clears them, the high lane returns 0; in
RESET the field is plain memory (log 17). -/
def State.stickyRead (s : State) (be1 be0 : Bool) : State :=
  if s.station.state = .reset then
    { s with bus := ⟨lane be1 (s.peek (offSticky + 1)), lane be0 (s.peek offSticky)⟩ }
  else
    let s1 : State := { s with bus := ⟨lane be1 0, lane be0 s.quality.stickyByte⟩ }
    if be0 then s1.clearSticky else s1

end Sys2Proof.Machine
end

