-- ==== Sys2Proof/Machine/Calls.lean ====
section
/-! DEFINITION. The Circuit Table on received frames: matching (R65), stray frames (R77), answers and refusals of a call (R66,
R67), incoming calls (R69 to R72), and clearing from the peer (R84 to R87). -/

namespace Sys2Proof.Machine

open Sys2Proof

/-- The reply a stray frame draws (R77). -/
def strayReply (k : Kind) (d : CircuitNo) : Option Reply :=
  match k with
  | .data => some (.clear d)
  | .ack => some (.clear d)
  | .answer => some (.clear d)
  | .clear => some (.confirm d)
  | .refuse => none
  | .confirm => none
  | .call => none
  | .roll => none

/-- A stray frame (R77). -/
def State.strayFrame (s : State) (k : Kind) (f : Frame) : State :=
  match strayReply k f.dstCircuit with
  | some r => s.addOrphan f.src f.srcCircuit r
  | none => s

/-- The circuit is live with this peer station and peer circuit (R70). -/
def Circuit.holdsPair (k : Circuit) (peer : Address) (peerCircuit : CircuitNo) : Bool :=
  k.state.live && k.peer == peer && k.peerCircuit == some peerCircuit

/-- Some other circuit that an ANSWER shows to be stale is lost (R66, step 1; R94). -/
def State.loseStaleOther (s : State) (c : CircuitNo) (f : Frame) : State :=
  match s.findCircuit fun i k => i != c && k.holdsPair f.src f.srcCircuit with
  | some i => s.lose i .lostStale
  | none => s

/-- The initial send limit on an assured circuit; the credit of a plain call is ignored (R66, R71, R99). -/
def Circuit.withInitialLimit (k : Circuit) (credit : Seq) : Circuit :=
  match k.mode with
  | .assured => { k with limit := credit }
  | .plain => k

/-- An ANSWER with the circuit's call tag is accepted (R66). -/
def State.acceptAnswer (s : State) (c : CircuitNo) (f : Frame) : State :=
  let s1 := (s.loseStaleOther c f).updCircuit c fun k =>
    { k.withInitialLimit f.credit with
      peerCircuit := some f.srcCircuit
      retryTimer := none
      sendCount := 0
      callOwed := false }
  (s1.pokeRecord c recPeerCircuit (circuitByte f.srcCircuit)).completeInto c .connected .opened

/-- The outcome a REFUSE's reason gives the OPEN (R67). -/
def refuseOutcome (f : Frame) : CompletionOutcome :=
  if byteAt f.payload 0 = 2 then .refusedMode else .refusedNoListener

/-- A frame from its peer that matches a CALLING circuit (R65 to R68). -/
def State.callingFrame (s : State) (k : Kind) (c : CircuitNo) (f : Frame) : State :=
  match k with
  | .answer => if f.seq = (s.circuit c).callTag then s.acceptAnswer c f else s.strayFrame k f
  | .refuse => if f.seq = (s.circuit c).callTag then s.freeWith c (refuseOutcome f) else s
  | _ => s

/-- A CLEAR that matches a DRAINING or CLEARING circuit: CONFIRM is owed, and going FREE moves it to the orphan list (R86). -/
def State.clearedByPeer (s : State) (c : CircuitNo) (outcome : CompletionOutcome) : State :=
  (s.oweControl c .confirm).freeWith c outcome

/-- A frame that matches an OPEN circuit (R65). -/
def State.openFrame (s : State) (k : Kind) (c : CircuitNo) (f : Frame) : State :=
  match k with
  | .data => s.takeData c f
  | .ack => s.takeAckFrame c f
  | .clear => s.enterEnded c .peerCleared true
  | _ => s

/-- A frame that matches a DRAINING circuit (R65, R86). -/
def State.drainingFrame (s : State) (k : Kind) (c : CircuitNo) (f : Frame) : State :=
  match k with
  | .data => s.takeData c f
  | .ack => s.takeAckFrame c f
  | .clear => s.clearedByPeer c .peerCleared
  | _ => s

/-- A frame that matches a CLEARING circuit (R65, R84, R86). -/
def State.clearingFrame (s : State) (k : Kind) (c : CircuitNo) : State :=
  match k with
  | .clear => s.clearedByPeer c .done
  | .confirm => s.freeWith c .done
  | _ => s

/-- A frame that matches an ENDED circuit (R68, R87). -/
def State.endedFrame (s : State) (k : Kind) (c : CircuitNo) (f : Frame) : State :=
  match k with
  | .data => if (s.circuit c).endCause = .peerCleared then s else s.addOrphan f.src f.srcCircuit (.clear c)
  | .clear => if s.station.state.receives then s.oweControl c .confirm else s
  | _ => s

/-- The context of an OPEN, DRAINING, CLEARING or ENDED circuit matches the frame (R65). -/
def Circuit.matchesPeer (k : Circuit) (f : Frame) : Bool :=
  k.peer == f.src && k.peerCircuit == some f.srcCircuit

/-- A good frame other than CALL and ROLL, addressed to this station (R65). -/
def State.takeCircuitFrame (s : State) (k : Kind) (f : Frame) : State :=
  let c := f.dstCircuit
  if !s.configured c then s.strayFrame k f
  else
    match (s.circuit c).state with
    | .free => s.strayFrame k f
    | .listening => s.strayFrame k f
    | .calling => if (s.circuit c).peer = f.src then s.callingFrame k c f else s.strayFrame k f
    | .opened => if (s.circuit c).matchesPeer f then s.openFrame k c f else s.strayFrame k f
    | .draining => if (s.circuit c).matchesPeer f then s.drainingFrame k c f else s.strayFrame k f
    | .clearing => if (s.circuit c).matchesPeer f then s.clearingFrame k c else s.strayFrame k f
    | .ended => if (s.circuit c).matchesPeer f then s.endedFrame k c f else s.strayFrame k f

/-! ## Incoming calls (section 4.5) -/

/-- The service a CALL asks for. -/
def callService (f : Frame) : Byte := byteAt f.payload 0

/-- The mode a CALL asks for. -/
def callMode (f : Frame) : CircuitMode := if byteAt f.payload 1 = 1 then .plain else .assured

/-- The circuit is a candidate for a CALL: LISTENING, its service, and its filter admits the source (R71). -/
def Circuit.listensFor (k : Circuit) (f : Frame) : Bool :=
  k.state == .listening && k.service == callService f && (k.peer == f.src || k.peer == 31)

/-- A listener takes the call (R71). -/
def State.acceptCall (s : State) (c : CircuitNo) (f : Frame) : State :=
  let s1 := s.updCircuit c fun k =>
    { k.withInitialLimit f.credit with
      peer := f.src
      peerCircuit := some f.srcCircuit
      peerTag := some f.seq }
  ((((s1.pokeRecord c recPeer (f.src.zeroExtend 8)).pokeRecord c recPeerCircuit (circuitByte f.srcCircuit)).pokeRecord c
    recPeerTag (f.seq.zeroExtend 8)).oweControl c .answer).completeInto c .connected .opened

/-- The listener match, and the refusal when it finds no circuit (R71, R72). -/
def State.matchListener (s : State) (f : Frame) : State :=
  match s.findCircuit fun _ k => k.listensFor f && k.mode == callMode f with
  | some c => s.acceptCall c f
  | none =>
    let reason := match s.findCircuit fun _ k => k.listensFor f with
      | some _ => RefuseReason.modeMismatch
      | none => RefuseReason.noListener
    s.addOrphan f.src f.srcCircuit (.refuse f.seq reason)

/-- A good CALL in ACTIVE: the stale check, then the listener match (R70, R71). -/
def State.answerCall (s : State) (f : Frame) : State :=
  match s.findCircuit fun _ k => k.holdsPair f.src f.srcCircuit with
  | none => s.matchListener f
  | some c =>
    if (s.circuit c).peerTag = some f.seq then
      if (s.circuit c).state = .opened then s.oweControl c .answer else s
    else (s.lose c .lostStale).matchListener f

/-- A good CALL addressed to this station (R69). Outside loop test the Circuit Table takes no CALL from the own address
(R61). -/
def State.takeCall (s : State) (f : Frame) : State :=
  if s.station.state ≠ .active ∨ (s.station.loop = false ∧ f.src = s.station.address) then s else s.answerCall f

/-- A good frame reaches the Circuit Table if it is addressed to this station and is no ROLL (R12). -/
def State.tableFrame (s : State) (k : Kind) (f : Frame) : State :=
  if f.dst ≠ s.station.address then s
  else
    match k with
    | .roll => s
    | .call => s.takeCall f
    | _ => s.takeCircuitFrame k f

end Sys2Proof.Machine
end

