-- ==== Sys2Proof/Machine/Reports.lean ====
section
/-! DEFINITION. The end of an own transmission: the sent report and the collided report (R16), what each does to the Transmit
Selector and the frame's owner (R53, R54), and the looped copy of loop test (R18). -/

namespace Sys2Proof.Machine

open Sys2Proof

/-! ## The bytes driven -/

/-- How many bytes of header and payload the frame has. -/
def FlightFrame.bodyLength (f : FlightFrame) : Nat := 7 + f.payloadLength

/-- The whole frame as it has been driven by the end of its end mark: the bytes already driven as they went out, the rest as
they fall due, and the check over all of them (R10, R14, log 22). -/
def State.frameOnLine (s : State) (f : FlightFrame) : List Byte :=
  let sent := s.line.driven.take f.bodyLength
  withCheck (sent ++ ((List.range f.bodyLength).drop sent.length).map (s.bodyByte f))

/-! ## The owner's part of a sent report -/

/-- The data rotation pointer after the sent report of a new DATA of circuit `c` (R51). -/
def State.pointerAfter (s : State) (c : CircuitNo) : Nat :=
  if c.val + 1 < s.station.circuitCount then c.val + 1 else 0

/-- Record the ack and credit that a sent DATA or ACK carried (R114). -/
def Circuit.announced (k : Circuit) (f : FlightFrame) : Circuit :=
  { k with lastCredit := f.header.credit.toNat, lastLimit := f.header.ack + f.header.credit }

/-- A CALL or a CLEAR was sent: one more send, and the retry timer starts (R63, R82). -/
def Circuit.sentOnce (k : Circuit) : Circuit :=
  { k with sendCount := k.sendCount + 1, retryTimer := some 0 }

/-- A new assured DATA was sent: N advances and the data retry timer starts if it is stopped (R103, R106, R114). -/
def Circuit.newDataSent (k : Circuit) (f : FlightFrame) : Circuit :=
  { k.announced f with
    nextSeq := k.nextSeq + 1
    dataRetryTimer := match k.dataRetryTimer with
      | none => some 0
      | some t => some t }

/-- A resend of sequence `q` was sent: R advances if it still stands there, and becomes none at N (R108, R114). R is compared by its
value: an expiry while U itself is resent sets R to the sequence on the line, and R then advances past it (DESIGN CHOICE, log 32). -/
def Circuit.resendSent (k : Circuit) (f : FlightFrame) (q : Seq) : Circuit :=
  { k.announced f with
    resendPoint :=
      if k.resendPoint = some q then (if q + 1 = k.nextSeq then none else some (q + 1)) else k.resendPoint }

/-- A plain DATA was sent: N and tx done advance, the field is written, SPACE_OUT and the drain are tested (R122). -/
def State.plainDataSent (s : State) (c : CircuitNo) : State :=
  let before := (s.circuit c).postedSpan
  let s1 := s.updCircuit c fun k => { k with nextSeq := k.nextSeq + 1, txDone := k.txDone + 1 }
  ((s1.pokeRecord c recTxDone (s1.circuit c).txDone).noticeRelease c before).testDrain c

/-- The sent report reaches the circuit it was built for, in its current state (R54, R63, R82, R103, R108, R114, R122). -/
def State.circuitSent (s : State) (c : CircuitNo) (f : FlightFrame) : State :=
  let k := s.circuit c
  match f.use with
  | .control .clear => if k.state = .clearing then s.updCircuit c Circuit.sentOnce else s
  | .control .answer => s
  | .control .confirm => s
  | .call => if k.state = .calling then s.updCircuit c Circuit.sentOnce else s
  | .newData =>
    if k.state.transfers then
      match k.mode with
      | .assured => (s.updCircuit c fun k => k.newDataSent f).testStall c
      | .plain => s.plainDataSent c
    else s
  | .resend q => if k.state.transfers then s.updCircuit c fun k => k.resendSent f q else s
  | .ack => if k.state.transfers then s.updCircuit c fun k => k.announced f else s
  | .orphan => s
  | .roll => s

/-- The circuit is FREE or in a later lifetime than the one the frame was built for (R54). -/
def State.pastLifetime (s : State) (c : CircuitNo) (lifetime : Nat) : Bool :=
  (s.circuit c).state == .free || (s.circuit c).lifetime != lifetime

/-- The sent report at the Transmit Selector and the owner (R53, R54, R76); the pointer moves at the report of a new DATA
whatever has become of its circuit (R51, log 18). -/
def State.ownerSent (s : State) (f : FlightFrame) : State :=
  match f.owner with
  | .roster => s
  | .orphanList => { s with orphans.entries := s.orphans.entries.filter fun o => !o.inFlight }
  | .circuit c lifetime =>
    let s1 : State := if f.use = .newData then { s with selector.pointer := s.pointerAfter c } else s
    if s1.pastLifetime c lifetime then s1 else s1.circuitSent c f

/-! ## Sent -/

/-- The receive path takes the looped copy of an own frame (R18, R34): counted, and to the Circuit Table if its kind and
destination say so; neither the Turn Arbiter nor the Roster acts on it. -/
def State.loopedCopy (s : State) (bytes : List Byte) : State :=
  let s1 : State := { s with
    line.rxBuffer := bytes.take Config.frameRoom
    line.rxCount := bytes.length
    line.rxCheck := checkOf (bytes.take (bytes.length - 2)) }
  match classify false bytes with
  | .good k f => s1.countGood.tableFrame k f
  | .malformed _ => s1.countMalformed
  | .damaged => s1.countDamaged

/-- An own frame has ended: the driver is released, no frame is in progress, and the quiet measure stands at `quiet`. -/
def Line.afterOwnFrame (l : Line) (quiet : Nat) : Line :=
  { l with state := .idle, quiet := quiet, driven := [], txBit := 0, txen := false, txd := true }

/-- The quiet measure at the end of an own frame's end mark: the release of the driver is a transition (R1, R2, log 35); in loop test
the line is quiet from here on (R18). -/
def State.quietAfterSent (s : State) : Nat := if s.station.loop then Config.quietTime else 0

/-- The quiet measure when the line activity of a collided frame ends: quiet has been reached, or an end mark decoded, whose end is a
transition (R15, log 35). -/
def State.quietAfterCollision (s : State) : Nat := if Config.quietTime ≤ s.line.quiet then Config.quietTime else 0

/-- The sent report reaches the Quality Monitor, the Roster, the owner, Station Control for a ROLL in JOINING, and the Turn
Arbiter (R16, R31, R48, R53). -/
def State.reportSent (s : State) (f : FlightFrame) : State :=
  let s1 : State := { s with
    line := s.line.afterOwnFrame s.quietAfterSent
    selector.inFlight := none
    arbiter.collisions := 0 }
  let s2 := (s1.countSent.ownFrameSent).ownerSent f
  let s3 := if f.use = .roll ∧ s2.station.state = .joining then s2.enterActive else s2
  s3.frameEnd (some s3.station.address)

/-- The end mark of the own frame has been driven with no mismatch (R16), and in loop test its copy comes back (R18). -/
def State.frameSent (s : State) : State :=
  match s.line.state, s.selector.inFlight with
  | .sending, some f =>
    let bytes := s.frameOnLine f
    let s1 := s.reportSent f
    if s.station.loop then s1.loopedCopy bytes else s1
  | _, _ => s

/-! ## Collided -/

/-- The read-back of a bit differs from the bit driven (R15); the watch does not run in loop test (R18). The mismatch and the release
are taken as a transition, from which the quiet measure starts (DESIGN CHOICE, log 35). -/
def State.collisionDetected (s : State) : State :=
  if s.line.state = .sending ∧ s.station.loop = false then
    { s with line.state := .stopped, line.quiet := 0, line.txen := false, line.txd := true }
  else s

/-- The discharged flags are set again; a control frame owed since the start stands (R53, R54, R57). -/
def Circuit.restored (k : Circuit) (d : Discharged) : Circuit :=
  { k with
    controlOwed := match k.controlOwed with
      | some kind => some kind
      | none => d.control
    callOwed := k.callOwed || d.call
    ackOwed := k.ackOwed || d.ack
    pollOwed := k.pollOwed || d.poll }

/-- The collided report at the Transmit Selector and the owner (R53, R54, R76). -/
def State.ownerCollided (s : State) (f : FlightFrame) : State :=
  match f.owner with
  | .roster => s
  | .orphanList => { s with orphans.entries := s.orphans.entries.map fun o => { o with inFlight := false } }
  | .circuit c lifetime =>
    if s.pastLifetime c lifetime then s else s.updCircuit c fun k => k.restored f.discharged

/-- A count of 16 mutes an ACTIVE station (R49). -/
def State.muteIfDue (s : State) : State :=
  if s.station.state = .active ∧ s.arbiter.collisions = Config.muteCollisions then s.enterMutedState else s

/-- The line activity of the collided own frame ends (R16, R45, R48, R49, R53, R54). -/
def State.frameCollided (s : State) : State :=
  match s.line.state, s.selector.inFlight with
  | .stopped, some f =>
    let s1 : State := { s with
      line := s.line.afterOwnFrame s.quietAfterCollision
      selector.inFlight := none
      arbiter.collisions := min Config.muteCollisions (s.arbiter.collisions + 1) }
    (((s1.countCollision.ownerCollided f).setFullNext).frameEnd none).muteIfDue
  | _, _ => s

end Sys2Proof.Machine
end

