-- ==== Sys2Proof/Machine/StationCommands.lean ====
section
/-! DEFINITION. The meanings of the commands of Station Control's pins and of CONTROL (Chapter 11, R145). -/

namespace Sys2Proof.Machine

open Sys2Proof

/-- What a command answers: the MT16 always goes on (log 28). -/
abbrev Answer := Host.Outcome State Fault Refusal

/-- RESET_PIN_LOW (R173). -/
def execResetPinLow (s : State) : Answer := .next s.pinReset

/-- The straps are latched and the start pass begins (R173, R55). -/
def State.latchStraps (s : State) (address : Address) (rate : BitVec 2) (loop : Bool) : State :=
  { s with
    station.address := address
    station.rate := rate
    station.loop := loop
    station.resetLow := false
    station.startPass := some 0
    arbiter.base := resetBase address }

/-- RESET_RELEASE (R173): the pin rises, which it can do only from low, in RESET. -/
def execResetRelease (address : Address) (rate : BitVec 2) (loop : Bool) (s : State) : Answer :=
  .next (if s.station.resetLow ∧ s.station.state = .reset then s.latchStraps address rate loop else s)

/-- START_PASS_END (R174): what is left of the pass is written, and the station enters CONFIG or HALTED. -/
def execStartPassEnd (s : State) : Answer :=
  .next (match s.station.state, s.station.startPass with
    | .reset, some n => (s.writeFields (s.startPassRest n)).finishStartPass
    | _, _ => s)

/-- GO (R145, R175): CONTROL is written as 0x5A. -/
def execGo (s : State) : Answer := .next (s.writeWatched .control 0x5A)

/-- RESTART (R145, R181): CONTROL is written as 0xA5. -/
def execRestart (s : State) : Answer := .next (s.writeWatched .control 0xA5)

/-- CONTROL_OTHER_VALUE (R145). -/
def execControlOtherValue (v : Byte) (s : State) : Answer := .next (s.writeWatched .control v)

/-- ENTER_MUTED (R49, R179), if the count of 16 still stands in ACTIVE (log 10). -/
def execEnterMuted (s : State) : Answer := .next s.muteIfDue

end Sys2Proof.Machine
end

