-- ==== Sys2Proof/Machine/HostCommands.lean ====
section
/-! DEFINITION. The meanings of the host's watched writes, plain writes and the watched read (sections 8.8, 9.5, 9.6), and of the
pending set's drain. -/

namespace Sys2Proof.Machine

open Sys2Proof

/-- REQUEST_POST_INDEX_WRITE (R153). -/
def execRequestPostIndexWrite (v : Byte) (s : State) : Answer := .next (s.writeWatched .requestPost v)

/-- ATTENTION_TAKE_INDEX_WRITE (R162). -/
def execAttentionTakeIndexWrite (v : Byte) (s : State) : Answer := .next (s.writeWatched .attentionTake v)

/-- INTERRUPT_ENABLE_WRITE (R163). -/
def execInterruptEnableWrite (v : Byte) (s : State) : Answer := .next (s.writeWatched .interruptEnable v)

/-- PENDING_SET_DRAIN (R161): pending pairs go into the room there is; a take write has already done so (log 10). -/
def execPendingSetDrain (s : State) : Answer := .next s.drainWaiting

/-- TX_POST_INDEX_WRITE (R150). -/
def execTxPostIndexWrite (c : CircuitNo) (v : Byte) (s : State) : Answer := .next (s.writeWatched (.txPost c) v)

/-- RX_RELEASE_INDEX_WRITE (R151). -/
def execRxReleaseIndexWrite (c : CircuitNo) (v : Byte) (s : State) : Answer := .next (s.writeWatched (.rxRelease c) v)

/-- GAP_ACK (R127, R146). -/
def execGapAck (c : CircuitNo) (v : Byte) (s : State) : Answer := .next (s.writeWatched (.gapAck c) v)

/-- STICKY_QUALITY_FLAGS_READ (R147). -/
def execStickyQualityFlagsRead (be1 be0 : Bool) (s : State) : Answer := .next (s.stickyRead be1 be0)

/-- HOST_WRITE (R129, R130, R144). -/
def execHostWrite (word : BitVec 15) (be1 be0 : Bool) (data : Half) (s : State) : Answer :=
  .next (s.hostWrite word be1 be0 data)

end Sys2Proof.Machine
end

