-- ==== Sys2Proof/Machine/RequestCommands.lean ====
section
/-! DEFINITION. The meanings of the takings of the Request Unit (R154), one for each kind of request, and of a drain's completion. -/

namespace Sys2Proof.Machine

open Sys2Proof

/-- OPEN (R60, R154). -/
def execOpenRequest (s : State) : Answer := .next (s.takeIf (some .openR))

/-- LISTEN (R61, R154). -/
def execListenRequest (s : State) : Answer := .next (s.takeIf (some .listenR))

/-- CLOSE (R80, R89, R154). -/
def execCloseRequest (s : State) : Answer := .next (s.takeIf (some .closeR))

/-- ABORT (R90, R154). -/
def execAbortRequest (s : State) : Answer := .next (s.takeIf (some .abortR))

/-- BAD_KIND_REQUEST (R155, R156). -/
def execBadKindRequest (s : State) : Answer := .next (s.takeIf none)

/-- DRAIN_COMPLETE (R81): a DRAINING circuit whose tx done stands at the drain target enters CLEARING (log 10). -/
def execDrainComplete (c : CircuitNo) (s : State) : Answer := .next (s.testDrain c)

end Sys2Proof.Machine
end

