-- ==== Sys2Proof/Machine/Receive.lean ====
section
/-! DEFINITION. The receive side of the trunk: the line settling, a peer's start bit, and the end of a received frame with what it
feeds (R3, R4, R6, R7, R8, R12, R32, R33). -/

namespace Sys2Proof.Machine

open Sys2Proof

/-- The line is quiet in SETTLING: the Line Interface goes to IDLE and a round begins (R3, R37). The measure, which starts from 0 at
the entry to SETTLING (R19), has come to 20 bt; in loop test too (R18). -/
def State.lineSettled (s : State) : State :=
  if s.line.state = .settling ∧ Config.quietTime ≤ s.line.quiet then
    let s1 : State := { s with line.state := .idle }
    if s1.arbiter.state = .waiting then s1.beginRound else s1
  else s

/-- A falling edge on RXD: it restarts the quiet measure wherever receive is enabled (R2, R3), and in IDLE a received frame begins
(R4, R37); in loop test RXD is ignored (R18). -/
def State.lineBusy (s : State) : State :=
  if s.station.loop then s
  else
    match s.line.state with
    | .idle =>
      ({ s with
          line.state := .hearing
          line.quiet := 0
          line.rxBuffer := []
          line.rxCount := 0
          line.rxCheck := checkStart } : State).lineBusyToArbiter
    | .off => s
    | .settling => { s with line.quiet := 0 }
    | .hearing => { s with line.quiet := 0 }
    | .sending => { s with line.quiet := 0 }
    | .stopped => { s with line.quiet := 0 }

/-- The frame's source shows a second station at the own address (R32). -/
def State.duplicate (s : State) (source : Address) : Bool :=
  source == s.station.address && !s.station.loop && s.station.state.receives

/-- A damaged frame ends: it is counted, full-next is set, and B is kept (R12, R40, R45, R168). -/
def State.damagedEnd (s : State) : State := (s.countDamaged.setFullNext).frameEnd none

/-- A malformed frame ends: its source is trusted, its content is not (R8, R12, R22, R23, R32, R40, R168). -/
def State.malformedEnd (s : State) (source : Address) : State :=
  let s1 := s.countMalformed
  if s1.duplicate source then (s1.frameEnd (some source)).enterHaltedState
  else (s1.rosterSource source).frameEnd (some source)

/-- The frame that reveals a duplicate address reaches the Circuit Table before or after the entry to HALTED: a free value
(R33, log 13). -/
def State.duplicateEnd (s : State) (k : Kind) (f : Frame) : State :=
  let s1 : State := { (s.frameEnd (some f.src)) with choices := s.choices + 1 }
  if Config.tableBeforeHalt s.choices then (s1.tableFrame k f).enterHaltedState else s1.enterHaltedState.tableFrame k f

/-- A good frame ends: the Roster takes its source and a ROLL's present set, then the Circuit Table the frame, and the Turn
Arbiter the frame end (R12, R30, R38, R65, R168). -/
def State.goodEnd (s : State) (k : Kind) (f : Frame) : State :=
  let s1 := s.countGood
  if s1.duplicate f.src then s1.duplicateEnd k f
  else
    let s2 := s1.rosterSource f.src
    let s3 := if k = .roll then s2.examineRoll f else s2
    (s3.tableFrame k f).frameEnd (some f.src)

/-- A frame ends in HEARING after these bytes (R6): it is stored, classified and handed on, and the Line Interface returns to
IDLE. A truncated frame leaves the line quiet; the end of an end mark is a transition (R1, R2, log 35). The check register is left at
the check over all bytes but the last two; of a frame that fails tests 1 to 3 of R7, for which the checker does not run (R11), that is
a DESIGN CHOICE (log 36). -/
def State.hear (s : State) (truncated : Bool) (bytes : List Byte) : State :=
  if s.line.state = .hearing then
    let s1 : State := { s with
      line.state := .idle
      line.quiet := if truncated then Config.quietTime else 0
      line.rxBuffer := bytes.take Config.frameRoom
      line.rxCount := bytes.length
      line.rxCheck := checkOf (bytes.take (bytes.length - 2)) }
    match classify truncated bytes with
    | .damaged => s1.damagedEnd
    | .malformed source => s1.malformedEnd source
    | .good k f => s1.goodEnd k f
  else s

end Sys2Proof.Machine
end

