-- ==== Sys2Proof/Machine/TimerCommands.lean ====
section
/-! DEFINITION. The meanings of the expiries of the MT16's timers. An expiry acts while its timer stands at its limit: one that was
stopped or restarted after it got there has none (log 4). -/

namespace Sys2Proof.Machine

open Sys2Proof

/-- The address is a present peer of a station that listens (R21), and its age has come to T_absent (R24). -/
def State.agedOut (s : State) (a : Address) : Bool :=
  s.station.state.receives && a != s.station.address && s.roster.isPresent a &&
    decide (Config.tAbsent ≤ (s.roster.entry a.toNat).age)

/-- PEER_AGED_OUT (R24, R93). -/
def execPeerAgedOut (a : Address) (s : State) : Answer := .next (if s.agedOut a then s.removePeer a else s)

/-- SILENCE_TIMER_EXPIRY (R28): ROLL is owed; the timer stays at T_roll until the next sent report. -/
def execSilenceTimerExpiry (s : State) : Answer :=
  .next (if s.station.state = .active ∧ Config.tRoll ≤ s.roster.silence then s.oweRoll else s)

/-- JOIN_TIMER_EXPIRY (R31, R178). -/
def execJoinTimerExpiry (s : State) : Answer :=
  .next (if s.station.state = .joining ∧ timerOut Config.tJoin s.station.joinTimer then
      ({ s with station.joinTimer := none } : State).oweRoll.setFullNext
    else s)

/-- MUTE_TIMER_EXPIRY (R178, R179). -/
def execMuteTimerExpiry (s : State) : Answer :=
  .next (if s.station.state = .muted ∧ timerOut Config.tMute s.station.muteTimer then s.enterJoiningFromMuted else s)

/-- CALL_RETRY_EXPIRY (R64). -/
def execCallRetryExpiry (c : CircuitNo) (s : State) : Answer :=
  .next (if (s.circuit c).state = .calling ∧ timerOut Config.tRetry (s.circuit c).retryTimer then
      let s1 := s.updCircuit c fun k => { k with retryTimer := none }
      if (s.circuit c).sendCount < Config.maxSends then s1.updCircuit c fun k => { k with callOwed := true }
      else s1.freeWith c .noAnswer
    else s)

/-- CLEAR_RETRY_EXPIRY (R83). -/
def execClearRetryExpiry (c : CircuitNo) (s : State) : Answer :=
  .next (if (s.circuit c).state = .clearing ∧ timerOut Config.tRetry (s.circuit c).retryTimer then
      let s1 := s.updCircuit c fun k => { k with retryTimer := none }
      if (s.circuit c).sendCount < Config.maxSends then s1.oweControl c .clear
      else s1.freeWith c .unconfirmed
    else s)

/-- DATA_RETRY_EXPIRY (R107). -/
def execDataRetryExpiry (c : CircuitNo) (s : State) : Answer :=
  .next (if (s.circuit c).mode = .assured ∧ (s.circuit c).state.transfers ∧
      timerOut Config.tRetry (s.circuit c).dataRetryTimer then
      s.dataRetryOut c
    else s)

/-- PROBE_EXPIRY (R110). -/
def execProbeExpiry (c : CircuitNo) (s : State) : Answer :=
  .next (if timerOut Config.tRetry (s.circuit c).probeTimer then s.probeOut c else s)

/-- RX_IDLE_EXPIRY (R165). -/
def execRxIdleExpiry (c : CircuitNo) (s : State) : Answer :=
  .next (if timerOut Config.tRxIdle (s.circuit c).rxIdleTimer then
      let s1 := s.updCircuit c fun k => { k with rxIdleTimer := none }
      if 0 < (s.circuit c).filledSpan then s1.raise (.circuit c .dataIn) else s1
    else s)

/-- QUALITY_WINDOW_END (R169, R170). -/
def execQualityWindowEnd (s : State) : Answer :=
  .next (match s.quality.params with
    | some p => if timerOut p.window s.quality.windowTimer then s.endWindow p else s
    | none => s)

end Sys2Proof.Machine
end

