-- ==== Sys2Proof/Machine/TrunkCommands.lean ====
section
/-! DEFINITION. The meanings of the trunk's happenings: the line, received frames, rounds, and the own frame (Chapters 1 and 3). -/

namespace Sys2Proof.Machine

open Sys2Proof

/-! ## The line and received frames -/

/-- LINE_SETTLED (R3): the quiet measure has come to 20 bt in SETTLING (log 4). -/
def execLineSettled (s : State) : Answer := .next s.lineSettled

/-- LINE_BUSY (R4). -/
def execLineBusy (s : State) : Answer := .next s.lineBusy

/-- FRAME_TRUNCATED (R6). -/
def execFrameTruncated (bytes : List Byte) (s : State) : Answer := .next (s.hear true bytes)

/-- DAMAGED_FRAME (R7); the Line Interface classes the bytes itself (log 7). -/
def execDamagedFrame (bytes : List Byte) (s : State) : Answer := .next (s.hear false bytes)

/-- MALFORMED_FRAME (R8); the Line Interface classes the bytes itself (log 7). -/
def execMalformedFrame (bytes : List Byte) (s : State) : Answer := .next (s.hear false bytes)

/-- DATA_RECEIVED (R65, R112, R125). -/
def execDataReceived (f : Frame) (s : State) : Answer := .next (s.hear false (frameBytes .data f))

/-- ACK_RECEIVED (R65, R117). -/
def execAckReceived (f : Frame) (s : State) : Answer := .next (s.hear false (frameBytes .ack f))

/-- CALL_RECEIVED (R69). -/
def execCallReceived (f : Frame) (s : State) : Answer := .next (s.hear false (frameBytes .call f))

/-- ANSWER_RECEIVED (R66). -/
def execAnswerReceived (f : Frame) (s : State) : Answer := .next (s.hear false (frameBytes .answer f))

/-- REFUSE_RECEIVED (R67). -/
def execRefuseReceived (f : Frame) (s : State) : Answer := .next (s.hear false (frameBytes .refuse f))

/-- CLEAR_RECEIVED (R85 to R87). -/
def execClearReceived (f : Frame) (s : State) : Answer := .next (s.hear false (frameBytes .clear f))

/-- CONFIRM_RECEIVED (R84). -/
def execConfirmReceived (f : Frame) (s : State) : Answer := .next (s.hear false (frameBytes .confirm f))

/-- ROLL_RECEIVED (R30). -/
def execRollReceived (f : Frame) (s : State) : Answer := .next (s.hear false (frameBytes .roll f))

/-! ## Rounds and the own frame -/

/-- SILENT_ROUND_END (R39): a round in which no frame started ends at its length, and the next begins with B unchanged (log 4). -/
def execSilentRoundEnd (s : State) : Answer :=
  .next (if s.arbiter.silenceDue then s.beginRound else s)

/-- TURN (R43): at the own position, once in each round (logs 4 and 26). -/
def execTurn (s : State) : Answer :=
  .next (if s.arbiter.turnDue then s.makeTurn else s)

/-- COLLISION_DETECTED (R15). -/
def execCollisionDetected (s : State) : Answer := .next s.collisionDetected

/-- FRAME_SENT (R16, R18). -/
def execFrameSent (s : State) : Answer := .next s.frameSent

/-- FRAME_COLLIDED (R16). -/
def execFrameCollided (s : State) : Answer := .next s.frameCollided

end Sys2Proof.Machine
end

