-- ==== Sys2Proof/Machine/Dispatch.lean ====
section
/-! DEFINITION. What each command does: one arm for each row of spec/opcode_table.json. -/

namespace Sys2Proof.Machine

open Sys2Proof

def exec (i : Instr) (s : State) : Host.Outcome State Fault Refusal :=
  match i with
  | .resetPinLow => Sys2Proof.Machine.execResetPinLow s
  | .resetRelease address rate loop => Sys2Proof.Machine.execResetRelease address rate loop s
  | .startPassEnd => Sys2Proof.Machine.execStartPassEnd s
  | .go => Sys2Proof.Machine.execGo s
  | .restart => Sys2Proof.Machine.execRestart s
  | .controlOtherValue value => Sys2Proof.Machine.execControlOtherValue value s
  | .requestPostIndexWrite value => Sys2Proof.Machine.execRequestPostIndexWrite value s
  | .openRequest => Sys2Proof.Machine.execOpenRequest s
  | .listenRequest => Sys2Proof.Machine.execListenRequest s
  | .closeRequest => Sys2Proof.Machine.execCloseRequest s
  | .abortRequest => Sys2Proof.Machine.execAbortRequest s
  | .attentionTakeIndexWrite value => Sys2Proof.Machine.execAttentionTakeIndexWrite value s
  | .pendingSetDrain => Sys2Proof.Machine.execPendingSetDrain s
  | .interruptEnableWrite value => Sys2Proof.Machine.execInterruptEnableWrite value s
  | .txPostIndexWrite circuit value => Sys2Proof.Machine.execTxPostIndexWrite circuit value s
  | .rxReleaseIndexWrite circuit value => Sys2Proof.Machine.execRxReleaseIndexWrite circuit value s
  | .gapAck circuit value => Sys2Proof.Machine.execGapAck circuit value s
  | .stickyQualityFlagsRead be1 be0 => Sys2Proof.Machine.execStickyQualityFlagsRead be1 be0 s
  | .hostWrite word be1 be0 data => Sys2Proof.Machine.execHostWrite word be1 be0 data s
  | .lineSettled => Sys2Proof.Machine.execLineSettled s
  | .lineBusy => Sys2Proof.Machine.execLineBusy s
  | .frameTruncated bytes => Sys2Proof.Machine.execFrameTruncated bytes s
  | .damagedFrame bytes => Sys2Proof.Machine.execDamagedFrame bytes s
  | .malformedFrame bytes => Sys2Proof.Machine.execMalformedFrame bytes s
  | .dataReceived frame => Sys2Proof.Machine.execDataReceived frame s
  | .ackReceived frame => Sys2Proof.Machine.execAckReceived frame s
  | .callReceived frame => Sys2Proof.Machine.execCallReceived frame s
  | .answerReceived frame => Sys2Proof.Machine.execAnswerReceived frame s
  | .refuseReceived frame => Sys2Proof.Machine.execRefuseReceived frame s
  | .clearReceived frame => Sys2Proof.Machine.execClearReceived frame s
  | .confirmReceived frame => Sys2Proof.Machine.execConfirmReceived frame s
  | .rollReceived frame => Sys2Proof.Machine.execRollReceived frame s
  | .drainComplete circuit => Sys2Proof.Machine.execDrainComplete circuit s
  | .silentRoundEnd => Sys2Proof.Machine.execSilentRoundEnd s
  | .turn => Sys2Proof.Machine.execTurn s
  | .collisionDetected => Sys2Proof.Machine.execCollisionDetected s
  | .frameSent => Sys2Proof.Machine.execFrameSent s
  | .frameCollided => Sys2Proof.Machine.execFrameCollided s
  | .enterMuted => Sys2Proof.Machine.execEnterMuted s
  | .peerAgedOut address => Sys2Proof.Machine.execPeerAgedOut address s
  | .silenceTimerExpiry => Sys2Proof.Machine.execSilenceTimerExpiry s
  | .joinTimerExpiry => Sys2Proof.Machine.execJoinTimerExpiry s
  | .muteTimerExpiry => Sys2Proof.Machine.execMuteTimerExpiry s
  | .callRetryExpiry circuit => Sys2Proof.Machine.execCallRetryExpiry circuit s
  | .clearRetryExpiry circuit => Sys2Proof.Machine.execClearRetryExpiry circuit s
  | .dataRetryExpiry circuit => Sys2Proof.Machine.execDataRetryExpiry circuit s
  | .probeExpiry circuit => Sys2Proof.Machine.execProbeExpiry circuit s
  | .rxIdleExpiry circuit => Sys2Proof.Machine.execRxIdleExpiry circuit s
  | .qualityWindowEnd => Sys2Proof.Machine.execQualityWindowEnd s
  | .badKindRequest => Sys2Proof.Machine.execBadKindRequest s

end Sys2Proof.Machine
end

