-- ==== Sys2Proof/Machine/Tick.lean ====
section
/-! DEFINITION. One bit time (log 3): the timers that run count one bt, the own frame moves on one bit, the start pass writes one
field, and the happenings that fall due are put into the queue. -/

namespace Sys2Proof.Machine

open Sys2Proof

/-! ## The timers -/

/-- The start pass writes one field (R174, log 16). -/
def State.tickStartPass (s : State) : State :=
  match s.station.startPass with
  | none => s
  | some n =>
    match s.startPassRest n with
    | [] => s
    | w :: _ => ({ s with station.startPass := some (n + 1) } : State).writeField w

/-- Station Control's timers (R178, R179). -/
def Station.tick (st : Station) : Station :=
  { st with
    joinTimer := tickTimer Config.tJoin st.joinTimer
    muteTimer := tickTimer Config.tMute st.muteTimer }

/-- A present peer's age advances (R21). -/
def RosterEntry.tick (own : Address) (a : Fin 31) (e : RosterEntry) : RosterEntry :=
  if e.present ∧ a.val ≠ own.toNat then { e with age := min Config.tAbsent (e.age + 1) } else e

/-- The Roster's ages in JOINING, ACTIVE and MUTED, and the silence timer in ACTIVE (R21, R28). -/
def Roster.tick (r : Roster) (st : Station) : Roster :=
  { r with
    entries :=
      if st.state.receives then Vector.ofFn fun a => (r.entries.get a).tick st.address a else r.entries
    silence := if st.state = .active then min Config.tRoll (r.silence + 1) else r.silence }

/-- A circuit's timers (R57, R99, R165). -/
def Circuit.tick (k : Circuit) : Circuit :=
  { k with
    retryTimer := tickTimer Config.tRetry k.retryTimer
    dataRetryTimer := tickTimer Config.tRetry k.dataRetryTimer
    probeTimer := tickTimer Config.tRetry k.probeTimer
    rxIdleTimer := tickTimer Config.tRxIdle k.rxIdleTimer }

/-- The round timer (R38, R39). -/
def Arbiter.tick (a : Arbiter) : Arbiter :=
  if a.state = .round then { a with roundTimer := min a.silentLength (a.roundTimer + 1) } else a

/-- The quality window timer (R169). -/
def Quality.tick (q : Quality) : Quality :=
  match q.params with
  | some p => { q with windowTimer := tickTimer p.window q.windowTimer }
  | none => q

/-! ## The own frame on the line -/

/-- The bits of the whole frame on the line (R1). -/
def FlightFrame.lineTime (f : FlightFrame) : Nat := 10 * (f.bodyLength + 2)

/-- Byte `i` of the own frame as it falls due: header and payload, then the check over what was driven (R10, R14). -/
def State.nextByte (s : State) (f : FlightFrame) (i : Nat) : Byte :=
  if i < f.bodyLength then s.bodyByte f i
  else if i = f.bodyLength then highByte s.line.txCheck
  else lowByte s.line.txCheck

/-- The level of TXD in bit `n` of the own frame, whose byte on the line is `b` (R1); loop test holds TXD at 1 (R18). -/
def FlightFrame.level (f : FlightFrame) (n : Nat) (b : Byte) (loop : Bool) : Bool :=
  loop || (lineBits b (decide (f.bodyLength + 2 ≤ n / 10 + 1))).getD (n % 10) true

/-- The line with the next byte of the own frame begun. -/
def State.driveByte (s : State) (f : FlightFrame) : Line :=
  let i := s.line.driven.length
  let b := s.nextByte f i
  { s.line with
    driven := s.line.driven ++ [b]
    txCheck := if i < f.bodyLength then checkByte s.line.txCheck b else s.line.txCheck }

/-- The quiet measure one bt on, on a line without a transition (R2). -/
def Line.quietNext (l : Line) : Nat := min Config.quietTime (l.quiet + 1)

/-- The quiet measure one bt on under the own driver, with TXD then at `level`: a transition restarts it (R2); in loop test the line
is busy for the whole line time (R18). -/
def State.quietSending (s : State) (level : Bool) : Nat :=
  if s.station.loop || level != s.line.txd then 0 else s.line.quietNext

/-- One bt of the own frame: the next bit, and at each tenth the next byte (R1, R14). -/
def State.tickSending (s : State) (f : FlightFrame) : Line :=
  let n := s.line.txBit + 1
  if f.lineTime ≤ n then { s.line with txBit := f.lineTime, quiet := s.quietSending s.line.txd }
  else
    let l := if n % 10 = 0 then s.driveByte f else s.line
    let level := f.level n (l.driven.getLastD 0) s.station.loop
    { l with txBit := n, txd := level, quiet := s.quietSending level }

/-- The Line Interface in one bt: the own frame moves on in SENDING, and the quiet measure runs wherever receive is enabled (R2); a
bt that this step passes brings no edge from a peer (log 5). -/
def State.tickLine (s : State) : Line :=
  match s.line.state, s.selector.inFlight with
  | .off, _ => s.line
  | .sending, some f => s.tickSending f
  | .sending, none => s.line
  | .settling, _ => { s.line with quiet := s.line.quietNext }
  | .idle, _ => { s.line with quiet := s.line.quietNext }
  | .hearing, _ => { s.line with quiet := s.line.quietNext }
  | .stopped, _ => { s.line with quiet := s.line.quietNext }

/-- Every timer and the own frame, one bt on. -/
def State.tickTimers (s : State) : State :=
  { s with
    station := s.station.tick
    line := s.tickLine
    arbiter := s.arbiter.tick
    roster := s.roster.tick s.station
    circuits := s.circuits.map Circuit.tick
    quality := s.quality.tick }

/-! ## What falls due -/

/-- A count has come to a limit in this bt. -/
def came (limit before after : Nat) : Bool := decide (before < limit) && decide (limit ≤ after)

/-- One command if it falls due. -/
def dueIf (b : Bool) (i : Instr) : List Instr := if b then [i] else []

/-- What the quiet-line detector reports (R2); in loop test the line is busy on the own frame's line time and quiet at all other times
(R18). -/
def State.lineQuiet (s : State) : Bool :=
  if s.station.loop then s.line.state != .sending else decide (Config.quietTime ≤ s.line.quiet)

/-- What the line's becoming quiet ends: a frame being received, with the bytes decoded (R6), or the wait after a collision (R15). -/
def quietDue (s t : State) : List Instr :=
  if t.lineQuiet && !s.lineQuiet then
    match t.line.state with
    | .hearing => [.frameTruncated t.line.rxBuffer]
    | .stopped => [.frameCollided]
    | .off => []
    | .settling => []
    | .idle => []
    | .sending => []
  else []

/-- The own frame's end mark has been driven (R16). -/
def State.sentDue (s t : State) : Bool :=
  match s.line.state, s.selector.inFlight with
  | .sending, some f => came f.lineTime s.line.txBit t.line.txBit
  | _, _ => false

/-- The expiries of one circuit. -/
def circuitDue (c : CircuitNo) (k l : Circuit) : List Instr :=
  dueIf (k.state == .calling && reached Config.tRetry k.retryTimer l.retryTimer) (.callRetryExpiry c) ++
  dueIf (k.state == .clearing && reached Config.tRetry k.retryTimer l.retryTimer) (.clearRetryExpiry c) ++
  dueIf (reached Config.tRetry k.dataRetryTimer l.dataRetryTimer) (.dataRetryExpiry c) ++
  dueIf (reached Config.tRetry k.probeTimer l.probeTimer) (.probeExpiry c) ++
  dueIf (reached Config.tRxIdle k.rxIdleTimer l.rxIdleTimer) (.rxIdleExpiry c)

/-- The peers whose age has come to T_absent (R24). -/
def agedDue (r t : Roster) : List Instr :=
  allAddresses.flatMap fun a =>
    dueIf (came Config.tAbsent (r.entry a).age (t.entry a).age) (.peerAgedOut (BitVec.ofNat 5 a))

/-- The taking of the request at the take index (R154). -/
def State.takingOf (s : State) : Instr :=
  match requestKindOf s.requestRecord.kind with
  | some .openR => .openRequest
  | some .listenR => .listenRequest
  | some .closeR => .closeRequest
  | some .abortR => .abortRequest
  | none => .badKindRequest

/-- The quality window has run out (R169). -/
def Quality.due (q r : Quality) : Bool :=
  match q.params with
  | some p => reached p.window q.windowTimer r.windowTimer
  | none => false

/-- The happenings that fall due as `s` becomes `t`, in the model's order (log 23). -/
def dueBetween (s t : State) : List Instr :=
  dueIf (decide (t.station.startPass.isSome) && (t.startPassRest (t.station.startPass.getD 0)).isEmpty) .startPassEnd ++
  dueIf (s.sentDue t) .frameSent ++
  quietDue s t ++
  dueIf (t.line.state == .settling && came Config.quietTime s.line.quiet t.line.quiet) .lineSettled ++
  agedDue s.roster t.roster ++
  (allCircuits.flatMap fun c => circuitDue c (s.circuit c) (t.circuit c)) ++
  dueIf (reached Config.tJoin s.station.joinTimer t.station.joinTimer) .joinTimerExpiry ++
  dueIf (reached Config.tMute s.station.muteTimer t.station.muteTimer) .muteTimerExpiry ++
  dueIf (came Config.tRoll s.roster.silence t.roster.silence) .silenceTimerExpiry ++
  dueIf (s.quality.due t.quality) .qualityWindowEnd ++
  dueIf (t.arbiter.turnDue && !s.arbiter.turnDue) .turn ++
  dueIf (t.arbiter.silenceDue && !s.arbiter.silenceDue) .silentRoundEnd ++
  dueIf t.requestWaiting t.takingOf

/-- One bit time of the idle block (log 3). -/
def State.idle (s : State) : State :=
  let t := s.tickStartPass.tickTimers
  { t with pending := t.pending ++ dueBetween s t }

end Sys2Proof.Machine
end

