-- ==== Sys2Proof/Safety.lean ====
section
/-! DEFINITION. What a safe state of the MT16 is: the laws that the spec says hold between happenings. Each law is meant to be kept
by every step from every state that has it, reachable or not. -/

namespace Sys2Proof.Safety

open Sys2Proof Sys2Proof.Machine

/-- The window is in its canonical form (the model's own law of its memory). -/
abbrev MemoryLaw (s : State) : Prop := s.window.wf = true

/-- The orphan list holds at most 4 entries, and no two with the same peer, peer circuit and kind (R75). -/
abbrev OrphanLaw (s : State) : Prop :=
  s.orphans.entries.length ≤ 4 ∧ s.orphans.entries.Pairwise fun a b => a.sameKey b = false

/-- The attention queue and the pending set (R160, R161): as many pairs as entries held, at most 64, no pair twice, none both noted
and pending, and none pending while the queue has room. -/
abbrev AttentionLaw (s : State) : Prop :=
  s.notice.held.length = s.notice.count ∧
  s.notice.held.length ≤ 64 ∧
  s.notice.held.Nodup ∧
  s.notice.waiting.Nodup ∧
  (∀ p ∈ s.notice.waiting, p ∉ s.notice.held) ∧
  (s.notice.waiting ≠ [] → s.notice.held.length = 64)

/-- IRQ is asserted while it is enabled and the fill index differs from the take copy (R163). -/
abbrev IrqLaw (s : State) : Prop :=
  s.notice.irq = (s.notice.irqEnable && s.notice.fill != s.notice.takeCopy)

/-- The request queue holds at most 16 untaken requests (R153). -/
abbrev RequestLaw (s : State) : Prop := span s.requests.take s.requests.postCopy ≤ 16

/-- No more host writes stand in memory ahead of their commands than wait (the model's own law, log 11). -/
abbrev LandedLaw (s : State) : Prop := s.landed ≤ s.writesAhead.length

/-- Receive and transmit follow the station state, and the Line Interface is OFF where receive is disabled (R3). -/
abbrev EnableLaw (s : State) : Prop :=
  s.line.rxEnable = s.station.state.receives ∧
  s.line.txEnable = s.station.state.transmits ∧
  (s.line.state = .off ↔ s.station.state.receives = false)

/-- The Turn Arbiter's state that goes with a state of the Line Interface (R37). -/
def arbiterOf : LineState → ArbiterState
  | .off => .off
  | .settling => .waiting
  | .idle => .round
  | .hearing => .busy
  | .sending => .busy
  | .stopped => .busy

/-- The Line Interface is on an own frame. -/
def ownFrame : LineState → Bool
  | .sending | .stopped => true
  | .off | .settling | .idle | .hearing => false

/-- The transmit path: one frame in flight while the line is on it, driven only where transmit is enabled; in JOINING it is a ROLL
(R16, R37, R50, R177); loop test drives and hears nothing, and its line is quiet between own frames (R18); TXD is 1 while TXEN is released (R1); an ACTIVE station has
collided fewer than 16 times in a row (R48, R49). -/
abbrev PathLaw (s : State) : Prop :=
  EnableLaw s ∧
  s.arbiter.state = arbiterOf s.line.state ∧
  s.selector.inFlight.isSome = ownFrame s.line.state ∧
  (ownFrame s.line.state = true → s.station.state.transmits = true) ∧
  (s.station.state = .joining → ∀ f ∈ s.selector.inFlight, f.use = .roll ∧ f.kind = .roll) ∧
  (s.station.loop = true → s.line.state ≠ .hearing ∧ s.line.state ≠ .stopped) ∧
  (s.station.loop = true → s.line.state = .idle → 20 ≤ s.line.quiet) ∧
  s.line.txen = (s.line.state == .sending && !s.station.loop) ∧
  (s.line.txen = false → s.line.txd = true) ∧
  s.arbiter.collisions ≤ 16 ∧
  (s.station.state = .active → s.arbiter.collisions < 16)

/-- The own address and the rotation base: a station that may join has an address 0 to 30, and B lies in 0 to 30 (R40, R174,
R181). -/
abbrev BaseLaw (s : State) : Prop :=
  (s.station.state = .config ∨ s.station.state.receives = true → s.station.address ≠ 31) ∧ s.arbiter.base ≠ 31

/-- The timers of Station Control run only in their states (R178, R179), and RESET and the start pass only in RESET (R173). -/
abbrev TimerLaw (s : State) : Prop :=
  (s.station.joinTimer.isSome = true → s.station.state = .joining) ∧
  (s.station.muteTimer.isSome = true → s.station.state = .muted) ∧
  (s.station.resetLow = true → s.station.state = .reset ∧ s.station.startPass = none) ∧
  (s.station.startPass.isSome = true → s.station.state = .reset)

/-- Circuits are FREE while requests are not taken (R58, R78). -/
abbrev QuietLaw (s : State) : Prop :=
  s.station.state.serves = false → ∀ c, (s.circuit c).state = .free

/-- The circuit has a peer it works with: CALLING, OPEN, DRAINING or CLEARING (R58). -/
def engaged : CircuitState → Bool
  | .calling | .opened | .draining | .clearing => true
  | .free | .listening | .ended => false

/-- Every circuit in CALLING, OPEN, DRAINING or CLEARING names a peer that is present, and the station itself is present while it
listens to the trunk (R21, R58). -/
abbrev PresenceLaw (s : State) : Prop :=
  QuietLaw s ∧ BaseLaw s ∧
  (s.station.state.receives = true → s.roster.isPresent s.station.address = true) ∧
  (∀ c, engaged (s.circuit c).state = true → s.roster.isPresent (s.circuit c).peer = true)

/-- The request in flight that goes with a circuit state (R157). -/
def requestFits (k : Circuit) : Bool :=
  match k.state, k.inFlight with
  | .calling, some (.openR, _) => true
  | .listening, some (.listenR, _) => true
  | .draining, some (.closeR, _) => true
  | .clearing, some (.closeR, _) => true
  | .free, none => true
  | .opened, none => true
  | .ended, none => true
  | _, _ => false

/-- Each circuit's request in flight is the one its state calls for (R157). -/
abbrev InFlightLaw (s : State) : Prop := ∀ c, requestFits (s.circuit c) = true

/-- No two circuits in OPEN, DRAINING or CLEARING have the same pair of peer station and peer circuit, and each has a peer
circuit (R70). -/
abbrev PairLaw (s : State) : Prop :=
  (∀ c, (s.circuit c).state.live = true → (s.circuit c).peerCircuit.isSome = true) ∧
  (∀ c d, (s.circuit c).state.live = true → (s.circuit d).state.live = true →
    (s.circuit c).peer = (s.circuit d).peer → (s.circuit c).peerCircuit = (s.circuit d).peerCircuit → c = d)

/-- A circuit's rings and its window: never more posted than the transmit ring holds, nor more filled than the receive ring (R141),
never more than 8 outstanding (R100), and only posted slots outstanding (R98). -/
abbrev RingLaw (k : Circuit) : Prop :=
  k.txSize ≤ 32 ∧ k.rxSize ≤ 32 ∧
  (k.state ≠ .free → k.postedSpan ≤ k.txSize ∧ k.filledSpan ≤ k.rxSize) ∧
  (k.state ≠ .free → k.mode = .assured → k.outstanding ≤ 8 ∧ k.outstanding ≤ k.postedSpan)

/-- Each ring of a circuit that has one lies within the ring area (R131, R141, R176). -/
abbrev RingAreaLaw (k : Circuit) : Prop :=
  (0 < k.txSize → 0x1000 ≤ k.txBase.toNat ∧ k.txBase.toNat + 256 * k.txSize ≤ 65536) ∧
  (0 < k.rxSize → 0x1000 ≤ k.rxBase.toNat ∧ k.rxBase.toNat + 256 * k.rxSize ≤ 65536)

/-- A circuit whose new DATA is in flight: its slot is posted and unsent, with room in the window while the circuit carries data
(R100, R103, R122), and it is past its call. -/
def newDataRoom (k : Circuit) : Bool :=
  match k.state with
  | .listening | .calling => false
  | .free | .clearing | .ended => true
  | .opened | .draining =>
    match k.mode with
    | .assured => decide (k.outstanding < 8) && decide (k.outstanding < k.postedSpan)
    | .plain => decide (0 < k.postedSpan)

/-- The frame in flight is of no later lifetime than its circuit's, and a new DATA of this lifetime has its room; a frame of the
orphan list or of the Roster is what they send (R50, R54). -/
def flightFits (s : State) (f : FlightFrame) : Bool :=
  match f.owner, f.use with
  | .circuit c life, .newData =>
    decide (life < (s.circuit c).lifetime) || (decide (life = (s.circuit c).lifetime) && newDataRoom (s.circuit c))
  | .circuit c life, _ => decide (life ≤ (s.circuit c).lifetime)
  | .orphanList, u => u == .orphan
  | .roster, u => u == .roll

/-- The law of the rings and of the frame in flight. -/
abbrev TransferLaw (s : State) : Prop :=
  QuietLaw s ∧ (∀ c, RingLaw (s.circuit c)) ∧ (∀ f ∈ s.selector.inFlight, flightFits s f = true)

/-- The frame in flight of a station that listens is its own: its source is the own address, and the bytes driven begin with the
bytes of its header (R14). -/
abbrev OwnFrameLaw (s : State) : Prop :=
  s.station.state.receives = true → ∀ f ∈ s.selector.inFlight,
    f.header.src = s.station.address ∧
    s.line.driven.take 7 <+: headerBytes f.kind f.header (BitVec.ofNat 8 f.payloadLength)

/-- The roster's ages: an absent entry has age 0, the own entry is not aged, and no age passes T_absent (R21, R24). -/
abbrev AgeLaw (s : State) : Prop :=
  ∀ a : Fin 31,
    ((s.roster.entries.get a).present = false → (s.roster.entries.get a).age = 0) ∧
    (s.roster.entries.get a).age ≤ Config.tAbsent

end Sys2Proof.Safety
end

