-- ==== Sys2Proof/WellFormed.lean ====
section
/-! DEFINITION. Well-formed commands: the operands a row of the table can carry. The machine runs an ill-formed command too
(the Line Interface classifies whatever ends on the line, log 7), so these checks only say which terms name a row's happening. -/

namespace Sys2Proof

open Sys2Proof.Machine

/-- A received frame that its kind's row names: good by R8, and short enough for the line (R5). -/
def Frame.wellFormed (k : Kind) (f : Frame) : Bool := keepsRules k f

/-- The operand checks of each row. -/
def Instr.wellFormed : Instr → Bool
  | .controlOtherValue v => v != 0x5A && v != 0xA5
  | .stickyQualityFlagsRead be1 be0 => be1 || be0
  | .hostWrite _ be1 be0 _ => be1 || be0
  | .damagedFrame bytes => classify false bytes == .damaged
  | .malformedFrame bytes => classify false bytes == .malformed (sourceOf bytes)
  | .dataReceived f => f.wellFormed .data
  | .ackReceived f => f.wellFormed .ack
  | .callReceived f => f.wellFormed .call
  | .answerReceived f => f.wellFormed .answer
  | .refuseReceived f => f.wellFormed .refuse
  | .clearReceived f => f.wellFormed .clear
  | .confirmReceived f => f.wellFormed .confirm
  | .rollReceived f => f.wellFormed .roll
  | .peerAgedOut a => a != 31
  | .resetPinLow => true
  | .resetRelease _ _ _ => true
  | .startPassEnd => true
  | .go => true
  | .restart => true
  | .requestPostIndexWrite _ => true
  | .openRequest => true
  | .listenRequest => true
  | .closeRequest => true
  | .abortRequest => true
  | .attentionTakeIndexWrite _ => true
  | .pendingSetDrain => true
  | .interruptEnableWrite _ => true
  | .txPostIndexWrite _ _ => true
  | .rxReleaseIndexWrite _ _ => true
  | .gapAck _ _ => true
  | .lineSettled => true
  | .lineBusy => true
  | .frameTruncated _ => true
  | .drainComplete _ => true
  | .silentRoundEnd => true
  | .turn => true
  | .collisionDetected => true
  | .frameSent => true
  | .frameCollided => true
  | .enterMuted => true
  | .silenceTimerExpiry => true
  | .joinTimerExpiry => true
  | .muteTimerExpiry => true
  | .callRetryExpiry _ => true
  | .clearRetryExpiry _ => true
  | .dataRetryExpiry _ => true
  | .probeExpiry _ => true
  | .rxIdleExpiry _ => true
  | .qualityWindowEnd => true
  | .badKindRequest => true

end Sys2Proof
end

