-- ==== Sys2Proof/Certificates/Slice0/Obligations.lean ====
section
/-! DEFINITION. The statements for the provers: what each command of the MT16 does and leaves alone, and the laws that every step
keeps. First the words they are said in, then the statements. -/

namespace Sys2Proof.Claims

open Sys2Proof Sys2Proof.Machine

/-! ## Words about the window -/

/-- The offsets of a run of `n` bytes from `a`. -/
def bytesFrom (a n : Nat) : List Nat := (List.range n).map (a + ·)

/-- Every byte of the window outside these offsets reads as before. -/
def sameWindow (s t : State) (offs : List Nat) : Prop := ∀ a, a < 65536 → a ∉ offs → t.peek a = s.peek a

/-- Every byte from one offset up to another reads as before. -/
def sameRange (s t : State) (lo hi : Nat) : Prop := ∀ a, lo ≤ a → a < hi → t.peek a = s.peek a

/-- A 16-bit field of the window reads as a value, low byte at the lower offset (R129). -/
abbrev shows (t : State) (a : Nat) (v : Half) : Prop := t.peek a = v.setWidth 8 ∧ t.peek (a + 1) = (v >>> 8).setWidth 8

/-- Bytes of the record of circuit `c`. -/
def recordBytes (c : CircuitNo) (offs : List Nat) : List Nat := offs.map (recordBase c + ·)

/-- The bytes that up to `n` raised causes can write: their entries, and the fill index, the sequence, the pending flag and the
pending count (R158, R161). -/
def raiseBytes (s : State) (n : Nat) : List Nat :=
  if n = 0 then []
  else [0x0F, 0x10, 0x11, 0x12] ++
    (List.range n).flatMap fun i => bytesFrom (0x0600 + 8 * ((s.notice.fill.toNat + i) % 64)) 8

/-- The watched byte at an offset, as the command of its row when the host writes it (R144). -/
def watchedRow (a : Nat) (v : Byte) : Option Instr :=
  if a = 0x0A then some (if v = 0x5A then .go else if v = 0xA5 then .restart else .controlOtherValue v)
  else if a = 0x0B then some (.interruptEnableWrite v)
  else if a = 0x0C then some (.requestPostIndexWrite v)
  else if a = 0x0E then some (.attentionTakeIndexWrite v)
  else allCircuits.findSome? fun c =>
    if a = recordBase c + 0x30 then some (.txPostIndexWrite c v)
    else if a = recordBase c + 0x31 then some (.rxReleaseIndexWrite c v)
    else if a = recordBase c + 0x32 then some (.gapAck c v)
    else none

/-- The word is the present set of the roster: bit a is the presence of address a, and bit 31 is 0 (R25). -/
abbrev isPresentSet (w : BitVec 32) (r : Roster) : Prop :=
  (∀ a, a < 31 → w.getLsbD a = (r.entry a).present) ∧ w.getLsbD 31 = false

/-- The half of the mirror that holds address `a` shows the present set (R25). -/
abbrev mirrorShows (t : State) (a : Address) : Prop :=
  if a.toNat < 16 then shows t 0x14 (t.roster.presentSet.setWidth 16)
  else shows t 0x16 ((t.roster.presentSet >>> 16).setWidth 16)

/-- The bytes of the half of the mirror that holds address `a`, and of the change counter. -/
def mirrorBytes (a : Address) : List Nat := (if a.toNat < 16 then [0x14, 0x15] else [0x16, 0x17]) ++ [0x18, 0x19]

/-- The bytes that a host write puts into the window, if the command is one (R129, R144). -/
def hostAccess : Instr → Option (List (Nat × Byte))
  | .hostWrite w be1 be0 data => some ((if be0 then [(2 * w.toNat, data.setWidth 8)] else []) ++
      if be1 then [(2 * w.toNat + 1, (data >>> 8).setWidth 8)] else [])
  | .go => some [(0x0A, 0x5A)]
  | .restart => some [(0x0A, 0xA5)]
  | .controlOtherValue v => some [(0x0A, v)]
  | .interruptEnableWrite v => some [(0x0B, v)]
  | .requestPostIndexWrite v => some [(0x0C, v)]
  | .attentionTakeIndexWrite v => some [(0x0E, v)]
  | .txPostIndexWrite c v => some [(recordBase c + 0x30, v)]
  | .rxReleaseIndexWrite c v => some [(recordBase c + 0x31, v)]
  | .gapAck c v => some [(recordBase c + 0x32, v)]
  | _ => none

/-- The host writes that wait in the queue, up to a watched read or a fall of RESET, in their order (log 11). -/
def writesWaiting (s : State) : List Instr :=
  (s.pending.takeWhile fun i => match i with
    | .stickyQualityFlagsRead _ _ | .resetPinLow => false
    | _ => true).filter fun i => (hostAccess i).isSome

/-- The command is a host write of CONTROL. -/
def writesControl (i : Instr) : Bool := ((hostAccess i).getD []).any fun b => decide (b.1 = 0x0A)

/-- The command is the row of a write of CONTROL. -/
def isControlRow : Instr → Bool
  | .go | .restart | .controlOtherValue _ => true
  | _ => false

/-- Of the host writes that wait behind a host write in hand, those whose bytes do not yet stand in memory (log 11). -/
def writesToLand (s : State) : List Instr := (writesWaiting s).drop (s.landed - 1)

/-- A later write of CONTROL waits of which it is open whether it has reached memory (R145, log 11). -/
def openWrites (s : State) : Bool := (writesToLand s).any writesControl

/-- The window after these bytes. -/
def afterBytes (m : Memory) (bytes : List (Nat × Byte)) : Memory := bytes.foldl (fun m b => Memory.write m b.1 b.2) m

/-- The host write that comes next stands in memory already (log 11). -/
abbrev standing (u : State) : State := { u with landed := u.landed + 1 }

/-- A host write of these bytes has reached memory: at its command, or before it (R130, log 11). -/
abbrev arrived (s : State) (bytes : List (Nat × Byte)) : State :=
  { s with landed := s.landed - 1, window := if s.landed = 0 then afterBytes s.window bytes else s.window }

/-- The byte at an offset is the value written by a host write in hand, or, if that has reached memory before, what stands there. -/
abbrev landsAt (s t : State) (a : Nat) (v : Byte) : Prop := t.peek a = if s.landed = 0 then v else s.peek a

/-- A write of `v` to CONTROL is in hand, and of the later host writes the first `n` that had not reached memory have done so, whole and
in their order; no other write waits (R130, R145). -/
def withLanded (s : State) (v : Byte) (n : Nat) : State :=
  { arrived s [(0x0A, v)] with
    window := ((writesToLand s).take n).foldl (fun m i => afterBytes m ((hostAccess i).getD [])) (arrived s [(0x0A, v)]).window
    landed := s.landed - 1 + n
    choices := s.choices + 1
    pending := (writesWaiting s).take (s.landed - 1 + n) }

/-- CONTROL was written back: it reads 0, or keeps the value of a later write that stands in memory already (R145). -/
abbrev writtenBack (s t : State) : Prop :=
  t.peek 0x0A = if ((writesWaiting s).take (s.landed - 1)).any writesControl then s.peek 0x0A else 0

/-- Two commands whose host writes stand in memory, one taken after the other. -/
def thenTaken (i j : Instr) (s : State) : Host.Outcome State Fault Refusal :=
  match exec i (standing s) with
  | .next u => exec j (standing u)
  | o => o

/-- The sticky flags as the field shows them: bit 0 WENT_POOR, bit 1 WENT_GOOD, bit 2 MUTED_SEEN (R171). -/
def flagsByte (q : Quality) : Byte :=
  (if q.wentPoor then 1 else 0) + (if q.wentGood then 2 else 0) + if q.mutedSeen then 4 else 0

/-! ## Words about blocks -/

/-- All circuits but `c` are unchanged. -/
abbrev sameCircuits (s t : State) (c : CircuitNo) : Prop := ∀ d, d ≠ c → t.circuit d = s.circuit d

/-- Every circuit is unchanged. -/
abbrev allCircuitsSame (s t : State) : Prop := ∀ d, t.circuit d = s.circuit d

/-- The eight bytes of the entry with this sequence that a pair gets when it is written in this state; `missing` is the detail of a
GAP (R137, R139, R158, R159). -/
def entryBytes (u : State) (seq : Byte) (p : NoticePair) (missing : Byte := 0) : List Byte :=
  match p with
  | .circuit c cause =>
    let k := u.circuit c
    [seq, BitVec.ofNat 8 c.val] ++
    (match cause with
      | .dataIn => [1, k.rxFill - k.releaseCopy]
      | .spaceOut => [2, k.postedCopy - k.txDone]
      | .done => [3, match k.completion with | some d => d.outcome.code | none => 0]
      | .ended => [4, k.endCause.code]
      | .gap => [5, missing]
      | .fault => [6, k.faultKind.code]) ++
    [k.txDone, k.rxFill, k.postedCopy, k.releaseCopy]
  | .station cause =>
    [seq, 0xFF] ++
    (match cause with
      | .roster => [16, BitVec.ofNat 8 (allAddresses.filter fun a => (u.roster.entry a).present).length]
      | .quality => [17, u.quality.level.code]
      | .station => [18, u.station.state.code]
      | .refused => [19, u.requests.refusal.outcome]) ++
    [u.roster.changeCounter.setWidth 8, (u.roster.changeCounter >>> 8).setWidth 8, u.station.state.code, 0]

/-- The entry `k` places after the fill index of `s` reads in `t` as the pair's, with the detail and the snapshot of `u` (R132,
R158). -/
abbrev entryShows (s t u : State) (k : Nat) (p : NoticePair) (missing : Byte := 0) : Prop :=
  ∀ i, i < 8 → t.peek (0x0600 + 8 * ((s.notice.fill.toNat + k) % 64) + i) =
    (entryBytes u (s.notice.sequence + BitVec.ofNat 8 k) p missing).getD i 0

/-- The pair was raised once: absorbed if noted, pending if the queue is full, and written otherwise, its entry with the detail and
the snapshot of the state that results (R158, R159, R160, R161). -/
abbrev raisedIn (s t : State) (p : NoticePair) : Prop :=
  if p ∈ s.notice.held then t.notice = s.notice
  else if 64 ≤ s.notice.count then
    t.notice = { s.notice with waiting := t.notice.waiting } ∧ p ∈ t.notice.waiting ∧
    (∀ q ∈ s.notice.waiting, q ∈ t.notice.waiting) ∧ (∀ q ∈ t.notice.waiting, q = p ∨ q ∈ s.notice.waiting) ∧
    t.notice.waiting.length = s.notice.waiting.length + if p ∈ s.notice.waiting then 0 else 1
  else
    t.notice = { s.notice with
      held := s.notice.held ++ [p]
      fill := s.notice.fill + 1
      sequence := s.notice.sequence + 1
      irq := s.notice.irqEnable } ∧
    entryShows s t t 0 p

/-- The pair is noted or pending, and if `s` had not noted it and its entry is one of those written since, the entry has the detail
and the snapshot of `u` (R158 to R161). -/
abbrev told (s t u : State) (p : NoticePair) (missing : Byte := 0) : Prop :=
  (p ∈ t.notice.held ∨ p ∈ t.notice.waiting) ∧
  (p ∉ s.notice.held → ∀ k, k < 64 → t.notice.held[s.notice.held.length + k]? = some p → entryShows s t u k p missing)

/-- A pair was raised if there is one, and otherwise the Notice Unit is as it was. -/
abbrev raisedIfAny (s t : State) (due : Option NoticePair) : Prop :=
  (∀ p ∈ due, raisedIn s t p) ∧ (due = none → t.notice = s.notice)

/-- The pairs noted since `s`. -/
def newlyNoted (s t : State) : List NoticePair := t.notice.held.drop s.notice.held.length

/-- Nothing was raised but pairs of this list, each at most once: the interrupt enable, the take copy and the pairs noted and pending
stay; what is noted or pending beside them is of the list and was not noted before, held back only by a full queue; and the fill index,
the sequence, IRQ and their fields follow the entries written (R158, R160, R161, R163). -/
abbrev raisedOnly (s t : State) (due : List NoticePair) : Prop :=
  (due = [] → t.notice = s.notice) ∧
  t.notice = { s.notice with
    held := s.notice.held ++ newlyNoted s t
    waiting := t.notice.waiting
    fill := s.notice.fill + BitVec.ofNat 8 (newlyNoted s t).length
    sequence := s.notice.sequence + BitVec.ofNat 8 (newlyNoted s t).length
    irq := if newlyNoted s t = [] then s.notice.irq else s.notice.irqEnable } ∧
  (newlyNoted s t).Nodup ∧ (∀ p ∈ newlyNoted s t, p ∈ due ∧ p ∉ s.notice.held) ∧
  (∀ p ∈ s.notice.waiting, p ∈ t.notice.waiting) ∧
  (∀ p ∈ t.notice.waiting, p ∈ s.notice.waiting ∨ (p ∈ due ∧ p ∉ s.notice.held ∧ 64 ≤ t.notice.count)) ∧
  (newlyNoted s t ≠ [] → t.peek 0x0F = t.notice.fill ∧ t.peek 0x10 = t.notice.sequence) ∧
  (t.notice.waiting ≠ s.notice.waiting → t.peek 0x11 = 1 ∧ t.peek 0x12 = BitVec.ofNat 8 t.notice.waiting.length)

/-- Every pair of a circuit. -/
def circuitPairs : List NoticePair :=
  allCircuits.flatMap fun c => [.dataIn, .spaceOut, .done, .ended, .gap, .fault].map (NoticePair.circuit c)

/-- SPACE_OUT is due for circuit `c` where a release brings its outstanding slots from above the notice level down to it (R166). -/
def spaceOutDue (before after : Circuit) (c : CircuitNo) : List NoticePair :=
  if before.txNotice.toNat < span before.txDone before.postedCopy ∧
    span after.txDone before.postedCopy ≤ before.txNotice.toNat then [.circuit c .spaceOut] else []

/-- The orphan list after an addition (R75). -/
def withOrphan (st : StationState) (l : Orphans) (peer : Address) (peerCircuit : CircuitNo) (reply : Reply) : Orphans :=
  if st = .muted ∨ st = .halted then l
  else if l.entries.any (fun o => o.peer = peer && o.peerCircuit = peerCircuit && o.reply.kind = reply.kind) then l
  else if l.entries.length = 4 ∨ 4 < l.entries.length then { l with drops := l.drops + 1 }
  else { l with entries := l.entries ++ [⟨peer, peerCircuit, reply, false⟩] }

/-- The orphan drop count of the window follows a drop, and is left alone otherwise (R75). -/
abbrev showsDrops (s t : State) : Prop :=
  if t.orphans.drops = s.orphans.drops then t.peek 0x30 = s.peek 0x30 ∧ t.peek 0x31 = s.peek 0x31
  else shows t 0x30 t.orphans.drops

/-- A circuit that has gone FREE (R79), with the completion fields as given. -/
abbrev freed (k : Circuit) (done : Option Completion) : Circuit :=
  { k with
    state := .free
    unsentCount := if k.state = .opened ∨ k.state = .draining ∨ k.state = .clearing then k.postedCopy - k.txDone else k.unsentCount
    callOwed := false
    ackOwed := false
    pollOwed := false
    controlOwed := none
    retryTimer := none
    sendCount := 0
    dataRetryTimer := none
    probeTimer := none
    rxIdleTimer := none
    inFlight := none
    completion := match done with
      | some d => some d
      | none => k.completion }

/-- The record bytes that going FREE can write: state, completion fields, unsent count. -/
def freedBytes (c : CircuitNo) : List Nat := recordBytes c [0x00, 0x08, 0x09, 0x0A, 0x0B, 0x0C, 0x20]

/-- The completion of the request in flight with an outcome (R157). -/
abbrev completedWith (k : Circuit) (outcome : CompletionOutcome) : Option Completion :=
  match k.inFlight with
  | some r => some ⟨r.1, r.2, outcome, none⟩
  | none => none

/-- The record shows a completion (R157). -/
abbrev showsCompletion (t : State) (c : CircuitNo) (d : Completion) : Prop :=
  t.peek (recordBase c + 0x08) = d.kind.code ∧ t.peek (recordBase c + 0x09) = d.id ∧
  t.peek (recordBase c + 0x0A) = d.outcome.code ∧
  t.peek (recordBase c + 0x0B) = (match d.overtaken with | some o => o.1.code | none => 0) ∧
  t.peek (recordBase c + 0x0C) = (match d.overtaken with | some o => o.2 | none => 0)

/-- An OPEN circuit that has entered ENDED (R85, R91). -/
abbrev endedWith (k : Circuit) (cause : EndCause) (control : Option ControlKind) : Circuit :=
  { k with
    state := .ended
    endCause := cause
    unsentCount := k.postedCopy - k.txDone
    controlOwed := control
    ackOwed := false
    pollOwed := false
    retryTimer := none
    dataRetryTimer := none
    probeTimer := none }

/-- A circuit that has entered CLEARING (R81). -/
abbrev clearingFrom (k : Circuit) : Circuit :=
  { k with
    state := .clearing
    sendCount := 0
    retryTimer := none
    controlOwed := some .clear
    ackOwed := false
    pollOwed := false
    dataRetryTimer := none
    probeTimer := none }

/-- Only circuit `c`, the Notice Unit and the window may differ. -/
abbrev onlyCircuit (s t : State) (c : CircuitNo) : Prop :=
  t = { s with circuits := t.circuits, notice := t.notice, window := t.window } ∧ sameCircuits s t c

/-- The probe timer as R109 tests it afresh. -/
def probeOf (k : Circuit) : Option Nat := if k.stalled then some (k.probeTimer.getD 0) else none

/-- The flags of a frame in flight of circuit `c` that a collided report may still set: all but those given are forgotten (R54). -/
def flightForgets (s : State) (c : CircuitNo) (control : Bool) : Selector :=
  { s.selector with inFlight := s.selector.inFlight.map fun f =>
      if f.owner = .circuit c (s.circuit c).lifetime then
        { f with discharged :=
          { f.discharged with ack := false, poll := false, control := if control then none else f.discharged.control } }
      else f }

/-- Pending pairs have gone, in order, into the room the attention queue had, each as an entry with the detail and the snapshot of
that moment (R158, R159, R161). -/
abbrev drainedFrom (u t : State) (offs : List Nat) : Prop :=
  let n := min u.notice.waiting.length (64 - span u.notice.takeCopy u.notice.fill)
  t.notice = { u.notice with
    held := u.notice.held ++ u.notice.waiting.take n
    waiting := u.notice.waiting.drop n
    fill := u.notice.fill + BitVec.ofNat 8 n
    sequence := u.notice.sequence + BitVec.ofNat 8 n
    irq := if n = 0 then u.notice.irq else u.notice.irqEnable } ∧
  (n ≠ 0 →
    t.peek 0x0F = t.notice.fill ∧ t.peek 0x10 = t.notice.sequence ∧
    t.peek 0x11 = (if t.notice.waiting = [] then 0 else 1) ∧ t.peek 0x12 = BitVec.ofNat 8 t.notice.waiting.length) ∧
  (∀ k, k < n → ∀ p ∈ u.notice.waiting[k]?, entryShows u t u k p) ∧
  sameWindow u t (offs ++ raiseBytes u n)

/-- The room a release to `v` makes is due to be announced: the new limit lies beyond the last announced one by the credit step, or
at all if the last credit was 0 (R115). -/
def releaseOwesAck (k : Circuit) (v : Byte) (step : Nat) : Bool :=
  let d := distance k.lastLimit (k.expectedSeq + BitVec.ofNat 6 (k.rxSize - span v k.rxFill))
  decide (1 ≤ d ∧ d ≤ 32 ∧ (step ≤ d ∨ k.lastCredit = 0))

/-- An OPEN circuit that a CLOSE has taken to DRAINING (R80). -/
abbrev drainingFrom (k : Circuit) (id : Byte) : Circuit :=
  { k with state := .draining, drainTarget := k.postedCopy, inFlight := some (.closeR, id) }

/-! ## Words about requests -/

/-- Byte `i` of the request record at the take index (R131, R137). -/
def reqByte (s : State) (i : Nat) : Byte := s.peek (0x0500 + 16 * (s.requests.take.toNat % 16) + i)

/-- The circuit that the request names, once it lies below the circuit count. -/
def reqCircuit (s : State) : CircuitNo := Fin.ofNat 16 (reqByte s 2).toNat

/-- The mode that the request names, once it has passed check 3. -/
def reqMode (s : State) : CircuitMode := if reqByte s 5 = 1 then .plain else .assured

/-- A request waits and is taken in this station state (R154). -/
abbrev waits (s : State) : Prop :=
  s.requests.postCopy ≠ s.requests.take ∧
  (s.station.state = .joining ∨ s.station.state = .active ∨ s.station.state = .muted ∨ s.station.state = .halted)

/-- The row whose command takes a request of this kind byte. -/
def requestRow (kind : Byte) : Instr :=
  if kind = 1 then .openRequest
  else if kind = 2 then .listenRequest
  else if kind = 3 then .closeRequest
  else if kind = 4 then .abortRequest
  else .badKindRequest

/-- The circuit is in one of these states. -/
def stateIn (k : Circuit) (l : List CircuitState) : Bool := l.any fun st => k.state = st

/-- The outcome of the first check of R155 that the request fails, or 0. -/
def requestCheck (s : State) : Byte :=
  let k := s.circuit (reqCircuit s)
  let kind := (reqByte s 1).toNat
  if s.station.circuitCount ≤ (reqByte s 2).toNat then 16
  else if kind < 1 ∨ 4 < kind then 17
  else if kind ≤ 2 ∧ ¬((reqByte s 5).toNat ≤ 1 ∧ 1 ≤ (reqByte s 6).toNat ∧ (reqByte s 6).toNat ≤ k.rxSize ∧
      (reqByte s 7).toNat < k.txSize ∧ (kind = 2 → (reqByte s 3).toNat ≤ 31)) then 18
  else if kind ≤ 2 ∧ stateIn k [.listening, .calling, .draining, .clearing] = true then 21
  else if kind ≤ 2 ∧ stateIn k [.opened, .ended] = true then 20
  else if kind = 3 ∧ stateIn k [.free] = true then 20
  else if kind = 3 ∧ stateIn k [.listening, .calling, .draining, .clearing] = true then 21
  else if kind = 1 ∧ ¬((reqByte s 3).toNat ≤ 30 ∧ (s.station.loop = true ∨ (reqByte s 3).toNat ≠ s.station.address.toNat)) then
    19
  else if kind = 1 ∧ s.station.state ≠ .active then 22
  else if kind = 2 ∧ s.station.state = .halted then 22
  else 0

/-- A request that passed its checks was taken: nothing but its circuit, the orphan list, the Notice Unit, the window, the flags a
collision may restore and the take index changes (R154). -/
abbrev requestTaken (s t : State) (c : CircuitNo) : Prop :=
  t = { s with
    circuits := t.circuits
    requests.take := s.requests.take + 1
    orphans := t.orphans
    selector := t.selector
    notice := t.notice
    window := t.window } ∧
  sameCircuits s t c ∧ t.peek 0x0D = s.requests.take + 1

/-- The context that the taking of an OPEN or a LISTEN sets (R60, R61, R99, R111, R124, R149). -/
def takenCircuit (s : State) (c : CircuitNo) (kind : RequestKind) : Circuit :=
  let k := s.circuit c
  let tx := s.peek (recordBase c + 0x30)
  let rx := s.peek (recordBase c + 0x31)
  let taken : Circuit := { k with
    mode := reqMode s
    peer := (reqByte s 3).setWidth 5
    service := reqByte s 4
    rxNotice := reqByte s 6
    txNotice := reqByte s 7
    peerCircuit := none
    peerTag := none
    endCause := .noCause
    initialCredit := min 32 k.rxSize
    lifetime := k.lifetime + 1
    inFlight := some (kind, reqByte s 0)
    postedCopy := tx
    txDone := tx
    releaseCopy := rx
    rxFill := rx
    expectedSeq := 0
    nextSeq := 0
    discardCount := 0
    gapCount := 0
    overrunCount := 0
    unsentCount := 0
    firstGap := none
    dataRetryTimer := none
    probeTimer := none
    rxIdleTimer := none }
  if reqMode s = .assured then
    { taken with
      oldestSeq := 0
      limit := 0
      resendPoint := none
      dataRetryCount := 0
      lastLimit := BitVec.ofNat 6 (min 32 k.rxSize)
      lastCredit := min 32 k.rxSize }
  else taken

/-- The record fields that both takings write, and their values (R99, R111, R124, R135, R149). -/
abbrev takenShows (s t : State) (c : CircuitNo) : Prop :=
  t.peek (recordBase c + 0x01) = (if reqMode s = .plain then 1 else 0) ∧ t.peek (recordBase c + 0x02) = 0 ∧
  t.peek (recordBase c + 0x03) = ((reqByte s 3).setWidth 5).setWidth 8 ∧ t.peek (recordBase c + 0x04) = 0xFF ∧
  t.peek (recordBase c + 0x05) = reqByte s 4 ∧ t.peek (recordBase c + 0x07) = 0xFF ∧
  t.peek (recordBase c + 0x0D) = reqByte s 6 ∧ t.peek (recordBase c + 0x0E) = reqByte s 7 ∧
  t.peek (recordBase c + 0x16) = s.peek (recordBase c + 0x30) ∧
  t.peek (recordBase c + 0x17) = s.peek (recordBase c + 0x31) ∧ shows t (recordBase c + 0x18) 0xFFFF ∧
  (∀ a ∈ recordBytes c [0x1A, 0x1B, 0x1C, 0x1D, 0x1E, 0x1F, 0x20], t.peek a = 0)

/-- The bytes that both takings write. -/
def takenBytes (c : CircuitNo) : List Nat :=
  [0x0D] ++ recordBytes c [0x00, 0x01, 0x02, 0x03, 0x04, 0x05, 0x07, 0x0D, 0x0E, 0x16, 0x17, 0x18, 0x19, 0x1A, 0x1B, 0x1C,
    0x1D, 0x1E, 0x1F, 0x20]

/-- A CONFIRM owed moves to the orphan list when its circuit goes FREE (R79). -/
def movedConfirm (s : State) (c : CircuitNo) : Orphans :=
  if (s.circuit c).controlOwed = some .confirm then
    withOrphan s.station.state s.orphans (s.circuit c).peer ((s.circuit c).peerCircuit.getD 0) (.confirm c)
  else s.orphans

/-! ## Words about losses -/

/-- The circuit's control, ACK and POLL owed are cleared (R56). -/
abbrev owedCleared (k : Circuit) : Circuit := { k with controlOwed := none, ackOwed := false, pollOwed := false }

/-- A circuit after its loss with a cause (R91, R96). -/
def lostWith (k : Circuit) (cause : EndCause) : Circuit :=
  match k.state with
  | .calling => freed k (completedWith k .lost)
  | .opened => endedWith k cause none
  | .draining => freed k (completedWith k .lost)
  | .clearing => freed k (completedWith k .unconfirmed)
  | .listening => if cause = .lostHalted then freed k (completedWith k .lost) else k
  | .ended => k
  | .free => k

/-- The pair that a loss raises (R91). -/
def lossPair (k : Circuit) (c : CircuitNo) (cause : EndCause) : Option NoticePair :=
  match k.state with
  | .opened => some (.circuit c .ended)
  | .calling | .draining | .clearing => if k.inFlight.isSome then some (.circuit c .done) else none
  | .listening => if cause = .lostHalted ∧ k.inFlight.isSome = true then some (.circuit c .done) else none
  | .free | .ended => none

/-- The pairs that the losses of these circuits raise (R91). -/
def lossPairs (before : CircuitNo → Circuit) (lost : CircuitNo → Bool) (cause : EndCause) : List NoticePair :=
  allCircuits.filterMap fun c => if lost c then lossPair (before c) c cause else none

/-- The record bytes that a loss can write. -/
def lossBytes (c : CircuitNo) : List Nat := recordBytes c [0x00, 0x02, 0x08, 0x09, 0x0A, 0x0B, 0x0C, 0x20]

/-- The completion that a loss writes (R91, R96). -/
def lossCompletion (k : Circuit) (cause : EndCause) : Option Completion :=
  match k.state with
  | .calling | .draining => completedWith k .lost
  | .clearing => completedWith k .unconfirmed
  | .listening => if cause = .lostHalted then completedWith k .lost else none
  | .free | .opened | .ended => none

/-- What the record of a lost circuit shows beside its state: the end cause of an OPEN one, the unsent count of a live one, and the
completion of the request in flight (R79, R85, R91). -/
abbrev lossShows (t : State) (c : CircuitNo) (k : Circuit) (cause : EndCause) : Prop :=
  (k.state = .opened → t.peek (recordBase c + 0x02) = cause.code) ∧
  (k.state.live = true → t.peek (recordBase c + 0x20) = k.postedCopy - k.txDone) ∧
  (∀ d ∈ lossCompletion k cause, showsCompletion t c d)

/-- The orphan list after the loss of a live circuit: one that goes FREE moves a CONFIRM it owes there (R79, R91). -/
def lossOrphans (s : State) (c : CircuitNo) : Orphans :=
  if stateIn (s.circuit c) [.draining, .clearing] = true then movedConfirm s c else s.orphans

/-- Every circuit was lost with the cause if it is one of those given; its record shows its state and its loss, and its pair is
told. -/
abbrev lostAll (s t : State) (before : CircuitNo → Circuit) (lost : CircuitNo → Bool) (cause : EndCause) : Prop :=
  ∀ c, t.circuit c = (if lost c then lostWith (before c) cause else before c) ∧
    ((t.circuit c).state ≠ (s.circuit c).state → t.peek (recordBase c) = (t.circuit c).state.code) ∧
    (lost c = true → lossShows t c (before c) cause ∧ ∀ p ∈ lossPair (before c) c cause, told s t t p)

/-- Circuit `c`, which was live, was lost with the cause, and all else in the state is as it was but for the orphan list, the
attention and the window, with no frame in flight (R79, R91). -/
abbrev lostOnly (s t : State) (c : CircuitNo) (cause : EndCause) : Prop :=
  t = { s with circuits := t.circuits, orphans := t.orphans, notice := t.notice, window := t.window } ∧ sameCircuits s t c ∧
  t.circuit c = lostWith (s.circuit c) cause ∧ t.orphans = lossOrphans s c ∧ showsDrops s t ∧
  t.peek (recordBase c) = (t.circuit c).state.code ∧ lossShows t c (s.circuit c) cause ∧
  raisedIfAny s t (lossPair (s.circuit c) c cause) ∧
  sameWindow s t ([0x30, 0x31] ++ lossBytes c ++ raiseBytes s 1)

/-- The roster holds these entries in place of the old ones, with the change counter advanced. -/
abbrev rosterChanged (s t : State) (entries : Nat → RosterEntry) : Prop :=
  t.roster.changeCounter = s.roster.changeCounter + 1 ∧ (∀ a, a < 31 → t.roster.entry a = entries a) ∧
  shows t 0x18 (s.roster.changeCounter + 1)

/-- The station has halted on a duplicate address, and its blocks are as R180 leaves them. -/
abbrev haltedOn (s t : State) : Prop :=
  t.station = { s.station with state := .halted, haltCause := .duplicateAddress, joinTimer := none, muteTimer := none } ∧
  t.line.state = .off ∧ t.line.rxEnable = false ∧ t.line.txEnable = false ∧ t.line.txen = false ∧ t.line.txd = true ∧
  t.arbiter.state = .off ∧ t.arbiter.base = s.station.address ∧ t.arbiter.fullNext = false ∧ t.arbiter.mode = .compressed ∧
  t.arbiter.roundTimer = 0 ∧ t.arbiter.collisions = 0 ∧
  t.selector = { s.selector with rollOwed := false, inFlight := none } ∧
  rosterChanged s t (fun _ => ⟨false, 0⟩) ∧ t.roster.silence = 0 ∧ (∀ a ∈ bytesFrom 0x14 4, t.peek a = 0) ∧
  t.quality.windowTimer = none ∧ t.quality.d = 0 ∧ t.quality.k = 0 ∧ (∀ a ∈ bytesFrom 0x26 4, t.peek a = 0) ∧
  t.requests = s.requests ∧ t.bus = s.bus ∧ t.pending = s.pending ∧
  told s t t (.station .station) ∧ t.peek 0x03 = 5 ∧ t.peek 0x04 = 1

/-! ## Words about rounds -/

/-- How far an address lies beyond B + 1 in ascending rotation (R41, R42). -/
def stepsFrom (base : Address) (a : Nat) : Nat := (a + 30 - base.toNat) % 31

/-- Going up from B, with 0 after 30, address `m` comes after B and before `a` (R41). -/
def strictlyBetween (base : Address) (m a : Nat) : Bool :=
  if base.toNat < a then decide (base.toNat < m ∧ m < a) else decide (base.toNat < m ∨ m < a)

/-- How many present addresses lie strictly after B and strictly before `a` (R41). -/
def membersBefore (r : Roster) (base : Address) (a : Nat) : Nat :=
  (allAddresses.filter fun m => (r.entry m).present && decide (stepsFrom base m < stepsFrom base a)).length

/-- The Turn Arbiter when a round begins (R38, R41, R42, R46). -/
def roundBegun (s : State) (a : Arbiter) : Arbiter :=
  let full := a.fullNext = true ∨ s.quality.level = .poor
  { a with
    state := .round
    mode := if full then .full else .compressed
    fullNext := if full then false else a.fullNext
    positions := if full then 31 else (allAddresses.filter fun m => (s.roster.entry m).present).length
    ownPosition := if full then stepsFrom a.base s.station.address.toNat else membersBefore s.roster a.base s.station.address.toNat
    roundTimer := 0
    turnMade := false }

/-- Circuit `c` has gone FREE with this completion, its CONFIRM moved, and DONE raised if a request completed (R79, R157). -/
abbrev freedIn (s t : State) (c : CircuitNo) (done : Option Completion) : Prop :=
  sameCircuits s t c ∧ t.circuit c = freed (s.circuit c) done ∧ t.orphans = movedConfirm s c ∧ showsDrops s t ∧
  t.peek (recordBase c) = 0 ∧
  ((s.circuit c).state.live = true → t.peek (recordBase c + 0x20) = (s.circuit c).postedCopy - (s.circuit c).txDone) ∧
  (if done.isSome then raisedIn s t (.circuit c .done) else t.notice = s.notice) ∧ (∀ d ∈ done, showsCompletion t c d)

/-! ## Words about received frames -/

/-- The Line Interface after a received frame of these bytes, with the quiet measure from its end (R2, R6, R10). -/
abbrev heardLine (l : Line) (bytes : List Byte) (quiet : Nat := 0) : Line :=
  { l with
    state := .idle
    quiet := quiet
    rxBuffer := bytes.take 261
    rxCount := bytes.length
    rxCheck := checkOf (bytes.take (bytes.length - 2)) }

/-- The bytes are damaged: too few, too many, not as many as the length field says, or with a check that does not fit (R7). -/
def isDamaged (bytes : List Byte) : Bool :=
  !(decide (9 ≤ bytes.length ∧ bytes.length ≤ 261 ∧ bytes.length = 9 + (bytes.getD 6 0).toNat) &&
    checkOf (bytes.take (bytes.length - 2)) ==
      (bytes.getD (bytes.length - 2) 0) ++ (bytes.getD (bytes.length - 1) 0))

/-- The source field of a received frame (R5). -/
def sourceField (bytes : List Byte) : Address := (bytes.getD 1 0).setWidth 5

/-- The bytes are those of a malformed frame (R8). -/
abbrev isMalformed (bytes : List Byte) : Prop := classify false bytes = .malformed (sourceField bytes)

/-- The row of a good frame of each kind. -/
def frameRow (k : Kind) (f : Frame) : Instr :=
  match k with
  | .data => .dataReceived f
  | .ack => .ackReceived f
  | .call => .callReceived f
  | .answer => .answerReceived f
  | .refuse => .refuseReceived f
  | .clear => .clearReceived f
  | .confirm => .confirmReceived f
  | .roll => .rollReceived f

/-- A good frame of this kind, from a peer, ends in HEARING at a station that receives. -/
abbrev hearsFrom (k : Kind) (f : Frame) (s : State) : Prop :=
  s.station.state.receives = true ∧ s.line.state = .hearing ∧ s.arbiter.state = .busy ∧ s.selector.inFlight = none ∧
  keepsRules k f = true ∧ f.src ≠ s.station.address

/-- A good frame of this kind, addressed to this station by a present peer, ends in HEARING. -/
abbrev hears (k : Kind) (f : Frame) (s : State) : Prop :=
  hearsFrom k f s ∧ f.dst = s.station.address ∧ s.roster.isPresent f.src = true

/-- What such a frame does to the blocks other than the Circuit Table, the Transfer Engine and the Notice Unit: it is counted, its
source refreshed, B taken and a round begun (R12, R23, R38, R40, R168); all else there is unchanged. -/
abbrev heardBlocks (k : Kind) (f : Frame) (s t : State) : Prop :=
  t = { s with
    line := heardLine s.line (frameBytes k f)
    quality.goodHeard := s.quality.goodHeard + 1
    roster.entries := t.roster.entries
    arbiter := roundBegun t { s.arbiter with base := f.src }
    circuits := t.circuits
    orphans := t.orphans
    notice := t.notice
    window := t.window } ∧
  (∀ a, a < 31 → t.roster.entry a = if a = f.src.toNat then ⟨true, 0⟩ else s.roster.entry a) ∧
  shows t 0x1E (s.quality.goodHeard + 1)

/-- The bytes every good frame from a present peer writes: good frames heard. -/
def heardBytes : List Nat := [0x1E, 0x1F]

/-- The frame matches a configured circuit in service (R65). -/
abbrev reaches (f : Frame) (s : State) : Prop :=
  f.dstCircuit.val < s.station.circuitCount ∧ (s.circuit f.dstCircuit).peer = f.src ∧
  (s.circuit f.dstCircuit).peerCircuit = some f.srcCircuit

/-- The receive idle timer after a fill: stopped at a DATA_IN, and restarted otherwise (R164, R165). -/
def idleAfterFill (k : Circuit) (f : Frame) : Option Nat :=
  if f.endMark = true ∨ k.rxNotice.toNat ≤ span k.releaseCopy (k.rxFill + 1) then none else some 0

/-- DATA_IN is due at a fill that carries END or reaches the notice level, and at no other (R164). -/
def dataInDue (k : Circuit) (c : CircuitNo) (f : Frame) : List NoticePair :=
  if idleAfterFill k f = none then [.circuit c .dataIn] else []

/-- A slot of the receive ring is free (R111). -/
abbrev hasRoom (k : Circuit) : Prop := span k.releaseCopy k.rxFill < k.rxSize

/-- The offset of the receive slot at rx fill (R141). -/
def fillSlot (k : Circuit) : Nat := k.rxBase.toNat + 256 * (k.rxFill.toNat % k.rxSize)

/-- The receive slot at rx fill holds the segment: length, flags, missing count, sequence and payload (R140). -/
abbrev slotHolds (k : Circuit) (f : Frame) (missing : Nat) (t : State) : Prop :=
  t.peek (fillSlot k) = BitVec.ofNat 8 f.payload.length ∧
  t.peek (fillSlot k + 1) = (if f.endMark then 1 else 0) + (if missing = 0 then 0 else 2) ∧
  t.peek (fillSlot k + 2) = BitVec.ofNat 8 missing ∧ t.peek (fillSlot k + 3) = f.seq.setWidth 8 ∧
  (∀ i, i < f.payload.length → t.peek (fillSlot k + 4 + i) = f.payload.getD i 0)

/-- The bytes of a segment in the receive slot at rx fill. -/
def slotBytes (k : Circuit) (f : Frame) : List Nat := bytesFrom (fillSlot k) (4 + f.payload.length)

/-- The receive side of an assured circuit after a segment (R112, R113, R115). -/
def segmentTaken (k : Circuit) (f : Frame) : Circuit :=
  if f.seq ≠ k.expectedSeq then { k with ackOwed := true }
  else if ¬hasRoom k then { k with discardCount := k.discardCount + 1, ackOwed := true }
  else { k with
    rxFill := k.rxFill + 1
    expectedSeq := k.expectedSeq + 1
    ackOwed := true
    rxIdleTimer := idleAfterFill k f }

/-- The ack of a frame lies in the range that brings progress: from U + 1 to N (R104). -/
abbrev bringsProgress (k : Circuit) (a : Seq) : Prop :=
  1 ≤ distance k.oldestSeq a ∧ distance k.oldestSeq a ≤ distance k.oldestSeq k.nextSeq

/-- The send state after an ack that brings progress, before the drain and the stall are tested (R104). -/
def progressed (k : Circuit) (a credit : Seq) : Circuit :=
  { k with
    txDone := k.txDone + BitVec.ofNat 8 (distance k.oldestSeq a)
    oldestSeq := a
    dataRetryCount := 0
    dataRetryTimer := if k.nextSeq = a then none else some 0
    limit := a + credit
    resendPoint := match k.resendPoint with
      | none => none
      | some r =>
        let moved := if r = k.oldestSeq ∨ before r a = true then a else r
        if moved = k.nextSeq then none else some moved }

/-- The circuit after the ack and the credit of a frame: with progress, then the drain and the stall tested; with ack U, only the
limit moves, and only forward; any other ack is ignored (R81, R104, R105, R109). -/
def ackTaken (k : Circuit) (a credit : Seq) : Circuit :=
  if bringsProgress k a then
    let k1 := progressed k a credit
    if k1.state = .draining ∧ k1.txDone = k1.drainTarget then clearingFrom k1 else { k1 with probeTimer := probeOf k1 }
  else if a = k.oldestSeq then
    let k1 : Circuit := { k with limit := if before k.limit (a + credit) = true then a + credit else k.limit }
    { k1 with probeTimer := probeOf k1 }
  else k

/-- What an ack shows: tx done after progress, CLEARING after a completed drain, and SPACE_OUT where the outstanding slots fall to
the notice level (R104, R166). -/
abbrev ackShows (k : Circuit) (a : Seq) (s t : State) (c : CircuitNo) : Prop :=
  (bringsProgress k a → t.peek (recordBase c + 0x16) = (t.circuit c).txDone ∧
    (k.txNotice.toNat < span k.txDone k.postedCopy ∧ span (t.circuit c).txDone k.postedCopy ≤ k.txNotice.toNat →
      told s t t (.circuit c .spaceOut))) ∧
  ((t.circuit c).state ≠ k.state → t.peek (recordBase c) = 5)

/-- The record bytes that an ack can write. -/
def ackBytes (k : Circuit) (c : CircuitNo) (a : Seq) : List Nat :=
  (if bringsProgress k a then [recordBase c + 0x16] else []) ++ if k.state = .draining then [recordBase c] else []

/-- The receive side of a plain circuit after a segment (R125, R126). -/
def plainTaken (k : Circuit) (f : Frame) : Circuit :=
  if ¬hasRoom k then { k with overrunCount := k.overrunCount + 1 }
  else { k with
    rxFill := k.rxFill + 1
    expectedSeq := f.seq + 1
    rxIdleTimer := idleAfterFill k f
    gapCount := if f.seq = k.expectedSeq then k.gapCount else k.gapCount + 1
    firstGap := if f.seq = k.expectedSeq then k.firstGap else some (k.firstGap.getD k.rxFill) }

/-- The circuit is in OPEN, DRAINING or CLEARING with the frame's source station and source circuit as its peer (R70). -/
def holdsFrame (k : Circuit) (f : Frame) : Bool :=
  stateIn k [.opened, .draining, .clearing] && decide (k.peer = f.src ∧ k.peerCircuit = some f.srcCircuit)

/-- No circuit in OPEN, DRAINING or CLEARING holds the frame's source station and source circuit (R70). -/
abbrev noneHolds (s : State) (f : Frame) : Prop := ∀ c, holdsFrame (s.circuit c) f = false

/-- The circuit is LISTENING for the CALL's service and admits its source (R71). -/
def listensTo (k : Circuit) (f : Frame) : Bool :=
  decide (k.state = .listening ∧ k.service = f.payload.getD 0 0 ∧ (k.peer = f.src ∨ k.peer = 31))

/-- The mode of a CALL (R9). -/
def callerMode (f : Frame) : CircuitMode := if f.payload.getD 1 0 = 1 then .plain else .assured

/-- The frame does not match the circuit it names, or names none that is configured (R65). -/
def isStray (s : State) (f : Frame) : Bool :=
  decide (s.station.circuitCount ≤ f.dstCircuit.val) ||
  match (s.circuit f.dstCircuit).state with
  | .free | .listening => true
  | .calling => decide ((s.circuit f.dstCircuit).peer ≠ f.src)
  | .opened | .draining | .clearing | .ended =>
    decide ((s.circuit f.dstCircuit).peer ≠ f.src ∨ (s.circuit f.dstCircuit).peerCircuit ≠ some f.srcCircuit)

/-- The circuit's state discards a matching frame of this kind, with no effect on the circuit and no reply (R65, R68, R84). -/
def discards (k : Circuit) (kind : Kind) (f : Frame) : Bool :=
  match k.state, kind with
  | .calling, .data | .calling, .ack | .calling, .clear | .calling, .confirm => true
  | .calling, .refuse => decide (f.seq ≠ k.callTag)
  | .opened, .answer | .opened, .refuse | .opened, .confirm => true
  | .draining, .answer | .draining, .refuse | .draining, .confirm => true
  | .clearing, .data | .clearing, .ack | .clearing, .answer | .clearing, .refuse => true
  | .ended, .ack | .ended, .answer | .ended, .refuse | .ended, .confirm => true
  | .ended, .data => decide (k.endCause = .peerCleared)
  | _, _ => false

/-! ## Words about who writes what -/

/-- The commands by which the host writes the window. -/
def isHostWrite : Instr → Bool
  | .hostWrite _ _ _ _ | .go | .restart | .controlOtherValue _ | .requestPostIndexWrite _ | .attentionTakeIndexWrite _ |
    .interruptEnableWrite _ | .txPostIndexWrite _ _ | .rxReleaseIndexWrite _ _ | .gapAck _ _ => true
  | _ => false

/-- The host-owned bytes of the Station Block and of the circuit records (R133, R135). -/
def hostBytes : List Nat := [0x0A, 0x0B, 0x0C, 0x0E] ++ allCircuits.flatMap fun c => recordBytes c [0x30, 0x31, 0x32]

/-! ## Words about turns and own frames -/

/-- The round timer stands at the start of the own position, whose turn has not been made (R39, R43). -/
abbrev atPosition (a : Arbiter) : Prop := a.state = .round ∧ a.turnMade = false ∧ a.roundTimer = 24 + 16 * a.ownPosition

/-- A turn is due and the station may use it (R43). -/
abbrev turnReady (s : State) : Prop :=
  atPosition s.arbiter ∧ s.line.state = .idle ∧ s.line.txEnable = true

/-- The Turn Arbiter when the turn has been made (R43). -/
abbrev turnArbiter (a : Arbiter) : Arbiter := { a with turnMade := true }

/-- The turn's frame was taken for transmission: it is the frame in flight, its first byte is on the line, and the Turn Arbiter is
BUSY (R4, R14, R18, R37, R52). -/
abbrev starts (s t : State) (f : FlightFrame) : Prop :=
  t = { s with
    selector.inFlight := some f
    line := { s.line with
      state := .sending
      quiet := 0
      driven := [f.kind.code ++ f.header.dst]
      txBit := 0
      txCheck := checkByte 0xFFFF (f.kind.code ++ f.header.dst)
      txen := !s.station.loop
      txd := s.station.loop }
    arbiter := { turnArbiter s.arbiter with state := .busy }
    circuits := t.circuits
    orphans := t.orphans }

/-- The header of a frame from circuit `c` to its peer circuit (R62, R73, R82, R101). -/
def frameOf (s : State) (c : CircuitNo) (dstCircuit : CircuitNo) (seq ack credit : Seq) (endMark poll : Bool) : Frame :=
  ⟨(s.circuit c).peer, s.station.address, endMark, poll, dstCircuit, c, seq, ack, credit, []⟩

/-- The owner of a frame of circuit `c` in its present lifetime. -/
abbrev ownedBy (s : State) (c : CircuitNo) : FrameOwner := .circuit c (s.circuit c).lifetime

/-- The initial credit that a CALL or an ANSWER carries (R62, R73). -/
def openingCredit (k : Circuit) : Seq := if k.mode = .assured then BitVec.ofNat 6 k.initialCredit else 0

/-- The circuit is a candidate with a control frame (R50). -/
def controlOf (k : Circuit) : Option ControlKind :=
  match k.controlOwed with
  | some .clear => if k.state = .clearing then some .clear else none
  | x => x

/-- No circuit owes a control frame, and the orphan list is empty. -/
abbrev noControl (s : State) : Prop := (∀ c, controlOf (s.circuit c) = none) ∧ s.orphans.entries = []

/-- The circuit owes a CALL (R62). -/
def owesCall (k : Circuit) : Bool := decide (k.state = .calling) && k.callOwed

/-- Ranks 1 and 2 have no candidate. -/
abbrev noCall (s : State) : Prop := noControl s ∧ ∀ c, owesCall (s.circuit c) = false

/-- The circuit has a resend point to send from (R108). -/
def resendOf (k : Circuit) : Option Seq := if k.mode = .assured ∧ k.state.transfers = true then k.resendPoint else none

/-- The circuit has a new segment it may send: a posted slot that is unsent, and before the drain target, and in assured mode room
in the window and below the limit (R100, R121). -/
def maySend (k : Circuit) : Bool :=
  k.state.transfers && k.hasUnsent &&
    (decide (k.mode = .plain) || (decide (distance k.oldestSeq k.nextSeq < 8) && before k.nextSeq k.limit))

/-- The place of a circuit in the search of rank 4: from the rotation pointer up, and then from circuit 0 (R51). -/
def rotationRank (s : State) (c : CircuitNo) : Nat := if s.selector.pointer ≤ c.val then c.val else c.val + 16

/-- The offset of the transmit slot of a sequence (R98, R120, R141). -/
def sendSlot (k : Circuit) (seq : Seq) : Nat :=
  k.txBase.toNat +
    256 * ((k.txDone + if k.mode = .assured then BitVec.ofNat 8 (distance k.oldestSeq seq) else 0).toNat % k.txSize)

/-- The credit the circuit would announce (R114). -/
def roomNow (k : Circuit) : Nat := min 32 (k.rxSize - span k.releaseCopy k.rxFill)

/-- A DATA of circuit `c` (R101, R120). -/
def dataOf (s : State) (c : CircuitNo) (seq : Seq) (use : FrameUse) : FlightFrame :=
  let k := s.circuit c
  let slot := sendSlot k seq
  let assured : Bool := decide (k.mode = .assured)
  ⟨use, ownedBy s c, .data,
    frameOf s c (k.peerCircuit.getD 0) seq (if assured then k.expectedSeq else 0)
      (if assured then BitVec.ofNat 6 (roomNow k) else 0) ((s.peek (slot + 1)).getLsbD 0) false,
    .slot (slot + 4) (s.peek slot), ⟨none, false, k.ackOwed, false⟩⟩

/-- The circuit may send a standalone ACK (R117). -/
def owesAck (k : Circuit) : Bool := decide (k.mode = .assured) && k.state.transfers && (k.ackOwed || k.pollOwed)

/-- The ROLL of the station (R27). -/
def rollOf (s : State) : FlightFrame :=
  let m := s.roster.presentSet
  ⟨.roll, .roster, .roll, ⟨31, s.station.address, false, false, 0, 0, 0, 0, 0, []⟩,
    .literal [m.setWidth 8, (m >>> 8).setWidth 8, (m >>> 16).setWidth 8, (m >>> 24).setWidth 8], ⟨none, false, false, false⟩⟩

/-- The line after the end of an own frame: the driver released, nothing in progress, and the quiet measure from there. -/
abbrev releasedLine (l : Line) (quiet : Nat) : Line :=
  { l with state := .idle, quiet := quiet, driven := [], txBit := 0, txen := false, txd := true }

/-- The bytes of a frame's payload on the line. -/
def payloadSize (f : FlightFrame) : Nat :=
  match f.payload with
  | .literal bytes => bytes.length
  | .slot _ length => length.toNat

/-- The seven header bytes of a frame (R5). -/
def headerOnLine (f : FlightFrame) : List Byte :=
  [f.kind.code ++ f.header.dst,
    (0 : BitVec 1) ++ BitVec.ofBool f.header.poll ++ BitVec.ofBool f.header.endMark ++ f.header.src,
    BitVec.ofNat 8 (f.header.dstCircuit.val + 16 * f.header.srcCircuit.val), f.header.seq.setWidth 8,
    f.header.ack.setWidth 8, f.header.credit.setWidth 8, BitVec.ofNat 8 (payloadSize f)]

/-- Byte `i` of a frame's header and payload, a slot's bytes as the window now holds them (R5, R14). -/
def ownByte (s : State) (f : FlightFrame) (i : Nat) : Byte :=
  if i < 7 then (headerOnLine f).getD i 0
  else
    match f.payload with
    | .literal bytes => bytes.getD (i - 7) 0
    | .slot offset _ => s.peek (offset + (i - 7))

/-- The level of bit `n` of a frame of `k` bytes, in the byte `b` (R1). -/
def lineLevel (n k : Nat) (b : Byte) : Bool :=
  if n % 10 = 0 then false else if n % 10 = 9 then decide (n / 10 + 1 < k) else b.getLsbD (n % 10 - 1)

/-- The own frame one bt on (R1, R2, R10, R14, R18): its next bit and, at each tenth, its next byte with the check over what is driven;
a transition of TXD restarts the quiet measure, and in loop test, where TXD stays 1, the line is busy. -/
abbrev drivenOn (s t : State) (f : FlightFrame) : Prop :=
  t.line = { s.line with
    txBit := min (10 * (9 + payloadSize f)) (s.line.txBit + 1)
    txd := t.line.txd
    driven := t.line.driven
    txCheck := t.line.txCheck
    quiet := if s.station.loop = true ∨ t.line.txd ≠ s.line.txd then 0 else min 20 (s.line.quiet + 1) } ∧
  (10 * (9 + payloadSize f) ≤ s.line.txBit + 1 →
    t.line.txd = s.line.txd ∧ t.line.driven = s.line.driven ∧ t.line.txCheck = s.line.txCheck) ∧
  (s.line.txBit + 1 < 10 * (9 + payloadSize f) →
    t.line.txd = (s.station.loop || lineLevel (s.line.txBit + 1) (9 + payloadSize f) (t.line.driven.getLastD 0)) ∧
    if (s.line.txBit + 1) % 10 ≠ 0 then t.line.driven = s.line.driven ∧ t.line.txCheck = s.line.txCheck
    else if s.line.driven.length < 7 + payloadSize f then
      t.line.driven = s.line.driven ++ [ownByte t f s.line.driven.length] ∧
      t.line.txCheck = checkByte s.line.txCheck (ownByte t f s.line.driven.length)
    else
      t.line.driven = s.line.driven ++
        [if s.line.driven.length = 7 + payloadSize f then (s.line.txCheck >>> 8).setWidth 8 else s.line.txCheck.setWidth 8] ∧
      t.line.txCheck = s.line.txCheck)

/-- The frame was built for the circuit as it now stands: not FREE since, and of the same lifetime (R54). -/
def stillOf (s : State) (c : CircuitNo) (life : Nat) : Bool :=
  decide ((s.circuit c).state ≠ .free ∧ (s.circuit c).lifetime = life)

/-- A sent ack and credit become the last announced ones (R114). -/
abbrev announcedBy (k : Circuit) (f : FlightFrame) : Circuit :=
  { k with lastCredit := f.header.credit.toNat, lastLimit := f.header.ack + f.header.credit }

/-- The circuit after the sent report of its own frame, in the state it is then in (R54, R63, R82, R103, R108, R114, R122). -/
def afterSent (k : Circuit) (f : FlightFrame) : Circuit :=
  match f.use, k.state with
  | .control .clear, .clearing | .call, .calling => { k with sendCount := k.sendCount + 1, retryTimer := some 0 }
  | .newData, .opened | .newData, .draining =>
    if k.mode = .assured then
      let k1 : Circuit := { announcedBy k f with
        nextSeq := k.nextSeq + 1
        dataRetryTimer := some (k.dataRetryTimer.getD 0) }
      { k1 with probeTimer := probeOf k1 }
    else
      let k1 : Circuit := { k with nextSeq := k.nextSeq + 1, txDone := k.txDone + 1 }
      if k1.state = .draining ∧ k1.txDone = k1.drainTarget then clearingFrom k1 else k1
  | .resend q, .opened | .resend q, .draining =>
    { announcedBy k f with
      resendPoint := if k.resendPoint = some q then (if q + 1 = k.nextSeq then none else some (q + 1)) else k.resendPoint }
  | .ack, .opened | .ack, .draining => announcedBy k f
  | _, _ => k

/-- The circuit after the collided report of its own frame: what the start discharged is owed again, where it has not been cleared
since (R53, R54). -/
def afterCollided (k : Circuit) (d : Discharged) : Circuit :=
  { k with
    controlOwed := k.controlOwed.or d.control
    callOwed := k.callOwed || d.call
    ackOwed := k.ackOwed || d.ack
    pollOwed := k.pollOwed || d.poll }

/-- The outcome of a frame's sent report without loop test, followed in loop test, on a line that is quiet from there on, by its looped
copy (R18). -/
def withLoopedCopy (o : Host.Outcome State Fault Refusal) (bytes : List Byte) : Host.Outcome State Fault Refusal :=
  match o with
  | .next u => .next (({ u with station.loop := true, line.quiet := 20 } : State).loopedCopy bytes)
  | x => x

/-- The outcome of a collided report in JOINING, followed by the muting that a count of 16 brings in ACTIVE (R49, R179). -/
def thenMuted (o : Host.Outcome State Fault Refusal) : Host.Outcome State Fault Refusal :=
  match o with
  | .next u => exec .enterMuted { u with station.state := .active }
  | x => x

/-! ## Words about Station Control -/

/-- The base of circuit `c`'s transmit ring: 0x1000 and 256 for every slot of the rings before it (R176). -/
def ringStart (s : State) (c : Nat) : Nat :=
  0x1000 + 256 * ((List.range c).map fun d =>
    2 ^ (s.peek (0x0810 + 2 * d)).toNat + 2 ^ (s.peek (0x0811 + 2 * d)).toNat).sum

/-- The slots that the rings of the circuits below `n` take (R175). -/
def slotsTaken (s : State) (n : Nat) : Nat :=
  ((List.range n).map fun d => 2 ^ (s.peek (0x0810 + 2 * d)).toNat + 2 ^ (s.peek (0x0811 + 2 * d)).toNat).sum

/-- The size codes of the circuits below the count lie in 0 to 5 (R175). -/
def codesFit (s : State) (n : Nat) : Bool :=
  (List.range n).all fun d =>
    decide ((s.peek (0x0810 + 2 * d)).toNat ≤ 5) && decide ((s.peek (0x0811 + 2 * d)).toNat ≤ 5)

/-- The start status that the Start Block's checks give, in their order (R175). -/
def startOutcome (s : State) : StartStatus :=
  let n := (s.peek 0x0800).toNat
  if n < 1 ∨ 16 < n then .badCount
  else if codesFit s n = false then .badSize
  else if 240 < slotsTaken s n then .noRoom
  else if (s.peek 0x0801).toNat < 1 ∨ 8 < (s.peek 0x0801).toNat then .badStep
  else if 3 < (s.peek 0x0802).toNat then .badWindow
  else if (s.peek 0x0804).toNat ≤ (s.peek 0x0803).toNat then .badThreshold
  else .ok

/-- What the start pass leaves in the window below 0x0500: the table of R133 and the circuit records of zeros (R174). -/
def startValue (st : Station) (a : Nat) : Byte :=
  match a with
  | 0x00 => 0x16
  | 0x01 => 0x4D
  | 0x02 => 0x01
  | 0x03 => if st.address = 31 then 5 else 1
  | 0x04 => if st.address = 31 then 2 else 0
  | 0x05 => st.address.setWidth 8
  | 0x06 => st.rate.setWidth 8
  | 0x07 => if st.loop then 1 else 0
  | _ => 0

/-- Which field of the start pass, in the model's order, the byte at an offset below 0x0500 is part of (R174, log 16). -/
def passField (a : Nat) : Nat :=
  if a = 0x03 then 0 else if a < 2 then 1 else if a = 2 then 2 else if a < 0x14 then a - 1 else 19 + (a - 0x14) / 2

/-- What the start pass itself writes to a byte, before the state and the halt cause of its end (R174). -/
def passValue (st : Station) (a : Nat) : Byte := if a = 0x03 ∨ a = 0x04 then 0 else startValue st a

/-- A circuit at pin reset, as the closing rules give it (R78, R97, R119, R128, R152). -/
abbrev pinResetCircuit (k : Circuit) : Prop :=
  k.state = .free ∧ k.callTag = 0 ∧ k.retryTimer = none ∧ k.sendCount = 0 ∧ k.callOwed = false ∧ k.lifetime = 0 ∧
  k.inFlight = none ∧ k.controlOwed = none ∧ k.ackOwed = false ∧ k.pollOwed = false ∧ k.drainTarget = 0 ∧
  k.endCause = .noCause ∧ k.unsentCount = 0 ∧ k.nextSeq = 0 ∧ k.oldestSeq = 0 ∧ k.limit = 0 ∧ k.resendPoint = none ∧
  k.dataRetryCount = 0 ∧ k.dataRetryTimer = none ∧ k.probeTimer = none ∧ k.rxIdleTimer = none ∧ k.expectedSeq = 0 ∧
  k.lastLimit = 0 ∧ k.lastCredit = 0 ∧ k.postedCopy = 0 ∧ k.releaseCopy = 0 ∧ k.txDone = 0 ∧ k.rxFill = 0

/-- A circuit after a restart: FREE, its timers stopped, nothing owed and its ring partition given up, with the call tag and lifetime
kept (R78, R97, R119, R181). -/
abbrev restartedCircuit (before after : Circuit) : Prop :=
  after.state = .free ∧ after.callTag = before.callTag ∧ after.lifetime = before.lifetime ∧ after.retryTimer = none ∧
  after.sendCount = 0 ∧ after.callOwed = false ∧ after.inFlight = none ∧ after.controlOwed = none ∧
  after.ackOwed = false ∧ after.pollOwed = false ∧ after.dataRetryTimer = none ∧ after.probeTimer = none ∧
  after.rxIdleTimer = none ∧ after.completion = before.completion ∧
  after.txBase = 0 ∧ after.txSize = 0 ∧ after.rxBase = 0 ∧ after.rxSize = 0

/-- The blocks that pin reset and restart both bring to the same values (R19, R35, R55, R56, R76, R167, R172). -/
abbrev blocksReset (s t : State) : Prop :=
  t.line.state = .off ∧ t.line.rxBuffer = [] ∧ t.line.rxCount = 0 ∧ t.line.rxEnable = false ∧ t.line.txEnable = false ∧
  t.line.txen = false ∧ t.line.txd = true ∧ t.line.quiet = s.line.quiet ∧
  t.arbiter.state = .off ∧ t.arbiter.base = (if s.station.address = 31 then 0 else s.station.address) ∧
  t.arbiter.fullNext = false ∧ t.arbiter.mode = .compressed ∧ t.arbiter.roundTimer = 0 ∧ t.arbiter.collisions = 0 ∧
  t.selector = ⟨0, false, none⟩ ∧
  (∀ a, a < 31 → t.roster.entry a = ⟨false, 0⟩) ∧ t.roster.silence = 0 ∧ t.roster.changeCounter = 0 ∧
  t.orphans = ⟨[], 0⟩ ∧
  t.requests.postCopy = 0 ∧ t.requests.take = 0 ∧ t.requests.refusal = ⟨0, 0, 0, 0⟩ ∧ t.requests.refusalCount = 0 ∧
  t.notice.fill = 0 ∧ t.notice.sequence = 0 ∧ t.notice.takeCopy = 0 ∧ t.notice.held = [] ∧ t.notice.waiting = [] ∧
  t.notice.irq = false ∧
  t.quality = ⟨.good, 0, 0, 0, 0, 0, 0, 0, false, false, false, none, none⟩

/-! ## Words about bit times -/

/-- The happening falls due in the bit time in which `s` becomes `t` (R2, R6, R15, R16, R24, R28, R39, R43, R64, R83, R107, R110,
R154, R165, R169, R174, R178, R179). -/
def fallsDue (s t : State) : Instr → Prop
  | .startPassEnd => ∃ n, t.station.startPass = some n ∧ 649 ≤ n
  | .frameSent => s.line.state = .sending ∧ ∃ f ∈ s.selector.inFlight, s.line.txBit + 1 = 10 * (9 + payloadSize f)
  | .frameTruncated bytes =>
    s.line.state = .hearing ∧ s.station.loop = false ∧ s.line.quiet = 19 ∧ bytes = s.line.rxBuffer
  | .frameCollided => s.line.state = .stopped ∧ s.station.loop = false ∧ s.line.quiet = 19
  | .lineSettled => s.line.state = .settling ∧ s.line.quiet = 19
  | .peerAgedOut a => s.station.state.receives = true ∧ a ≠ s.station.address ∧ s.roster.isPresent a = true ∧
    (s.roster.entry a.toNat).age = 262143
  | .callRetryExpiry c => (s.circuit c).state = .calling ∧ (s.circuit c).retryTimer = some 131071
  | .clearRetryExpiry c => (s.circuit c).state = .clearing ∧ (s.circuit c).retryTimer = some 131071
  | .dataRetryExpiry c => (s.circuit c).dataRetryTimer = some 131071
  | .probeExpiry c => (s.circuit c).probeTimer = some 131071
  | .rxIdleExpiry c => (s.circuit c).rxIdleTimer = some 16383
  | .joinTimerExpiry => s.station.joinTimer = some 65535
  | .muteTimerExpiry => s.station.muteTimer = some 262143
  | .silenceTimerExpiry => s.station.state = .active ∧ s.roster.silence = 32767
  | .qualityWindowEnd => ∃ q ∈ s.quality.params, ∃ n ∈ s.quality.windowTimer, n + 1 = 65536 * 2 ^ q.exponent
  | .turn => atPosition t.arbiter ∧ ¬atPosition s.arbiter
  | .silentRoundEnd => s.arbiter.state = .round ∧ s.arbiter.roundTimer + 1 = 24 + 16 * s.arbiter.positions
  | i => waits t ∧ i = requestRow (reqByte t 1)

end Sys2Proof.Claims

section

open Sys2Proof Sys2Proof.Machine Sys2Proof.Safety Sys2Proof.Claims

/-! ## The queue -/

/-- A step takes the command at the front of the queue and runs it on the state with the queue's rest. -/
def Obligations.StepRunsTheFrontCommand : Prop :=
  ∀ (s : State) (c : Instr) (rest : List Instr),
    step { s with pending := c :: rest } = exec c { s with pending := rest }

/-- With no command waiting one bit time passes (the model's choice, logs 3 and 5): the running timers count one bt up to their
limits, the round timer to the length of a silent round and the quality window timer to W; the quiet measure counts wherever receive
is enabled, and a transition of the own driver restarts it; the own frame moves on by one bit; a start pass writes one field (log 16).
The happenings that fall due, and no others, join the queue, each once. All else stays: the orphan list, the queues of the Notice and
Request Units and, with no start pass, the window. -/
def Obligations.IdleStepIsOneBitTime : Prop :=
  ∀ s : State, s.pending = [] →
    ∃ t, step s = .next t ∧
      (∀ c, t.circuit c = { s.circuit c with
        retryTimer := (s.circuit c).retryTimer.map fun n => min 131072 (n + 1)
        dataRetryTimer := (s.circuit c).dataRetryTimer.map fun n => min 131072 (n + 1)
        probeTimer := (s.circuit c).probeTimer.map fun n => min 131072 (n + 1)
        rxIdleTimer := (s.circuit c).rxIdleTimer.map fun n => min 16384 (n + 1) }) ∧
      t.roster = { s.roster with
        entries := t.roster.entries
        silence := if s.station.state = .active then min 32768 (s.roster.silence + 1) else s.roster.silence } ∧
      (∀ a, a < 31 → t.roster.entry a =
        if s.station.state.receives = true ∧ (s.roster.entry a).present = true ∧ a ≠ s.station.address.toNat then
          ⟨true, min 262144 ((s.roster.entry a).age + 1)⟩
        else s.roster.entry a) ∧
      t.station = { s.station with
        joinTimer := s.station.joinTimer.map fun n => min 65536 (n + 1)
        muteTimer := s.station.muteTimer.map fun n => min 262144 (n + 1)
        startPass := s.station.startPass.map fun n => if n < 649 then n + 1 else n } ∧
      t.arbiter = (if s.arbiter.state = .round then
          { s.arbiter with roundTimer := min (24 + 16 * s.arbiter.positions) (s.arbiter.roundTimer + 1) }
        else s.arbiter) ∧
      t.quality = { s.quality with
        windowTimer := match s.quality.params with
          | some q => s.quality.windowTimer.map fun n => min (65536 * 2 ^ q.exponent) (n + 1)
          | none => s.quality.windowTimer } ∧
      (s.line.state = .off → t.line = s.line) ∧
      (s.line.state = .settling ∨ s.line.state = .idle ∨ s.line.state = .hearing ∨ s.line.state = .stopped →
        t.line = { s.line with quiet := min 20 (s.line.quiet + 1) }) ∧
      (s.line.state = .sending → ∀ f ∈ s.selector.inFlight, drivenOn s t f) ∧
      (∀ i, i ∈ t.pending ↔ fallsDue s t i) ∧ t.pending.Nodup ∧
      t.orphans = s.orphans ∧ t.requests = s.requests ∧ t.notice = s.notice ∧
      t.selector = s.selector ∧ t.bus = s.bus ∧ t.choices = s.choices ∧ t.landed = s.landed ∧
      (s.station.startPass = none → t.window = s.window) ∧
      (MemoryLaw s → ∀ n ∈ s.station.startPass, ∀ a, a < 65536 →
        t.peek a = if a < 0x0500 ∧ passField a = n then passValue s.station a else s.peek a)

/-! ## Station Control -/

/-- RESET_PIN_LOW takes every block to its pin-reset values and writes nothing into the window (R19, R173). That the blocks take
these values at the fall of the pin is the model's reading (log 20). -/
def Obligations.PinResetStopsEveryBlock : Prop :=
  ∀ s : State, ∃ t, exec .resetPinLow s = .next t ∧
    t.station.state = .reset ∧ t.station.resetLow = true ∧ t.station.startPass = none ∧ t.station.haltCause = .noCause ∧
    t.station.startStatus = .noStatus ∧ t.station.circuitCount = 0 ∧ t.station.creditStep = none ∧
    t.station.joinTimer = none ∧ t.station.muteTimer = none ∧
    t.station.address = s.station.address ∧ t.station.rate = s.station.rate ∧ t.station.loop = s.station.loop ∧
    blocksReset s t ∧ t.notice.irqEnable = false ∧ (∀ c, pinResetCircuit (t.circuit c)) ∧
    t.window = s.window ∧ t.bus = s.bus ∧ t.choices = s.choices ∧ t.landed = s.landed ∧ t.pending = s.pending

/-- RESET_RELEASE latches the straps and begins the start pass, the station staying in RESET (R173); START_PASS_END leaves what
the pass writes in the window, and enters CONFIG, or HALTED with BAD_STRAP (R174). That the row completes a pass which idle
steps may have begun, whose fields it then leaves as they stand but for the state and the halt cause, and the order of the fields are
the model's choice (log 16). -/
def Obligations.StartPassLatchesWritesAndEnters : Prop :=
  (∀ (s : State) (address : Address) (rate : BitVec 2) (loop : Bool), s.station.state = .reset → s.station.resetLow = true →
    exec (.resetRelease address rate loop) s = .next { s with
      station.address := address
      station.rate := rate
      station.loop := loop
      station.resetLow := false
      station.startPass := some 0
      arbiter.base := if address = 31 then 0 else address }) ∧
  (∀ (s : State) (n : Nat), MemoryLaw s → s.station.state = .reset → s.station.startPass = some n →
    ∃ t, exec .startPassEnd s = .next t ∧
      t = { s with
        station.startPass := none
        station.state := if s.station.address = 31 then .halted else .config
        station.haltCause := if s.station.address = 31 then .badStrap else s.station.haltCause
        window := t.window } ∧
      t.peek 0x03 = (if s.station.address = 31 then 5 else 1) ∧
      (s.station.address = 31 → t.peek 0x04 = 2) ∧
      (∀ a, a < 0x0500 → n ≤ passField a → t.peek a = startValue s.station a) ∧
      (∀ a, a < 0x0500 → passField a < n → a ≠ 0x03 → a ≠ 0x04 ∨ s.station.address ≠ 31 → t.peek a = s.peek a) ∧
      sameRange s t 0x0500 65536)

/-- A write of CONTROL that is neither a GO in CONFIG nor a RESTART outside RESET changes nothing but CONTROL itself, which is
written back but in RESET (R145). A GO taken in CONFIG whose Start Block fails a check writes the start status of the first check that
fails, and nothing else (R175). The write-back leaves 0, unless a later write of CONTROL stands in memory, whose value then stays until
that write is taken (R145). Where such a write waits of which it is open whether it has reached memory, a number of the waiting host
writes has, whole and in their order (R130), and the command does what it does where just those wait; the number, and that a watched
read or a fall of RESET holds back the writes behind it, are the model's choice (log 11). -/
def Obligations.ControlWritesThatStartNothing : Prop :=
  (∀ (s : State) (v : Byte) (i : Instr), MemoryLaw s → s.station.state = .reset ∨ openWrites s = false →
    (i = .controlOtherValue v ∧ v ≠ 0x5A ∧ v ≠ 0xA5) ∨
    (i = .go ∧ v = 0x5A ∧ s.station.state ≠ .config) ∨
    (i = .restart ∧ v = 0xA5 ∧ s.station.state = .reset) →
    ∃ t, exec i s = .next t ∧ t = { s with landed := s.landed - 1, window := t.window } ∧ sameWindow s t [0x0A] ∧
      if s.station.state = .reset then landsAt s t 0x0A v else writtenBack s t) ∧
  (∀ s : State, MemoryLaw s → s.station.state = .config → openWrites s = false → startOutcome s ≠ .ok →
    ∃ t, exec .go s = .next t ∧
      t = { s with station.startStatus := startOutcome s, landed := s.landed - 1, window := t.window } ∧
      sameWindow s t [0x08, 0x0A] ∧ t.peek 0x08 = (startOutcome s).code ∧ writtenBack s t) ∧
  (∀ (s : State) (v : Byte) (i : Instr), s.station.state ≠ .reset → openWrites s = true →
    (i = .controlOtherValue v) ∨ (i = .go ∧ v = 0x5A) ∨ (i = .restart ∧ v = 0xA5) →
    ∃ n, n ≤ (writesToLand s).length ∧ openWrites (standing (withLanded s v n)) = false ∧
      ∃ t, exec i (standing (withLanded s v n)) = .next t ∧ exec i s = .next { t with pending := s.pending })

/-- A GO taken in CONFIG whose Start Block passes lays out the rings one after another from 0x1000, takes the count, the credit step
and the quality parameters, and enters JOINING (R175, R176, R178); the records of circuits at and above the count are not written
(R176), and the mirror shows the own address present (R35). A later write of CONTROL of which it is open whether it has reached memory
is the case of another statement, to which this one then applies (log 11). -/
def Obligations.GoAcceptedEntersJoining : Prop :=
  ∀ s : State, MemoryLaw s → s.station.state = .config → openWrites s = false → s.station.address ≠ 31 → startOutcome s = .ok →
    ∃ t, exec .go s = .next t ∧
      t.station = { s.station with
        state := .joining
        startStatus := .ok
        circuitCount := (s.peek 0x0800).toNat
        creditStep := some (s.peek 0x0801).toNat
        joinTimer := some 0 } ∧
      (∀ c : CircuitNo, t.circuit c =
        if c.val < (s.peek 0x0800).toNat then
          { s.circuit c with
            txBase := BitVec.ofNat 16 (ringStart s c.val)
            txSize := 2 ^ (s.peek (0x0810 + 2 * c.val)).toNat
            rxBase := BitVec.ofNat 16 (ringStart s c.val + 256 * 2 ^ (s.peek (0x0810 + 2 * c.val)).toNat)
            rxSize := 2 ^ (s.peek (0x0811 + 2 * c.val)).toNat }
        else s.circuit c) ∧
      (∀ c : CircuitNo, c.val < (s.peek 0x0800).toNat →
        shows t (recordBase c + 0x10) (t.circuit c).txBase ∧ t.peek (recordBase c + 0x12) = BitVec.ofNat 8 (t.circuit c).txSize ∧
        t.peek (recordBase c + 0x13) = BitVec.ofNat 8 (t.circuit c).rxSize ∧ shows t (recordBase c + 0x14) (t.circuit c).rxBase) ∧
      t.line.state = .settling ∧ t.line.quiet = 0 ∧ t.line.rxEnable = true ∧ t.line.txEnable = true ∧ t.line.txen = false ∧
      t.arbiter = { s.arbiter with
        state := .waiting
        base := s.station.address
        fullNext := true
        mode := .full
        roundTimer := 0
        collisions := 0 } ∧
      t.roster = { s.roster with
        entries := t.roster.entries
        silence := 0
        changeCounter := s.roster.changeCounter + 1 } ∧
      (∀ a, a < 31 → t.roster.entry a = if a = s.station.address.toNat then ⟨true, 0⟩ else s.roster.entry a) ∧
      t.quality = { s.quality with
        windowTimer := some 0
        params := some ⟨(s.peek 0x0802).toNat, (s.peek 0x0803).toNat, (s.peek 0x0804).toNat⟩ } ∧
      told s t { t with station := s.station } (.station .roster) ∧ told s t t (.station .station) ∧
      raisedOnly s t [.station .roster, .station .station] ∧
      t.selector = ⟨0, false, none⟩ ∧ t.orphans = s.orphans ∧ t.requests = s.requests ∧ t.bus = s.bus ∧
      t.choices = s.choices ∧ t.landed = s.landed - 1 ∧ t.pending = s.pending ∧
      t.peek 0x03 = 2 ∧ t.peek 0x08 = 1 ∧ t.peek 0x09 = s.peek 0x0800 ∧ writtenBack s t ∧
      mirrorShows t s.station.address ∧ isPresentSet t.roster.presentSet t.roster ∧ shows t 0x18 t.roster.changeCounter ∧
      sameWindow s t ([0x03, 0x08, 0x09, 0x0A] ++ mirrorBytes s.station.address ++ raiseBytes s 2 ++
        (allCircuits.filter fun c => decide (c.val < (s.peek 0x0800).toNat)).flatMap fun c =>
          recordBytes c [0x10, 0x11, 0x12, 0x13, 0x14, 0x15])

/-- A RESTART taken outside RESET brings every block to its restart values and the station to CONFIG, or to HALTED with
BAD_STRAP when the latched address is 31; every circuit is FREE and its ring partition given up; the straps, the host-owned fields,
the records but for their state fields and all memory from 0x0500 on are kept (R19, R181). What a restart keeps beyond the spec's
words is the model's reading (log 19). A later write of CONTROL of which it is open whether it has reached memory is the case of another
statement, to which this one then applies (log 11). -/
def Obligations.RestartReturnsToConfig : Prop :=
  ∀ s : State, MemoryLaw s → s.station.state ≠ .reset → openWrites s = false →
    ∃ t, exec .restart s = .next t ∧
      t.station = { s.station with
        state := if s.station.address = 31 then .halted else .config
        haltCause := if s.station.address = 31 then .badStrap else .noCause
        startStatus := .noStatus
        circuitCount := 0
        creditStep := none
        joinTimer := none
        muteTimer := none } ∧
      blocksReset s t ∧ t.notice.irqEnable = s.notice.irqEnable ∧
      (∀ c, restartedCircuit (s.circuit c) (t.circuit c)) ∧
      t.bus = s.bus ∧ t.choices = s.choices ∧ t.landed = s.landed - 1 ∧ t.pending = s.pending ∧ writtenBack s t ∧
      t.peek 0x03 = (if s.station.address = 31 then 5 else 1) ∧ t.peek 0x04 = (if s.station.address = 31 then 2 else 0) ∧
      (∀ a ∈ [0x08, 0x09, 0x0D, 0x0F, 0x10, 0x11, 0x12, 0x13] ++ bytesFrom 0x14 30, t.peek a = 0) ∧
      (∀ c : CircuitNo, c.val < s.station.circuitCount → t.peek (recordBase c) = 0) ∧
      sameWindow s t ([0x03, 0x04, 0x08, 0x09, 0x0A, 0x0D, 0x0F, 0x10, 0x11, 0x12, 0x13] ++ bytesFrom 0x14 30 ++
        (allCircuits.filter fun c => decide (c.val < s.station.circuitCount)).map recordBase)

/-! ## The host window -/

/-- A host write changes the bytes its byte enables choose, and nothing else, where neither is watched (R129, R130); one that has
reached memory before its command only gives up its place among those that have (the model's count, log 11). -/
def Obligations.HostWriteChangesOnlyItsBytes : Prop :=
  ∀ (s : State) (w : BitVec 15) (be1 be0 : Bool) (data : Half), MemoryLaw s →
    (be0 = true → watchedRow (2 * w.toNat) 0 = none) → (be1 = true → watchedRow (2 * w.toNat + 1) 0 = none) →
    ∃ t, exec (.hostWrite w be1 be0 data) s = .next t ∧ t = { s with landed := s.landed - 1, window := t.window } ∧
      (be0 = true → landsAt s t (2 * w.toNat) (data.setWidth 8)) ∧
      (be1 = true → landsAt s t (2 * w.toNat + 1) ((data >>> 8).setWidth 8)) ∧
      sameWindow s t ((if be0 then [2 * w.toNat] else []) ++ if be1 then [2 * w.toNat + 1] else [])

/-- A host write of a watched byte is the command of its row; of two watched bytes both reach memory in one access, and each is then
taken once, in either order (R130, R144). The counter of free values, which the model draws the order from, is its own (log 12), and so
is the count of the writes that stand in memory before their commands (log 11). -/
def Obligations.WatchedWritesAreTheirRows : Prop :=
  (∀ (s : State) (w : BitVec 15) (data : Half), ∀ i ∈ watchedRow (2 * w.toNat) (data.setWidth 8),
    exec (.hostWrite w false true data) s = exec i s) ∧
  (∀ (s : State) (w : BitVec 15) (data : Half), ∀ i ∈ watchedRow (2 * w.toNat + 1) ((data >>> 8).setWidth 8),
    exec (.hostWrite w true false data) s = exec i s) ∧
  (∀ (s : State) (w : BitVec 15) (data : Half), MemoryLaw s → watchedRow (2 * w.toNat + 1) 0 = none →
    ∀ i ∈ watchedRow (2 * w.toNat) (data.setWidth 8),
    exec (.hostWrite w true true data) s =
      exec i { s with window :=
        if s.landed = 0 then Memory.write s.window (2 * w.toNat + 1) ((data >>> 8).setWidth 8) else s.window }) ∧
  (∀ (s : State) (w : BitVec 15) (data : Half), MemoryLaw s → ∀ i ∈ watchedRow (2 * w.toNat) (data.setWidth 8),
    ∀ j ∈ watchedRow (2 * w.toNat + 1) ((data >>> 8).setWidth 8),
    ∃ t, exec (.hostWrite w true true data) s = .next t ∧
      let u : State := { arrived s [(2 * w.toNat, data.setWidth 8), (2 * w.toNat + 1, (data >>> 8).setWidth 8)] with
        choices := s.choices + 1 }
      (thenTaken i j u = .next t ∨ thenTaken j i u = .next t))

/-- INTERRUPT_ENABLE_WRITE takes bit 0, and sets IRQ afresh, in every state but RESET, where the field is plain memory (R144,
R163). -/
def Obligations.InterruptEnableSetsIrqAfresh : Prop :=
  ∀ (s : State) (v : Byte), MemoryLaw s → ∃ t, exec (.interruptEnableWrite v) s = .next t ∧
    t = { s with
      notice := if s.station.state = .reset then s.notice
        else { s.notice with
          irqEnable := v.getLsbD 0
          irq := v.getLsbD 0 && decide (s.notice.fill ≠ s.notice.takeCopy) }
      landed := s.landed - 1
      window := t.window } ∧
    landsAt s t 0x0B v ∧ sameWindow s t [0x0B]

/-- STICKY_QUALITY_FLAGS_READ: a read of the low byte returns the flags and clears them, and the field is written 0; a read of only
the high byte returns 0 and clears nothing (R147). In RESET the bytes are plain memory, and a lane that is not enabled is not driven
(the model's reading, log 17). -/
def Obligations.StickyReadReturnsAndClears : Prop :=
  ∀ (s : State) (be1 be0 : Bool), MemoryLaw s → ∃ t, exec (.stickyQualityFlagsRead be1 be0) s = .next t ∧
    (s.station.state = .reset →
      t = { s with bus := ⟨if be1 then some (s.peek 0x1B) else none, if be0 then some (s.peek 0x1A) else none⟩ }) ∧
    (s.station.state ≠ .reset →
      t = { s with
        bus := ⟨if be1 then some 0 else none, if be0 then some (flagsByte s.quality) else none⟩
        quality := if be0 then { s.quality with wentPoor := false, wentGood := false, mutedSeen := false } else s.quality
        window := t.window } ∧
      (be0 = true → t.peek 0x1A = 0 ∧ t.peek 0x1B = 0) ∧ sameWindow s t (if be0 then [0x1A, 0x1B] else []))

/-- REQUEST_POST_INDEX_WRITE: in every state but RESET, a value that adds no more than fits becomes the post copy, and any other is a
QUEUE_FAULT (R153, R156). -/
def Obligations.RequestPostIsTakenOrFaults : Prop :=
  ∀ (s : State) (v : Byte), MemoryLaw s → ∃ t, exec (.requestPostIndexWrite v) s = .next t ∧ landsAt s t 0x0C v ∧
    t = { s with requests := t.requests, notice := t.notice, landed := s.landed - 1, window := t.window } ∧
    if s.station.state = .reset then t = { s with landed := s.landed - 1, window := t.window } ∧ sameWindow s t [0x0C]
    else if span s.requests.take v ≤ 16 ∧ span s.requests.take s.requests.postCopy ≤ span s.requests.take v then
      t = { s with requests.postCopy := v, landed := s.landed - 1, window := t.window } ∧ sameWindow s t [0x0C]
    else
      t.requests = { s.requests with refusal := ⟨v, 0xFF, 0, 23⟩, refusalCount := s.requests.refusalCount + 1 } ∧
      raisedIn s t (.station .refused) ∧
      t.peek 0x2A = v ∧ t.peek 0x2B = 0xFF ∧ t.peek 0x2C = 0 ∧ t.peek 0x2D = 23 ∧
      shows t 0x2E (s.requests.refusalCount + 1) ∧
      sameWindow s t ([0x0C] ++ bytesFrom 0x2A 6 ++ raiseBytes s 1)

/-- ATTENTION_TAKE_INDEX_WRITE, and PENDING_SET_DRAIN: an accepted value becomes the take copy, the pairs it passes leave the
noted set, and pending pairs are written in order into the room there is, each entry with the detail and the snapshot of that moment,
with IRQ set afresh (R158, R159, R161, R162, R163). That the row
of the drain also runs by itself is the model's reading (log 10). -/
def Obligations.TakingAttentionDrainsThePendingSet : Prop :=
  (∀ (s : State) (v : Byte), MemoryLaw s → ∃ t, exec (.attentionTakeIndexWrite v) s = .next t ∧
    t = { s with notice := t.notice, landed := s.landed - 1, window := t.window } ∧ landsAt s t 0x0E v ∧
    if s.station.state ≠ .reset ∧ span s.notice.takeCopy v ≤ span s.notice.takeCopy s.notice.fill then
      drainedFrom { s with
        notice.takeCopy := v
        notice.held := s.notice.held.drop (span s.notice.takeCopy v)
        notice.irq := s.notice.irqEnable && decide (s.notice.fill ≠ v) } t [0x0E]
    else t.notice = s.notice ∧ sameWindow s t [0x0E]) ∧
  (∀ s : State, MemoryLaw s → ∃ t, exec .pendingSetDrain s = .next t ∧
    t = { s with notice := t.notice, window := t.window } ∧ drainedFrom s t [])

/-- TX_POST_INDEX_WRITE: a post that the port watches becomes the posted copy if it is neither backward nor beyond the ring, with the
stall tested afresh, and is a POST_FAULT otherwise, raised with that detail; in FREE and ENDED it is ignored (R109, R144, R146, R150).
That a post of the value held before tests the stall too is the model's choice (log 34). -/
def Obligations.TxPostIsTakenOrFaults : Prop :=
  ∀ (s : State) (c : CircuitNo) (v : Byte), MemoryLaw s → ∃ t, exec (.txPostIndexWrite c v) s = .next t ∧ onlyCircuit { s with landed := s.landed - 1 } t c ∧
    landsAt s t (recordBase c + 0x30) v ∧
    if s.station.circuitCount ≤ c.val ∨ s.station.state.serves = false ∨ (s.circuit c).state = .free ∨
        (s.circuit c).state = .ended then
      t = { s with landed := s.landed - 1, window := t.window } ∧ sameWindow s t [recordBase c + 0x30]
    else if span (s.circuit c).txDone v ≤ (s.circuit c).txSize ∧
        span (s.circuit c).txDone (s.circuit c).postedCopy ≤ span (s.circuit c).txDone v then
      t.notice = s.notice ∧ sameWindow s t [recordBase c + 0x30] ∧
      t.circuit c = { s.circuit c with
        postedCopy := v
        probeTimer := if (s.circuit c).state.transfers then probeOf { s.circuit c with postedCopy := v }
          else (s.circuit c).probeTimer }
    else
      t.circuit c = { s.circuit c with faultKind := .postFault } ∧ raisedIn s t (.circuit c .fault) ∧
      t.peek (recordBase c + 0x0F) = 1 ∧ sameWindow s t (recordBytes c [0x0F, 0x30] ++ raiseBytes s 1)

/-- RX_RELEASE_INDEX_WRITE: a release that the port watches becomes the release copy if it lies within the filled slots, and an
assured circuit that carries data owes an ACK if the new limit passes the last announced one by the credit step, or at all after a
credit of 0; otherwise it is a RELEASE_FAULT, raised with that detail, and in FREE it is ignored (R115, R116, R123, R146, R151).
GAP_ACK: any value written to the field of a circuit that the port watches sets the first-gap marker to NONE (R127, R146). -/
def Obligations.ReleaseAndGapAckAreTaken : Prop :=
  (∀ (s : State) (c : CircuitNo) (v : Byte), MemoryLaw s → ∃ t, exec (.rxReleaseIndexWrite c v) s = .next t ∧ onlyCircuit { s with landed := s.landed - 1 } t c ∧
    landsAt s t (recordBase c + 0x31) v ∧
    if s.station.circuitCount ≤ c.val ∨ s.station.state.serves = false ∨ (s.circuit c).state = .free then
      t = { s with landed := s.landed - 1, window := t.window } ∧ sameWindow s t [recordBase c + 0x31]
    else if span (s.circuit c).releaseCopy v ≤ span (s.circuit c).releaseCopy (s.circuit c).rxFill then
      t.notice = s.notice ∧ sameWindow s t [recordBase c + 0x31] ∧
      t.circuit c = { s.circuit c with
        releaseCopy := v
        ackOwed := (s.circuit c).ackOwed ||
          (decide ((s.circuit c).mode = .assured) && (s.circuit c).state.transfers &&
            releaseOwesAck (s.circuit c) v (s.station.creditStep.getD 1)) }
    else
      t.circuit c = { s.circuit c with faultKind := .releaseFault } ∧ raisedIn s t (.circuit c .fault) ∧
      t.peek (recordBase c + 0x0F) = 2 ∧ sameWindow s t (recordBytes c [0x0F, 0x31] ++ raiseBytes s 1)) ∧
  (∀ (s : State) (c : CircuitNo) (v : Byte), MemoryLaw s → ∃ t, exec (.gapAck c v) s = .next t ∧ onlyCircuit { s with landed := s.landed - 1 } t c ∧
    t.notice = s.notice ∧ landsAt s t (recordBase c + 0x32) v ∧
    if s.station.circuitCount ≤ c.val ∨ s.station.state.serves = false then
      t.circuit c = s.circuit c ∧ sameWindow s t [recordBase c + 0x32]
    else
      t.circuit c = { s.circuit c with firstGap := none } ∧ shows t (recordBase c + 0x18) 0xFFFF ∧
      sameWindow s t (recordBytes c [0x18, 0x19, 0x32]))

/-! ## Requests -/

/-- The row of the kind at the take index takes a request that fails a check: the refusal record names it, the take index advances
and REFUSED is raised, and no circuit is touched (R154, R155, R156). -/
def Obligations.RefusedRequestLeavesItsCircuit : Prop :=
  ∀ s : State, MemoryLaw s → waits s → requestCheck s ≠ 0 →
    ∃ t, exec (requestRow (reqByte s 1)) s = .next t ∧
      t = { s with requests := t.requests, notice := t.notice, window := t.window } ∧
      t.requests = { s.requests with
        take := s.requests.take + 1
        refusal := ⟨reqByte s 0, reqByte s 2, reqByte s 1, requestCheck s⟩
        refusalCount := s.requests.refusalCount + 1 } ∧
      t.peek 0x0D = s.requests.take + 1 ∧ t.peek 0x2A = reqByte s 0 ∧ t.peek 0x2B = reqByte s 2 ∧ t.peek 0x2C = reqByte s 1 ∧
      t.peek 0x2D = requestCheck s ∧ shows t 0x2E (s.requests.refusalCount + 1) ∧ raisedIn s t (.station .refused) ∧
      sameWindow s t ([0x0D] ++ bytesFrom 0x2A 6 ++ raiseBytes s 1)

/-- A row whose happening cannot arise in the state does nothing (the model's choices): a rise of RESET that is not low, and the end
of a start pass that does not run (log 8); a taking while no request of its kind waits (log 9); the end of a received frame outside
HEARING (log 8); and a report of an own frame that is not on the line in that way (log 8). -/
def Obligations.RowsOutOfPlaceDoNothing : Prop :=
  (∀ (s : State) (address : Address) (rate : BitVec 2) (loop : Bool), s.station.resetLow = false ∨ s.station.state ≠ .reset →
    exec (.resetRelease address rate loop) s = .next s) ∧
  (∀ s : State, s.station.startPass = none ∨ s.station.state ≠ .reset → exec .startPassEnd s = .next s) ∧
  (∀ (s : State) (i : Instr), i ∈ [.openRequest, .listenRequest, .closeRequest, .abortRequest, .badKindRequest] →
    ¬waits s ∨ i ≠ requestRow (reqByte s 1) → exec i s = .next s) ∧
  (∀ (s : State) (k : Kind) (f : Frame) (bytes : List Byte), s.line.state ≠ .hearing →
    exec (frameRow k f) s = .next s ∧ exec (.malformedFrame bytes) s = .next s ∧ exec (.damagedFrame bytes) s = .next s) ∧
  (∀ s : State, s.line.state ≠ .sending ∨ s.selector.inFlight = none → exec .frameSent s = .next s) ∧
  (∀ s : State, s.line.state ≠ .stopped ∨ s.selector.inFlight = none → exec .frameCollided s = .next s)

/-- OPEN: with its peer present the circuit enters CALLING owing a CALL, with the context and the transfer state that the
taking sets; with its peer absent the OPEN completes NO_PEER at once, and only the completion fields change (R60, R149).
LISTEN: the circuit enters LISTENING with the context and the transfer state that the taking sets; its call tag stays and no
frame becomes owed (R61, R149). That a plain circuit keeps the assured send state is the model's reading (log 31). -/
def Obligations.OpenAndListenAreTaken : Prop :=
  (∀ s : State, MemoryLaw s → waits s → reqByte s 1 = 1 → requestCheck s = 0 →
    ∃ t, exec .openRequest s = .next t ∧ requestTaken s t (reqCircuit s) ∧ t.orphans = s.orphans ∧ t.selector = s.selector ∧
      if s.roster.isPresent ((reqByte s 3).setWidth 5) = true then
        t.circuit (reqCircuit s) = { takenCircuit s (reqCircuit s) .openR with
          state := .calling
          callTag := (s.circuit (reqCircuit s)).callTag + 1
          sendCount := 0
          retryTimer := none
          callOwed := true } ∧
        t.notice = s.notice ∧ takenShows s t (reqCircuit s) ∧ t.peek (recordBase (reqCircuit s)) = 2 ∧
        t.peek (recordBase (reqCircuit s) + 0x06) = ((s.circuit (reqCircuit s)).callTag + 1).setWidth 8 ∧
        sameWindow s t (takenBytes (reqCircuit s) ++ [recordBase (reqCircuit s) + 0x06])
      else
        t.circuit (reqCircuit s) = { s.circuit (reqCircuit s) with
          completion := some ⟨.openR, reqByte s 0, .noPeer, none⟩
          inFlight := none } ∧
        raisedIn s t (.circuit (reqCircuit s) .done) ∧ showsCompletion t (reqCircuit s) ⟨.openR, reqByte s 0, .noPeer, none⟩ ∧
        sameWindow s t ([0x0D] ++ recordBytes (reqCircuit s) [0x08, 0x09, 0x0A, 0x0B, 0x0C] ++ raiseBytes s 1)) ∧
  (∀ s : State, MemoryLaw s → waits s → reqByte s 1 = 2 → requestCheck s = 0 →
    ∃ t, exec .listenRequest s = .next t ∧ requestTaken s t (reqCircuit s) ∧ t.orphans = s.orphans ∧
      t.selector = s.selector ∧ t.notice = s.notice ∧
      t.circuit (reqCircuit s) = { takenCircuit s (reqCircuit s) .listenR with state := .listening } ∧
      takenShows s t (reqCircuit s) ∧ t.peek (recordBase (reqCircuit s)) = 1 ∧ sameWindow s t (takenBytes (reqCircuit s)))

/-- CLOSE of an OPEN circuit: the drain target is the posted copy, the CLOSE is in flight, and the circuit enters DRAINING; with
nothing left to drain it enters CLEARING at once, owing a CLEAR (R80, R81, R109).
DRAIN_COMPLETE: a DRAINING circuit whose tx done stands at the drain target enters CLEARING, its send count 0 and a CLEAR owed
(R81). The row does nothing else (the model takes the happening at its cause as well, log 10). -/
def Obligations.CloseDrainsThenClears : Prop :=
  (∀ s : State, MemoryLaw s → waits s → reqByte s 1 = 3 → requestCheck s = 0 → (s.circuit (reqCircuit s)).state = .opened →
    ∃ t, exec .closeRequest s = .next t ∧ requestTaken s t (reqCircuit s) ∧ t.orphans = s.orphans ∧ t.notice = s.notice ∧
      sameWindow s t [0x0D, recordBase (reqCircuit s)] ∧
      if (s.circuit (reqCircuit s)).txDone = (s.circuit (reqCircuit s)).postedCopy then
        t.circuit (reqCircuit s) = clearingFrom (drainingFrom (s.circuit (reqCircuit s)) (reqByte s 0)) ∧
        t.selector = flightForgets s (reqCircuit s) false ∧ t.peek (recordBase (reqCircuit s)) = 5
      else
        t.circuit (reqCircuit s) = { drainingFrom (s.circuit (reqCircuit s)) (reqByte s 0) with
          probeTimer := probeOf (drainingFrom (s.circuit (reqCircuit s)) (reqByte s 0)) } ∧
        t.selector = s.selector ∧ t.peek (recordBase (reqCircuit s)) = 4) ∧
  (∀ (s : State) (c : CircuitNo), MemoryLaw s →
    ∃ t, exec (.drainComplete c) s = .next t ∧
      if (s.circuit c).state = .draining ∧ (s.circuit c).txDone = (s.circuit c).drainTarget then
        t = { s with circuits := t.circuits, selector := flightForgets s c false, window := t.window } ∧ sameCircuits s t c ∧
        t.circuit c = clearingFrom (s.circuit c) ∧ t.peek (recordBase c) = 5 ∧ sameWindow s t [recordBase c]
      else t = s)

/-- CLOSE of an ENDED circuit: it goes FREE at once, a CONFIRM it still owes moves to the orphan list, and the CLOSE completes DONE
(R79, R89).
ABORT completes DONE in every circuit state, naming the request it overtakes; a circuit that is not FREE goes FREE, and one with
a live peer circuit leaves a CLEAR to it on the orphan list (R79, R90). -/
def Obligations.CloseAndAbortFree : Prop :=
  (∀ s : State, MemoryLaw s → waits s → reqByte s 1 = 3 → requestCheck s = 0 → (s.circuit (reqCircuit s)).state = .ended →
    ∃ t, exec .closeRequest s = .next t ∧ requestTaken s t (reqCircuit s) ∧
      t.circuit (reqCircuit s) = freed (s.circuit (reqCircuit s)) (some ⟨.closeR, reqByte s 0, .done, none⟩) ∧
      t.orphans = movedConfirm s (reqCircuit s) ∧ showsDrops s t ∧ t.selector = flightForgets s (reqCircuit s) true ∧
      raisedIn s t (.circuit (reqCircuit s) .done) ∧ t.peek (recordBase (reqCircuit s)) = 0 ∧
      showsCompletion t (reqCircuit s) ⟨.closeR, reqByte s 0, .done, none⟩ ∧
      sameWindow s t ([0x0D, 0x30, 0x31] ++ freedBytes (reqCircuit s) ++ raiseBytes s 1)) ∧
  (∀ s : State, MemoryLaw s → waits s → reqByte s 1 = 4 → requestCheck s = 0 →
    ∃ t, exec .abortRequest s = .next t ∧ requestTaken s t (reqCircuit s) ∧ raisedIn s t (.circuit (reqCircuit s) .done) ∧
      showsCompletion t (reqCircuit s) ⟨.abortR, reqByte s 0, .done, (s.circuit (reqCircuit s)).inFlight⟩ ∧
      if (s.circuit (reqCircuit s)).state = .free then
        t.circuit (reqCircuit s) = { s.circuit (reqCircuit s) with
          completion := some ⟨.abortR, reqByte s 0, .done, (s.circuit (reqCircuit s)).inFlight⟩
          inFlight := none } ∧
        t.orphans = s.orphans ∧ t.selector = s.selector ∧
        sameWindow s t ([0x0D] ++ recordBytes (reqCircuit s) [0x08, 0x09, 0x0A, 0x0B, 0x0C] ++ raiseBytes s 1)
      else
        t.circuit (reqCircuit s) = freed (s.circuit (reqCircuit s))
          (some ⟨.abortR, reqByte s 0, .done, (s.circuit (reqCircuit s)).inFlight⟩) ∧
        t.orphans = (if (s.circuit (reqCircuit s)).state.live = true then
            withOrphan s.station.state (movedConfirm s (reqCircuit s)) (s.circuit (reqCircuit s)).peer
              ((s.circuit (reqCircuit s)).peerCircuit.getD 0) (.clear (reqCircuit s))
          else movedConfirm s (reqCircuit s)) ∧
        showsDrops s t ∧ t.selector = flightForgets s (reqCircuit s) true ∧ t.peek (recordBase (reqCircuit s)) = 0 ∧
        ((s.circuit (reqCircuit s)).state.live = true → t.peek (recordBase (reqCircuit s) + 0x20) =
          (s.circuit (reqCircuit s)).postedCopy - (s.circuit (reqCircuit s)).txDone) ∧
        sameWindow s t ([0x0D, 0x30, 0x31] ++ freedBytes (reqCircuit s) ++ raiseBytes s 1))

/-! ## Attention -/

/-- A raise writes the entry of its pair at the fill index when there is room: the sequence, the source, the cause, the detail read
from state, and the snapshot; then the sequence and the fill index. It is absorbed if the pair is noted, and held back in the pending
set if the queue is full (R158, R159, R160, R161). -/
def Obligations.RaiseWritesAnEntry : Prop :=
  ∀ (s : State) (p : NoticePair), MemoryLaw s →
    s.raise p = { s with notice := (s.raise p).notice, window := (s.raise p).window } ∧ raisedIn s (s.raise p) p ∧
    (if p ∈ s.notice.held then (s.raise p).window = s.window
    else if 64 ≤ s.notice.count then
      sameWindow s (s.raise p) [0x11, 0x12] ∧
      (p ∉ s.notice.waiting →
        (s.raise p).peek 0x11 = 1 ∧ (s.raise p).peek 0x12 = BitVec.ofNat 8 (s.notice.waiting.length + 1))
    else
      (∀ i, i < 8 → (s.raise p).peek (0x0600 + 8 * (s.notice.fill.toNat % 64) + i) = (entryBytes s s.notice.sequence p).getD i 0) ∧
      (s.raise p).peek 0x10 = s.notice.sequence + 1 ∧ (s.raise p).peek 0x0F = s.notice.fill + 1 ∧
      sameWindow s (s.raise p) (raiseBytes s 1))

/-! ## The line and received frames -/

/-- A round begins when the line settles in WAITING and at the end of a silent round, with B unchanged: its mode, its number of
positions and the own position are fixed as the rotation and the roster give them, and a full round uses full-next up (R3, R37,
R38, R39, R46). Before the quiet measure has come to 20 bt, and before the round timer has come to the round's length, the rows do
nothing (R2, R39; log 4). -/
def Obligations.RoundBeginsAfterSettlingAndSilence : Prop :=
  (∀ s : State, s.line.state = .settling → 20 ≤ s.line.quiet → exec .lineSettled s = .next { s with
    line.state := .idle
    arbiter := if s.arbiter.state = .waiting then roundBegun s s.arbiter else s.arbiter }) ∧
  (∀ s : State, s.arbiter.state = .round → 24 + 16 * s.arbiter.positions ≤ s.arbiter.roundTimer →
    exec .silentRoundEnd s = .next { s with arbiter := roundBegun s s.arbiter }) ∧
  (∀ s : State, s.line.state ≠ .settling ∨ s.line.quiet < 20 → exec .lineSettled s = .next s) ∧
  (∀ s : State, s.arbiter.state ≠ .round ∨ s.arbiter.roundTimer < 24 + 16 * s.arbiter.positions →
    exec .silentRoundEnd s = .next s)

/-- In a full round there are 31 positions and the position of an address a is (a − B − 1) modulo 31, whatever the roster holds: B
holds 30, and no two addresses the same (R42). In a compressed round there are as many positions as members, the position of a
member is the number of members strictly after B and strictly before it in ascending rotation, every member holds one position below
that number, no two members the same, and B, if it is a member, the last (R41). -/
def Obligations.PositionsFollowTheRotation : Prop :=
  ∀ (r : Roster) (base : Address), base ≠ 31 →
    (r.positionsIn .full = 31 ∧
      (∀ a, a < 31 → (r.positionIn base a .full + base.toNat + 1) % 31 = a ∧ r.positionIn base a .full < 31) ∧
      r.positionIn base base.toNat .full = 30 ∧
      (∀ a b, a < 31 → b < 31 → r.positionIn base a .full = r.positionIn base b .full → a = b) ∧
      (∀ (q : Roster) (a : Nat), q.positionIn base a .full = r.positionIn base a .full)) ∧
    (r.positionsIn .compressed = (allAddresses.filter fun m => (r.entry m).present).length ∧
      (∀ a, a < 31 → a ≠ base.toNat → (r.entry a).present = true → r.positionIn base a .compressed =
        (allAddresses.filter fun m => (r.entry m).present && strictlyBetween base m a).length) ∧
      (∀ a, a < 31 → (r.entry a).present = true → r.positionIn base a .compressed < r.positionsIn .compressed) ∧
      (∀ a b, a < 31 → b < 31 → (r.entry a).present = true → (r.entry b).present = true →
        r.positionIn base a .compressed = r.positionIn base b .compressed → a = b) ∧
      (r.isPresent base = true → r.positionIn base base.toNat .compressed + 1 = r.positionsIn .compressed))

/-- LINE_BUSY: a falling edge taken in IDLE begins a received frame and ends the round for this station; wherever receive is enabled it
starts the quiet measure again; in OFF, and in loop test, it does nothing. COLLISION_DETECTED stops the own frame and releases the
driver, and the quiet measure starts from there (the model's choice, log 35); in loop test, and while no own frame is driven, it does
nothing (R2, R3, R4, R15, R18, R37, R44). -/
def Obligations.EdgesAndCollisionsMoveTheLine : Prop :=
  (∀ s : State, exec .lineBusy s = .next (
    if s.station.loop = true then s
    else if s.line.state = .idle then { s with
      line := { s.line with state := .hearing, quiet := 0, rxBuffer := [], rxCount := 0, rxCheck := 0xFFFF }
      arbiter.state := if s.arbiter.state = .round then .busy else s.arbiter.state }
    else if s.line.state = .off then s
    else { s with line.quiet := 0 })) ∧
  (∀ s : State, exec .collisionDetected s = .next (
    if s.line.state = .sending ∧ s.station.loop = false then
      { s with line := { s.line with state := .stopped, quiet := 0, txen := false, txd := true } }
    else s))

/-- FRAME_TRUNCATED, with any bytes, and DAMAGED_FRAME: in HEARING the frame is counted damaged, in the cumulative counter and in D,
which stops at 65,535, and the round that begins is a full one with B unchanged; outside HEARING nothing happens (R6, R7, R12, R40,
R45, R168). A truncated frame leaves the line quiet (R2), and the end of an end mark starts the quiet measure (log 35). -/
def Obligations.DamagedFramesAreCounted : Prop :=
  ∀ (s : State) (bytes : List Byte) (truncated : Bool), MemoryLaw s → truncated = true ∨ isDamaged bytes = true →
    ∃ t, exec (if truncated then .frameTruncated bytes else .damagedFrame bytes) s = .next t ∧
      if s.line.state = .hearing then
        t = { s with
          line := heardLine s.line bytes (if truncated then 20 else 0)
          quality := { s.quality with
            damagedHeard := s.quality.damagedHeard + 1
            d := if s.quality.d = 0xFFFF then 0xFFFF else s.quality.d + 1 }
          arbiter := if s.arbiter.state = .busy then roundBegun s { s.arbiter with fullNext := true }
            else { s.arbiter with fullNext := true }
          window := t.window } ∧
        shows t 0x20 (s.quality.damagedHeard + 1) ∧ shows t 0x26 t.quality.d ∧ sameWindow s t [0x20, 0x21, 0x26, 0x27]
      else t = s

/-- MALFORMED_FRAME from a present peer, or with source 31: the frame is counted, the peer refreshed, and B taken from a source 0 to
30; its content is not trusted, so no circuit is touched (R8, R12, R23, R40, R168). -/
def Obligations.MalformedFramesAreCounted : Prop :=
  ∀ (s : State) (bytes : List Byte), MemoryLaw s → isMalformed bytes → s.line.state = .hearing → s.arbiter.state = .busy →
    sourceField bytes ≠ s.station.address → sourceField bytes = 31 ∨ s.roster.isPresent (sourceField bytes) = true →
    ∃ t, exec (.malformedFrame bytes) s = .next t ∧
      t = { s with
        line := heardLine s.line bytes
        quality.malformed := s.quality.malformed + 1
        roster.entries := t.roster.entries
        arbiter := roundBegun t { s.arbiter with
          base := if sourceField bytes = 31 then s.arbiter.base else sourceField bytes }
        window := t.window } ∧
      (∀ a, a < 31 → t.roster.entry a = if a = (sourceField bytes).toNat then ⟨true, 0⟩ else s.roster.entry a) ∧
      shows t 0x22 (s.quality.malformed + 1) ∧ sameWindow s t [0x22, 0x23]

/-- A good or malformed frame from a peer that is not present first adds the peer: its entry present with age 0, its half of the
mirror and the change counter written, full-next set and ROSTER raised; then it does what it does from a present peer (R22, R25,
R26, R45). -/
def Obligations.NewPeerIsAddedFirst : Prop :=
  (∀ (s : State) (a : Address), MemoryLaw s → a ≠ 31 →
    s.addPeer a = { s with
      roster := (s.addPeer a).roster
      arbiter.fullNext := true
      notice := (s.addPeer a).notice
      window := (s.addPeer a).window } ∧
    (s.addPeer a).roster.silence = s.roster.silence ∧
    rosterChanged s (s.addPeer a) (fun b => if b = a.toNat then ⟨true, 0⟩ else s.roster.entry b) ∧
    mirrorShows (s.addPeer a) a ∧ isPresentSet (s.addPeer a).roster.presentSet (s.addPeer a).roster ∧
    raisedIn s (s.addPeer a) (.station .roster) ∧ sameWindow s (s.addPeer a) (mirrorBytes a ++ raiseBytes s 1)) ∧
  (∀ (s : State) (k : Kind) (f : Frame), MemoryLaw s → hearsFrom k f s → s.roster.isPresent f.src = false →
    exec (frameRow k f) s = exec (frameRow k f) (s.addPeer f.src)) ∧
  (∀ (s : State) (bytes : List Byte), MemoryLaw s → isMalformed bytes → s.line.state = .hearing → sourceField bytes ≠ 31 →
    sourceField bytes ≠ s.station.address → s.roster.isPresent (sourceField bytes) = false →
    exec (.malformedFrame bytes) s = exec (.malformedFrame bytes) (s.addPeer (sourceField bytes)))

/-- A frame from the own address, good or malformed, heard outside loop test halts the station with DUPLICATE_ADDRESS: the line
goes OFF, nothing is owed any more, the roster is emptied, the Turn Arbiter is OFF, the window timer stops, and every circuit
is FREE or ENDED; a malformed frame loses each circuit with LOST_HALTED. Nothing the host owns changes (R32, R36, R55, R56,
R96, R132, R180). Mass losses run in ascending circuit order, and the order of the Circuit Table and the halt is free (the
model's choices, logs 13 and 14). -/
def Obligations.DuplicateAddressHalts : Prop :=
  (∀ (s : State) (bytes : List Byte), MemoryLaw s → isMalformed bytes → sourceField bytes = s.station.address → s.line.state = .hearing →
    s.station.state.receives = true → s.station.loop = false →
    ∃ t, exec (.malformedFrame bytes) s = .next t ∧ haltedOn s t ∧
      t = { s with
        station := t.station
        line := t.line
        arbiter := t.arbiter
        selector := t.selector
        roster := t.roster
        orphans.entries := []
        circuits := t.circuits
        notice := t.notice
        quality := { s.quality with malformed := s.quality.malformed + 1, d := 0, k := 0, windowTimer := none }
        window := t.window } ∧
      shows t 0x22 (s.quality.malformed + 1) ∧
      lostAll s t (fun c => owedCleared (s.circuit c)) (fun _ => true) .lostHalted ∧
      raisedOnly s t (lossPairs s.circuit (fun _ => true) .lostHalted ++ [.station .station]) ∧
      sameWindow s t ([0x03, 0x04] ++ bytesFrom 0x14 6 ++ [0x22, 0x23] ++ bytesFrom 0x26 4 ++ allCircuits.flatMap lossBytes ++
        raiseBytes s 17)) ∧
  (∀ (s : State) (k : Kind) (f : Frame), MemoryLaw s → (∀ c, RingAreaLaw (s.circuit c)) → keepsRules k f = true →
    f.src = s.station.address → s.line.state = .hearing → s.station.state.receives = true → s.station.loop = false →
    ∃ t, exec (frameRow k f) s = .next t ∧ haltedOn s t ∧ t.orphans.entries = [] ∧
      shows t 0x1E (s.quality.goodHeard + 1) ∧
      (∀ c, (t.circuit c).state = .free ∨ (t.circuit c).state = .ended) ∧
      raisedOnly s t (circuitPairs ++ [.station .station]) ∧
      sameRange s t 0x0500 0x0600 ∧ sameRange s t 0x0800 0x1000)

/-- ROLL_RECEIVED: in ACTIVE a present set without the own bit makes ROLL owed; otherwise only the frame's hearing shows (R12, R30).
-/
def Obligations.RollWithoutTheOwnBitOwesARoll : Prop :=
  ∀ (s : State) (f : Frame), MemoryLaw s → hearsFrom .roll f s → s.roster.isPresent f.src = true →
    ∃ t, exec (.rollReceived f) s = .next t ∧
      heardBlocks .roll f { s with
        selector.rollOwed := s.selector.rollOwed ||
          (decide (s.station.state = .active) && !presentBit f.payload s.station.address.toNat) } t ∧
      allCircuitsSame s t ∧ t.orphans = s.orphans ∧ t.notice = s.notice ∧ sameWindow s t heardBytes

/-! ## Segments and acknowledgements -/

/-- DATA_RECEIVED on an assured circuit in OPEN or DRAINING: the expected segment goes into the slot at rx fill if one is free,
and is counted as discarded if none is; a segment out of order changes nothing on the receive side; an ACK is owed in every
case, and the ack and credit are taken as from an ACK (R112, R113, R115, R140). DATA_IN is raised at a fill that carries END or reaches
the notice level, SPACE_OUT where the outstanding slots come down to theirs, and nothing else (R164, R166). The receive side is taken
before the send side (the model's choice, log 15). -/
def Obligations.AssuredSegmentsAreTakenInOrder : Prop :=
  ∀ (s : State) (f : Frame), MemoryLaw s → hears .data f s → reaches f s → (s.circuit f.dstCircuit).mode = .assured →
    (s.circuit f.dstCircuit).state.transfers = true → RingAreaLaw (s.circuit f.dstCircuit) →
    ∃ t, exec (.dataReceived f) s = .next t ∧ heardBlocks .data f s t ∧ sameCircuits s t f.dstCircuit ∧
      t.orphans = s.orphans ∧
      t.circuit f.dstCircuit = ackTaken (segmentTaken (s.circuit f.dstCircuit) f) f.ack f.credit ∧
      ackShows (s.circuit f.dstCircuit) f.ack s t f.dstCircuit ∧
      (if f.seq ≠ (s.circuit f.dstCircuit).expectedSeq then
        raisedOnly s t (spaceOutDue (s.circuit f.dstCircuit) (t.circuit f.dstCircuit) f.dstCircuit) ∧
        sameWindow s t (heardBytes ++ ackBytes (s.circuit f.dstCircuit) f.dstCircuit f.ack ++ raiseBytes s 1)
      else if ¬hasRoom (s.circuit f.dstCircuit) then
        shows t (recordBase f.dstCircuit + 0x1C) ((s.circuit f.dstCircuit).discardCount + 1) ∧
        raisedOnly s t (spaceOutDue (s.circuit f.dstCircuit) (t.circuit f.dstCircuit) f.dstCircuit) ∧
        sameWindow s t (heardBytes ++ recordBytes f.dstCircuit [0x1C, 0x1D] ++
          ackBytes (s.circuit f.dstCircuit) f.dstCircuit f.ack ++ raiseBytes s 1)
      else
        slotHolds (s.circuit f.dstCircuit) f 0 t ∧
        t.peek (recordBase f.dstCircuit + 0x17) = (s.circuit f.dstCircuit).rxFill + 1 ∧
        (idleAfterFill (s.circuit f.dstCircuit) f = none →
          told s t (s.updCircuit f.dstCircuit fun k => segmentTaken k f) (.circuit f.dstCircuit .dataIn)) ∧
        raisedOnly s t (dataInDue (s.circuit f.dstCircuit) f.dstCircuit f ++
          spaceOutDue (s.circuit f.dstCircuit) (t.circuit f.dstCircuit) f.dstCircuit) ∧
        sameWindow s t (heardBytes ++ slotBytes (s.circuit f.dstCircuit) f ++ [recordBase f.dstCircuit + 0x17] ++
          ackBytes (s.circuit f.dstCircuit) f.dstCircuit f.ack ++ raiseBytes s 2))

/-- DATA_RECEIVED on a plain circuit in OPEN or DRAINING: a segment goes into the slot at rx fill if one is free, with the GAP flag
and the missing count if segments are missing before it, and is counted as an overrun if none is; the first gap is marked while the
marker is NONE, GAP is raised with the missing count, and nothing is acknowledged (R123, R125, R126, R127, R140). DATA_IN is raised
at a fill that carries END or reaches the notice level, and nothing but these two (R164). -/
def Obligations.PlainSegmentsMarkGaps : Prop :=
  ∀ (s : State) (f : Frame), MemoryLaw s → hears .data f s → reaches f s → (s.circuit f.dstCircuit).mode = .plain →
    (s.circuit f.dstCircuit).state.transfers = true → RingAreaLaw (s.circuit f.dstCircuit) →
    ∃ t, exec (.dataReceived f) s = .next t ∧ heardBlocks .data f s t ∧ sameCircuits s t f.dstCircuit ∧
      t.orphans = s.orphans ∧ t.circuit f.dstCircuit = plainTaken (s.circuit f.dstCircuit) f ∧
      (if ¬hasRoom (s.circuit f.dstCircuit) then
        shows t (recordBase f.dstCircuit + 0x1E) ((s.circuit f.dstCircuit).overrunCount + 1) ∧ t.notice = s.notice ∧
        sameWindow s t (heardBytes ++ recordBytes f.dstCircuit [0x1E, 0x1F])
      else
        slotHolds (s.circuit f.dstCircuit) f (distance (s.circuit f.dstCircuit).expectedSeq f.seq) t ∧
        t.peek (recordBase f.dstCircuit + 0x17) = (s.circuit f.dstCircuit).rxFill + 1 ∧
        (idleAfterFill (s.circuit f.dstCircuit) f = none → told s t t (.circuit f.dstCircuit .dataIn)) ∧
        (if f.seq = (s.circuit f.dstCircuit).expectedSeq then
          raisedOnly s t (dataInDue (s.circuit f.dstCircuit) f.dstCircuit f) ∧
          sameWindow s t (heardBytes ++ slotBytes (s.circuit f.dstCircuit) f ++ [recordBase f.dstCircuit + 0x17] ++
            raiseBytes s 1)
        else
          shows t (recordBase f.dstCircuit + 0x1A) ((s.circuit f.dstCircuit).gapCount + 1) ∧
          ((s.circuit f.dstCircuit).firstGap = none →
            shows t (recordBase f.dstCircuit + 0x18) ((s.circuit f.dstCircuit).rxFill.setWidth 16)) ∧
          raisedOnly s t (.circuit f.dstCircuit .gap :: dataInDue (s.circuit f.dstCircuit) f.dstCircuit f) ∧
          told s t t (.circuit f.dstCircuit .gap) (BitVec.ofNat 8 (distance (s.circuit f.dstCircuit).expectedSeq f.seq)) ∧
          (.circuit f.dstCircuit .gap ∉ s.notice.held → s.notice.count < 64 →
            t.peek (0x0600 + 8 * (s.notice.fill.toNat % 64) + 3) =
              BitVec.ofNat 8 (distance (s.circuit f.dstCircuit).expectedSeq f.seq)) ∧
          sameWindow s t (heardBytes ++ slotBytes (s.circuit f.dstCircuit) f ++
            recordBytes f.dstCircuit ([0x17, 0x1A, 0x1B] ++
              if (s.circuit f.dstCircuit).firstGap = none then [0x18, 0x19] else []) ++ raiseBytes s 2)))

/-- ACK_RECEIVED on a circuit in OPEN or DRAINING: on an assured circuit a POLL makes an ACK owed and the ack and credit are taken;
a plain circuit discards it (R104, R105, R117, R123). SPACE_OUT is raised where the outstanding slots come down to their notice level,
and nothing else (R166). -/
def Obligations.AcksMoveTheSendSide : Prop :=
  ∀ (s : State) (f : Frame), MemoryLaw s → hears .ack f s → reaches f s → (s.circuit f.dstCircuit).state.transfers = true →
    ∃ t, exec (.ackReceived f) s = .next t ∧ heardBlocks .ack f s t ∧ sameCircuits s t f.dstCircuit ∧ t.orphans = s.orphans ∧
      if (s.circuit f.dstCircuit).mode = .assured then
        t.circuit f.dstCircuit = ackTaken { s.circuit f.dstCircuit with
          ackOwed := f.poll || (s.circuit f.dstCircuit).ackOwed } f.ack f.credit ∧
        ackShows (s.circuit f.dstCircuit) f.ack s t f.dstCircuit ∧
        raisedOnly s t (spaceOutDue (s.circuit f.dstCircuit) (t.circuit f.dstCircuit) f.dstCircuit) ∧
        sameWindow s t (heardBytes ++ ackBytes (s.circuit f.dstCircuit) f.dstCircuit f.ack ++ raiseBytes s 1)
      else
        t.circuit f.dstCircuit = s.circuit f.dstCircuit ∧ t.notice = s.notice ∧ sameWindow s t heardBytes

/-! ## Calls -/

/-- CALL_RECEIVED in ACTIVE, with no live circuit on the caller's pair: the lowest-numbered circuit that listens for the service in
the CALL's mode takes it, enters OPEN owing an ANSWER, and completes its LISTEN with CONNECTED (R69, R70, R71). In another station
state the CALL changes nothing but what every good frame does (R69). -/
def Obligations.ListenerTakesTheCall : Prop :=
  (∀ (s : State) (f : Frame) (c : CircuitNo), MemoryLaw s → hears .call f s → s.station.state = .active → noneHolds s f →
    listensTo (s.circuit c) f = true → (s.circuit c).mode = callerMode f →
    (∀ d, d < c → listensTo (s.circuit d) f = false ∨ (s.circuit d).mode ≠ callerMode f) →
    ∃ t, exec (.callReceived f) s = .next t ∧ heardBlocks .call f s t ∧ sameCircuits s t c ∧ t.orphans = s.orphans ∧
      t.circuit c = { s.circuit c with
        state := .opened
        peer := f.src
        peerCircuit := some f.srcCircuit
        peerTag := some f.seq
        limit := if (s.circuit c).mode = .assured then f.credit else (s.circuit c).limit
        controlOwed := some .answer
        completion := (completedWith (s.circuit c) .connected).or (s.circuit c).completion
        inFlight := none } ∧
      t.peek (recordBase c) = 3 ∧ t.peek (recordBase c + 0x03) = f.src.setWidth 8 ∧
      t.peek (recordBase c + 0x04) = BitVec.ofNat 8 f.srcCircuit.val ∧ t.peek (recordBase c + 0x07) = f.seq.setWidth 8 ∧
      raisedIfAny s t ((completedWith (s.circuit c) .connected).map fun _ => .circuit c .done) ∧
      (∀ d ∈ completedWith (s.circuit c) .connected, showsCompletion t c d) ∧
      sameWindow s t (heardBytes ++ recordBytes c [0x00, 0x03, 0x04, 0x07, 0x08, 0x09, 0x0A, 0x0B, 0x0C] ++ raiseBytes s 1)) ∧
  (∀ (s : State) (f : Frame), MemoryLaw s → hears .call f s → s.station.state ≠ .active →
    ∃ t, exec (.callReceived f) s = .next t ∧ heardBlocks .call f s t ∧ allCircuitsSame s t ∧ t.orphans = s.orphans ∧
      t.notice = s.notice ∧ sameWindow s t heardBytes)

/-- CALL_RECEIVED in ACTIVE on a pair that a live circuit holds: a repeat of the call that opened the circuit makes an ANSWER owed
if it is still OPEN and is ignored otherwise; a new call makes the circuit stale, and it is lost with LOST_STALE (R70, R91). The CALL
then does what it does in the state that the loss leaves, where no live circuit holds the pair: a listener takes it, or it draws a
REFUSE with NO_LISTENER or MODE_MISMATCH (R71, R72). -/
def Obligations.RepeatedAndStaleCalls : Prop :=
  ∀ (s : State) (f : Frame) (c : CircuitNo), MemoryLaw s → hears .call f s → s.station.state = .active → PairLaw s →
    holdsFrame (s.circuit c) f = true →
    if (s.circuit c).peerTag = some f.seq then
      ∃ t, exec (.callReceived f) s = .next t ∧ heardBlocks .call f s t ∧
        sameCircuits s t c ∧ t.orphans = s.orphans ∧ t.notice = s.notice ∧ sameWindow s t heardBytes ∧
        t.circuit c = if (s.circuit c).state = .opened then { s.circuit c with controlOwed := some .answer } else s.circuit c
    else
      lostOnly s (s.lose c .lostStale) c .lostStale ∧
      exec (.callReceived f) s = exec (.callReceived f) (s.lose c .lostStale) ∧
      hears .call f (s.lose c .lostStale) ∧ (s.lose c .lostStale).station.state = .active ∧
      noneHolds (s.lose c .lostStale) f ∧
      ∃ t, exec (.callReceived f) s = .next t ∧ heardBlocks .call f s t ∧ t.circuit c = lostWith (s.circuit c) .lostStale ∧
        t.peek (recordBase c) = (t.circuit c).state.code ∧ lossShows t c (s.circuit c) .lostStale ∧
        (∀ p ∈ lossPair (s.circuit c) c .lostStale, told s t t p) ∧
        ((∀ d, listensTo (s.circuit d) f = false ∨ (s.circuit d).mode ≠ callerMode f) →
          raisedOnly s t (lossPair (s.circuit c) c .lostStale).toList) ∧
        ((∀ d, listensTo (s.circuit d) f = false) → sameCircuits s t c ∧
          t.orphans = withOrphan s.station.state (lossOrphans s c) f.src f.srcCircuit (.refuse f.seq .noListener)) ∧
        ((∀ d, listensTo (s.circuit d) f = false ∨ (s.circuit d).mode ≠ callerMode f) →
          (∃ d, listensTo (s.circuit d) f = true) → sameCircuits s t c ∧
          t.orphans = withOrphan s.station.state (lossOrphans s c) f.src f.srcCircuit (.refuse f.seq .modeMismatch)) ∧
        ((∀ d, listensTo (s.circuit d) f = false ∨ (s.circuit d).mode ≠ callerMode f) →
          sameWindow s t (heardBytes ++ [0x30, 0x31] ++ lossBytes c ++ raiseBytes s 1)) ∧
        (∀ d, listensTo (s.circuit d) f = true → (s.circuit d).mode = callerMode f →
          (∀ e, e < d → listensTo (s.circuit e) f = false ∨ (s.circuit e).mode ≠ callerMode f) →
          (t.circuit d).state = .opened ∧ (t.circuit d).peer = f.src ∧ (t.circuit d).peerCircuit = some f.srcCircuit ∧
          (t.circuit d).peerTag = some f.seq ∧ (t.circuit d).controlOwed = some .answer ∧ t.orphans = lossOrphans s c ∧
          ((s.circuit d).inFlight.isSome = true → told s t t (.circuit d .done)) ∧
          raisedOnly s t ((lossPair (s.circuit c) c .lostStale).toList ++
            if (s.circuit d).inFlight.isSome then [.circuit d .done] else []))

/-- CALL_RECEIVED in ACTIVE that finds no listener of its mode draws a REFUSE with the caller's tag: MODE_MISMATCH if some circuit
listens for the service in the other mode, and NO_LISTENER otherwise; no circuit changes (R72, R75). -/
def Obligations.CallWithoutAListenerIsRefused : Prop :=
  ∀ (s : State) (f : Frame), MemoryLaw s → hears .call f s → s.station.state = .active → noneHolds s f →
    (∀ c, listensTo (s.circuit c) f = false ∨ (s.circuit c).mode ≠ callerMode f) →
    ∃ t, exec (.callReceived f) s = .next t ∧ heardBlocks .call f s t ∧ allCircuitsSame s t ∧ t.notice = s.notice ∧
      t.orphans = withOrphan s.station.state s.orphans f.src f.srcCircuit
        (.refuse f.seq (if allCircuits.any (fun c => listensTo (s.circuit c) f) then .modeMismatch else .noListener)) ∧
      showsDrops s t ∧ sameWindow s t (heardBytes ++ [0x30, 0x31])

/-- ANSWER_RECEIVED and REFUSE_RECEIVED for a CALLING circuit, from its peer and with its call tag: an ANSWER opens the circuit with
CONNECTED, and loses another circuit that held the peer's circuit; a REFUSE frees it with the outcome its reason gives. An ANSWER
with another tag draws a CLEAR (R66, R67, R68, R77, R94). -/
def Obligations.AnswerOpensAndRefuseFrees : Prop :=
  (∀ (s : State) (f : Frame), MemoryLaw s → hears .answer f s → f.dstCircuit.val < s.station.circuitCount →
    (s.circuit f.dstCircuit).state = .calling → (s.circuit f.dstCircuit).peer = f.src →
    (s.circuit f.dstCircuit).callTag = f.seq → PairLaw s →
    ∃ t, exec (.answerReceived f) s = .next t ∧ heardBlocks .answer f s t ∧
      t.circuit f.dstCircuit = { s.circuit f.dstCircuit with
        state := .opened
        peerCircuit := some f.srcCircuit
        limit := if (s.circuit f.dstCircuit).mode = .assured then f.credit else (s.circuit f.dstCircuit).limit
        retryTimer := none
        sendCount := 0
        callOwed := false
        completion := (completedWith (s.circuit f.dstCircuit) .connected).or (s.circuit f.dstCircuit).completion
        inFlight := none } ∧
      (∀ d, d ≠ f.dstCircuit →
        t.circuit d = if holdsFrame (s.circuit d) f then lostWith (s.circuit d) .lostStale else s.circuit d) ∧
      t.peek (recordBase f.dstCircuit) = 3 ∧ t.peek (recordBase f.dstCircuit + 0x04) = BitVec.ofNat 8 f.srcCircuit.val ∧
      (∀ d ∈ completedWith (s.circuit f.dstCircuit) .connected,
        told s t t (.circuit f.dstCircuit .done) ∧ showsCompletion t f.dstCircuit d) ∧
      raisedOnly s t ((if (s.circuit f.dstCircuit).inFlight.isSome then [.circuit f.dstCircuit .done] else []) ++
        lossPairs s.circuit (fun d => holdsFrame (s.circuit d) f) .lostStale) ∧
      ((∀ d, holdsFrame (s.circuit d) f = false) → t.orphans = s.orphans) ∧ showsDrops s t ∧
      (∀ d, holdsFrame (s.circuit d) f = true → t.orphans = lossOrphans s d ∧
        t.peek (recordBase d) = (t.circuit d).state.code ∧ lossShows t d (s.circuit d) .lostStale ∧
        ∀ p ∈ lossPair (s.circuit d) d .lostStale, told s t t p) ∧
      sameWindow s t (heardBytes ++ [0x30, 0x31] ++
        recordBytes f.dstCircuit [0x00, 0x04, 0x08, 0x09, 0x0A, 0x0B, 0x0C] ++
        ((allCircuits.filter fun d => holdsFrame (s.circuit d) f).flatMap lossBytes) ++ raiseBytes s 2)) ∧
  (∀ (s : State) (f : Frame), MemoryLaw s → hears .answer f s → f.dstCircuit.val < s.station.circuitCount →
    (s.circuit f.dstCircuit).state = .calling → (s.circuit f.dstCircuit).peer = f.src →
    (s.circuit f.dstCircuit).callTag ≠ f.seq →
    ∃ t, exec (.answerReceived f) s = .next t ∧ heardBlocks .answer f s t ∧ allCircuitsSame s t ∧ t.notice = s.notice ∧
      t.orphans = withOrphan s.station.state s.orphans f.src f.srcCircuit (.clear f.dstCircuit) ∧ showsDrops s t ∧
      sameWindow s t (heardBytes ++ [0x30, 0x31])) ∧
  (∀ (s : State) (f : Frame), MemoryLaw s → hears .refuse f s → f.dstCircuit.val < s.station.circuitCount →
    (s.circuit f.dstCircuit).state = .calling → (s.circuit f.dstCircuit).peer = f.src →
    (s.circuit f.dstCircuit).callTag = f.seq →
    ∃ t, exec (.refuseReceived f) s = .next t ∧ heardBlocks .refuse f s t ∧
      freedIn s t f.dstCircuit (completedWith (s.circuit f.dstCircuit)
        (if f.payload.getD 0 0 = 2 then .refusedMode else .refusedNoListener)) ∧ sameWindow s t (heardBytes ++
          [0x30, 0x31] ++ freedBytes f.dstCircuit ++ raiseBytes s 1))

/-! ## Clearing -/

/-- CLEAR_RECEIVED for the circuit it names: an OPEN circuit enters ENDED with PEER_CLEARED, owing a CONFIRM, its unsent slots
counted (R85); a DRAINING one goes FREE with PEER_CLEARED and a CLEARING one with DONE, the CONFIRM on the orphan list (R86); an
ENDED one only owes a CONFIRM (R87).
CONFIRM_RECEIVED for a CLEARING circuit frees it, and the CLOSE completes with DONE; the sequence is not looked at (R79, R84). -/
def Obligations.PeerClearAndConfirmEndTheCircuit : Prop :=
  (∀ (s : State) (f : Frame), MemoryLaw s → hears .clear f s → reaches f s → (s.circuit f.dstCircuit).state = .opened →
    ∃ t, exec (.clearReceived f) s = .next t ∧ heardBlocks .clear f s t ∧ sameCircuits s t f.dstCircuit ∧
      t.orphans = s.orphans ∧ t.circuit f.dstCircuit = endedWith (s.circuit f.dstCircuit) .peerCleared (some .confirm) ∧
      raisedIn s t (.circuit f.dstCircuit .ended) ∧ t.peek (recordBase f.dstCircuit) = 6 ∧
      t.peek (recordBase f.dstCircuit + 0x02) = 1 ∧
      t.peek (recordBase f.dstCircuit + 0x20) = (s.circuit f.dstCircuit).postedCopy - (s.circuit f.dstCircuit).txDone ∧
      sameWindow s t (heardBytes ++ recordBytes f.dstCircuit [0x00, 0x02, 0x20] ++ raiseBytes s 1)) ∧
  (∀ (s : State) (f : Frame), MemoryLaw s → hears .clear f s → reaches f s →
    (s.circuit f.dstCircuit).state = .draining ∨ (s.circuit f.dstCircuit).state = .clearing →
    ∃ t, exec (.clearReceived f) s = .next t ∧ heardBlocks .clear f s t ∧
      freedIn (s.updCircuit f.dstCircuit fun k => { k with controlOwed := some .confirm }) t f.dstCircuit
        (completedWith (s.circuit f.dstCircuit)
          (if (s.circuit f.dstCircuit).state = .draining then .peerCleared else .done)) ∧
      sameWindow s t (heardBytes ++ [0x30, 0x31] ++ freedBytes f.dstCircuit ++ raiseBytes s 1)) ∧
  (∀ (s : State) (f : Frame), MemoryLaw s → hears .clear f s → reaches f s → (s.circuit f.dstCircuit).state = .ended →
    ∃ t, exec (.clearReceived f) s = .next t ∧ heardBlocks .clear f s t ∧ sameCircuits s t f.dstCircuit ∧
      t.orphans = s.orphans ∧ t.notice = s.notice ∧
      t.circuit f.dstCircuit = { s.circuit f.dstCircuit with controlOwed := some .confirm } ∧ sameWindow s t heardBytes) ∧
  (∀ (s : State) (f : Frame), MemoryLaw s → hears .confirm f s → reaches f s → (s.circuit f.dstCircuit).state = .clearing →
    ∃ t, exec (.confirmReceived f) s = .next t ∧ heardBlocks .confirm f s t ∧
      freedIn s t f.dstCircuit (completedWith (s.circuit f.dstCircuit) .done) ∧
      sameWindow s t (heardBytes ++ [0x30, 0x31] ++ freedBytes f.dstCircuit ++ raiseBytes s 1))

/-- A stray DATA, ACK or ANSWER draws a CLEAR and a stray CLEAR a CONFIRM; a stray REFUSE or CONFIRM draws nothing; DATA to a circuit
that ended without its peer knowing draws a CLEAR; and a frame that its circuit's state discards does nothing. No circuit changes in
any of these cases (R65, R68, R77). A good frame of a present peer to another station is heard like any other, counted, its source
refreshed and B taken, and its content goes nowhere (R12, R23, R38, R40, R168). -/
def Obligations.StrayAndDiscardedFrames : Prop :=
  (∀ (s : State) (k : Kind) (f : Frame), MemoryLaw s → k ≠ .call → k ≠ .roll → hears k f s →
    isStray s f = true ∨ (k = .data ∧ (s.circuit f.dstCircuit).state = .ended ∧
      (s.circuit f.dstCircuit).endCause ≠ .peerCleared) →
    ∃ t, exec (frameRow k f) s = .next t ∧ heardBlocks k f s t ∧ allCircuitsSame s t ∧ t.notice = s.notice ∧
      t.orphans = (match k with
        | .data | .ack | .answer => withOrphan s.station.state s.orphans f.src f.srcCircuit (.clear f.dstCircuit)
        | .clear => withOrphan s.station.state s.orphans f.src f.srcCircuit (.confirm f.dstCircuit)
        | _ => s.orphans) ∧
      showsDrops s t ∧ sameWindow s t (heardBytes ++ [0x30, 0x31])) ∧
  (∀ (s : State) (k : Kind) (f : Frame), MemoryLaw s → hears k f s → isStray s f = false →
    discards (s.circuit f.dstCircuit) k f = true →
    ∃ t, exec (frameRow k f) s = .next t ∧ heardBlocks k f s t ∧ allCircuitsSame s t ∧ t.notice = s.notice ∧
      t.orphans = s.orphans ∧ sameWindow s t heardBytes) ∧
  (∀ (s : State) (k : Kind) (f : Frame), MemoryLaw s → k ≠ .roll → hearsFrom k f s → s.roster.isPresent f.src = true →
    f.dst ≠ s.station.address →
    ∃ t, exec (frameRow k f) s = .next t ∧ heardBlocks k f s t ∧ allCircuitsSame s t ∧ t.notice = s.notice ∧
      t.orphans = s.orphans ∧ sameWindow s t heardBytes)

/-! ## Turns and own frames -/

/-- TURN: the turn is made once in a round, at the start of the own position; it passes unused where transmit is disabled, where the
line is not IDLE, and where nothing is owed; and in JOINING it sends a ROLL, with the present set, if one is owed and no other frame
(R25, R27, R39, R43, R50). That the row does nothing before its time is log 4, and the flag that marks the turn as made is the
model's own (log 26). -/
def Obligations.TurnIsMadeOnceAndPassesUnused : Prop :=
  (∀ s : State, ¬atPosition s.arbiter → exec .turn s = .next s) ∧
  (∀ s : State, atPosition s.arbiter →
    s.station.state.transmits = false ∨ s.line.state ≠ .idle ∨ (s.station.state = .joining ∧ s.selector.rollOwed = false) ∨
      (s.station.state = .active ∧ noCall s ∧ s.selector.rollOwed = false ∧
        ∀ c, resendOf (s.circuit c) = none ∧ maySend (s.circuit c) = false ∧ owesAck (s.circuit c) = false) →
    exec .turn s = .next { s with arbiter := turnArbiter s.arbiter }) ∧
  (∀ s : State, turnReady s → s.station.state = .joining → s.selector.rollOwed = true →
    ∃ t, exec .turn s = .next t ∧ starts s t (rollOf s) ∧ isPresentSet s.roster.presentSet s.roster ∧ allCircuitsSame s t ∧
      t.orphans = s.orphans)

/-- TURN in ACTIVE, ranks 1 and 2: the control frame of the lowest-numbered circuit that owes one, then the oldest orphan entry, then
the CALL of the lowest-numbered circuit that owes one; the start discharges what the frame answers (R50, R52, R62, R73, R74, R82).
-/
def Obligations.TurnSendsControlThenOrphanThenCall : Prop :=
  (∀ (s : State) (c : CircuitNo), turnReady s → s.station.state = .active →
    (∀ d, d < c → controlOf (s.circuit d) = none) → ∀ kind ∈ controlOf (s.circuit c),
    ∃ t, exec .turn s = .next t ∧
      starts s t ⟨.control kind, ownedBy s c, (match kind with | .answer => .answer | .confirm => .confirm | .clear => .clear),
        frameOf s c ((s.circuit c).peerCircuit.getD 0) (if kind = .answer then (s.circuit c).peerTag.getD 0 else 0) 0
          (if kind = .answer then openingCredit (s.circuit c) else 0) false false,
        .literal [], ⟨some kind, false, false, false⟩⟩ ∧
      sameCircuits s t c ∧ t.circuit c = { s.circuit c with controlOwed := none } ∧ t.orphans = s.orphans) ∧
  (∀ s : State, turnReady s → s.station.state = .active → (∀ c, controlOf (s.circuit c) = none) →
    ∀ o ∈ s.orphans.entries.head?,
    ∃ t, exec .turn s = .next t ∧
      starts s t ⟨.orphan, .orphanList, o.reply.kind,
        ⟨o.peer, s.station.address, false, false, o.peerCircuit,
          (match o.reply with | .clear own => own | .confirm own => own | .refuse _ _ => 0),
          (match o.reply with | .refuse tag _ => tag | _ => 0), 0, 0, []⟩,
        .literal (match o.reply with
          | .refuse _ .noListener => [1]
          | .refuse _ .modeMismatch => [2]
          | _ => []), ⟨none, false, false, false⟩⟩ ∧
      allCircuitsSame s t ∧ t.orphans = { s.orphans with entries := { o with inFlight := true } :: s.orphans.entries.tail }) ∧
  (∀ (s : State) (c : CircuitNo), turnReady s → s.station.state = .active → noControl s →
    owesCall (s.circuit c) = true → (∀ d, d < c → owesCall (s.circuit d) = false) →
    ∃ t, exec .turn s = .next t ∧
      starts s t ⟨.call, ownedBy s c, .call,
        frameOf s c 0 (s.circuit c).callTag 0 (openingCredit (s.circuit c)) false false,
        .literal [(s.circuit c).service, if (s.circuit c).mode = .plain then 1 else 0], ⟨none, true, false, false⟩⟩ ∧
      sameCircuits s t c ∧ t.circuit c = { s.circuit c with callOwed := false } ∧ t.orphans = s.orphans)

/-- TURN in ACTIVE, ranks 3 to 6, where the slots asked about hold lengths up to 252: a resend of the lowest-numbered circuit with a
resend point, then a new segment of the first circuit from the rotation pointer that may send one, then the lowest-numbered ACK or
POLL owed, then ROLL, with the present set (R25, R27, R50, R51, R52, R100, R101, R102, R108, R117, R120, R121). -/
def Obligations.TurnSendsDataThenAckThenRoll : Prop :=
  (∀ (s : State) (c : CircuitNo), turnReady s → s.station.state = .active → noCall s →
    (∀ d, d < c → resendOf (s.circuit d) = none) → ∀ q ∈ resendOf (s.circuit c),
    (s.peek (sendSlot (s.circuit c) q)).toNat ≤ 252 →
    ∃ t, exec .turn s = .next t ∧ starts s t (dataOf s c q (.resend q)) ∧ sameCircuits s t c ∧
      t.circuit c = { s.circuit c with ackOwed := false } ∧ t.orphans = s.orphans) ∧
  (∀ (s : State) (c : CircuitNo), turnReady s → s.station.state = .active → noCall s → (∀ d, resendOf (s.circuit d) = none) →
    c.val < s.station.circuitCount → maySend (s.circuit c) = true →
    (∀ d : CircuitNo, d.val < s.station.circuitCount → rotationRank s d < rotationRank s c → maySend (s.circuit d) = false) →
    (s.peek (sendSlot (s.circuit c) (s.circuit c).nextSeq)).toNat ≤ 252 →
    ∃ t, exec .turn s = .next t ∧ starts s t (dataOf s c (s.circuit c).nextSeq .newData) ∧ sameCircuits s t c ∧
      t.circuit c = { s.circuit c with ackOwed := false } ∧ t.orphans = s.orphans) ∧
  (∀ (s : State) (c : CircuitNo), turnReady s → s.station.state = .active → noCall s →
    (∀ d, resendOf (s.circuit d) = none ∧ maySend (s.circuit d) = false) →
    owesAck (s.circuit c) = true → (∀ d, d < c → owesAck (s.circuit d) = false) →
    ∃ t, exec .turn s = .next t ∧
      starts s t ⟨.ack, ownedBy s c, .ack,
        frameOf s c ((s.circuit c).peerCircuit.getD 0) 0 (s.circuit c).expectedSeq (BitVec.ofNat 6 (roomNow (s.circuit c))) false
          (s.circuit c).pollOwed,
        .literal [], ⟨none, false, (s.circuit c).ackOwed, (s.circuit c).pollOwed⟩⟩ ∧
      sameCircuits s t c ∧ t.circuit c = { s.circuit c with ackOwed := false, pollOwed := false } ∧ t.orphans = s.orphans) ∧
  (∀ s : State, turnReady s → s.station.state = .active → noCall s →
    (∀ d, resendOf (s.circuit d) = none ∧ maySend (s.circuit d) = false ∧ owesAck (s.circuit d) = false) →
    s.selector.rollOwed = true →
    ∃ t, exec .turn s = .next t ∧ starts s t (rollOf s) ∧ isPresentSet s.roster.presentSet s.roster ∧ allCircuitsSame s t ∧
      t.orphans = s.orphans)

/-- A slot length above 252, found as a DATA is about to be offered, loses the circuit with SLOT_FAULT: the fault kind is written and
FAULT raised before the loss, the circuit is lost, and a CLEAR to its peer circuit goes to the orphan list (R95, R102). The turn passes
to the next candidate of ranks 3 to 6: it does what a TURN does in the state that the loss leaves, but for the orphan list, which it
does not ask again (R50, R102). -/
def Obligations.BadSlotLengthLosesTheCircuit : Prop :=
  ∀ (s : State) (c : CircuitNo), MemoryLaw s → turnReady s → s.station.state = .active → s.selector.inFlight = none → noCall s →
    ((∀ d, d < c → resendOf (s.circuit d) = none) ∧
      ∃ q ∈ resendOf (s.circuit c), 252 < (s.peek (sendSlot (s.circuit c) q)).toNat) ∨
    ((∀ d, resendOf (s.circuit d) = none) ∧ c.val < s.station.circuitCount ∧ maySend (s.circuit c) = true ∧
      (∀ d : CircuitNo, d.val < s.station.circuitCount → rotationRank s d < rotationRank s c → maySend (s.circuit d) = false) ∧
      252 < (s.peek (sendSlot (s.circuit c) (s.circuit c).nextSeq)).toNat) →
    ∃ u v t, exec .turn s = .next t ∧
      u = { s with circuits := u.circuits, orphans := u.orphans, notice := u.notice, window := u.window } ∧ sameCircuits s u c ∧
      u.circuit c = lostWith { s.circuit c with faultKind := .slotFault } .slotFault ∧
      u.peek (recordBase c + 0x0F) = 3 ∧ u.peek (recordBase c) = (u.circuit c).state.code ∧
      lossShows u c (s.circuit c) .slotFault ∧ told s u u (.circuit c .fault) ∧
      (∀ p ∈ lossPair (s.circuit c) c .slotFault, told s u u p) ∧
      raisedOnly s u (.circuit c .fault :: (lossPair (s.circuit c) c .slotFault).toList) ∧
      u.orphans = { s.orphans with entries := [⟨(s.circuit c).peer, (s.circuit c).peerCircuit.getD 0, .clear c, false⟩] } ∧
      sameWindow s u ([recordBase c + 0x0F] ++ lossBytes c ++ raiseBytes s 2) ∧
      turnReady u ∧ noCall { u with orphans.entries := [] } ∧ exec .turn { u with orphans.entries := [] } = .next v ∧
      t = { v with orphans := t.orphans, window := t.window } ∧ sameWindow v t [0x30, 0x31] ∧
      t.orphans.entries.head? = u.orphans.entries.head? ∧ (v.orphans.entries = [] → t = { v with orphans := u.orphans })

/-- FRAME_SENT without loop test: the driver is released, the frame is counted, the silence timer restarts and ROLL owed is
cleared, B becomes the own address, the collision count 0 and a round begins; the owner takes its own steps; and the ROLL of a
station in JOINING makes it ACTIVE (R16, R28, R31, R40, R48, R51, R53, R54). SPACE_OUT of a sent plain segment and STATION of that ROLL
are raised where they are due, and nothing else (R166). What the spec leaves to inference here is the
model's reading: the pointer, the reports of a resend and of an ACK, a resend of U under which the timer ran out, and the quiet
measure from the end of the frame (logs 18, 29, 32 and 35). -/
def Obligations.SentReportReachesEveryOwner : Prop :=
  ∀ s : State, MemoryLaw s → s.line.state = .sending → s.arbiter.state = .busy → s.station.loop = false → s.station.address ≠ 31 →
    ∀ f ∈ s.selector.inFlight,
    ∃ t, exec .frameSent s = .next t ∧
      t = { s with
        station := if f.use = .roll ∧ s.station.state = .joining then { s.station with state := .active, joinTimer := none }
          else s.station
        line := releasedLine s.line 0
        quality.framesSent := s.quality.framesSent + 1
        roster.silence := 0
        arbiter := roundBegun s { s.arbiter with base := s.station.address, collisions := 0 }
        selector := ⟨match f.owner with
            | .circuit c _ => if f.use ≠ .newData then s.selector.pointer
              else if c.val + 1 < s.station.circuitCount then c.val + 1 else 0
            | _ => s.selector.pointer, false, none⟩
        orphans.entries := if f.owner = .orphanList then s.orphans.entries.filter fun o => !o.inFlight else s.orphans.entries
        circuits := t.circuits
        notice := t.notice
        window := t.window } ∧
      (∀ d, t.circuit d = match f.owner with
        | .circuit c life => if d = c ∧ stillOf s c life = true then afterSent (s.circuit d) f else s.circuit d
        | _ => s.circuit d) ∧
      shows t 0x1C (s.quality.framesSent + 1) ∧
      raisedOnly s t ((allCircuits.flatMap fun c => spaceOutDue (s.circuit c) (t.circuit c) c) ++
        if f.use = .roll ∧ s.station.state = .joining then [.station .station] else []) ∧
      (f.use = .roll → s.station.state = .joining → t.peek 0x03 = 3 ∧ raisedIn s t (.station .station)) ∧
      (∀ c : CircuitNo, (t.circuit c).txDone ≠ (s.circuit c).txDone → t.peek (recordBase c + 0x16) = (t.circuit c).txDone ∧
        (span (s.circuit c).txDone (s.circuit c).postedCopy > (s.circuit c).txNotice.toNat →
          span (t.circuit c).txDone (s.circuit c).postedCopy ≤ (s.circuit c).txNotice.toNat →
          told s t t (.circuit c .spaceOut)) ∧
        ((t.circuit c).state ≠ (s.circuit c).state → t.peek (recordBase c) = 5)) ∧
      sameWindow s t ([0x1C, 0x1D] ++ (if f.use = .roll ∧ s.station.state = .joining then [0x03] else []) ++
        (match f.owner, f.use with
          | .circuit c _, .newData => if (s.circuit c).mode = .plain then recordBytes c [0x00, 0x16] else []
          | _, _ => []) ++ raiseBytes s 1)

/-- FRAME_SENT in loop test does what it does outside it, on a line that is quiet from there on, and then takes the looped copy of the
bytes driven: the bytes already driven, then the rest as the header, the payload and the slot now stand (the model's reading, log 22),
and the check over them all. The copy is counted in its class and goes to the Circuit Table as the same frame from the line does, but
neither to the Turn Arbiter nor to the Roster; addressed elsewhere, or a ROLL, it reaches no circuit (R10, R12, R14, R18, R34). -/
def Obligations.LoopedCopyReachesOnlyTheCircuits : Prop :=
  (∀ s : State, s.line.state = .sending → s.station.loop = true → ∀ f ∈ s.selector.inFlight,
    exec .frameSent s = withLoopedCopy (exec .frameSent { s with station.loop := false }) (s.frameOnLine f)) ∧
  (∀ (u : State) (bytes : List Byte),
    (u.loopedCopy bytes).arbiter = u.arbiter ∧ (u.loopedCopy bytes).roster = u.roster ∧
    (u.loopedCopy bytes).station = u.station ∧ (u.loopedCopy bytes).line.state = u.line.state ∧
    (u.loopedCopy bytes).quality = { u.quality with
      damagedHeard := if isDamaged bytes = true then u.quality.damagedHeard + 1 else u.quality.damagedHeard
      d := if isDamaged bytes = true ∧ u.quality.d ≠ 0xFFFF then u.quality.d + 1 else u.quality.d
      malformed := if isMalformed bytes then u.quality.malformed + 1 else u.quality.malformed
      goodHeard := if isDamaged bytes = true ∨ isMalformed bytes then u.quality.goodHeard else u.quality.goodHeard + 1 }) ∧
  (∀ (u : State) (k : Kind) (f : Frame), keepsRules k f = true → k = .roll ∨ f.dst ≠ u.station.address →
    (u.loopedCopy (frameBytes k f)).circuits = u.circuits ∧ (u.loopedCopy (frameBytes k f)).orphans = u.orphans ∧
    (u.loopedCopy (frameBytes k f)).notice = u.notice) ∧
  (∀ (u : State) (k : Kind) (f : Frame), keepsRules k f = true →
    (u.loopedCopy (frameBytes k f)).circuits = (u.tableFrame k f).circuits ∧
    (u.loopedCopy (frameBytes k f)).orphans = (u.tableFrame k f).orphans ∧
    (u.loopedCopy (frameBytes k f)).notice = (u.tableFrame k f).notice) ∧
  (∀ (u : State) (k : Kind) (f : Frame), keepsRules k f = true → u.station.loop = true → f.src = u.station.address →
    ∃ v, exec (frameRow k f) { u with line.state := .hearing } = .next v ∧
      u.loopedCopy (frameBytes k f) =
        { v with line := { v.line with state := u.line.state, quiet := u.line.quiet }, arbiter := u.arbiter }) ∧
  (∀ (s : State) (f : FlightFrame),
    (s.frameOnLine f).length = 9 + payloadSize f ∧
    (∀ i, i < 7 + payloadSize f →
      (s.frameOnLine f).getD i 0 = if i < s.line.driven.length then s.line.driven.getD i 0 else ownByte s f i) ∧
    (s.frameOnLine f).getD (7 + payloadSize f) 0 =
      (checkOf ((s.frameOnLine f).take (7 + payloadSize f)) >>> 8).setWidth 8 ∧
    (s.frameOnLine f).getD (8 + payloadSize f) 0 = (checkOf ((s.frameOnLine f).take (7 + payloadSize f))).setWidth 8)

/-- FRAME_COLLIDED: the driver is released and the collision counted, in the cumulative counter, in K, which stops at 65,535, and in
the consecutive count, up to 16; what the start discharged is owed again; and the round that begins is full, with B unchanged (R16,
R40, R45, R48, R53, R54). In ACTIVE the sixteenth collision in a row also mutes the station (R49). Which flags are owed again where
some have been cleared since, and the quiet measure after the end, are the model's reading (logs 18 and 35). -/
def Obligations.CollidedReportRestoresAndMutes : Prop :=
  (∀ s : State, MemoryLaw s → s.line.state = .stopped → s.arbiter.state = .busy → s.station.state ≠ .active ∨ s.arbiter.collisions < 15 →
    ∀ f ∈ s.selector.inFlight,
    ∃ t, exec .frameCollided s = .next t ∧
      t = { s with
        line := releasedLine s.line (if 20 ≤ s.line.quiet then 20 else 0)
        quality := { s.quality with
          ownCollisions := s.quality.ownCollisions + 1
          k := if s.quality.k = 0xFFFF then 0xFFFF else s.quality.k + 1 }
        arbiter := roundBegun s { s.arbiter with fullNext := true, collisions := min 16 (s.arbiter.collisions + 1) }
        selector.inFlight := none
        orphans.entries := if f.owner = .orphanList then s.orphans.entries.map fun o => { o with inFlight := false }
          else s.orphans.entries
        circuits := t.circuits
        window := t.window } ∧
      (∀ d, t.circuit d = match f.owner with
        | .circuit c life => if d = c ∧ stillOf s c life = true then afterCollided (s.circuit d) f.discharged else s.circuit d
        | _ => s.circuit d) ∧
      shows t 0x24 (s.quality.ownCollisions + 1) ∧ shows t 0x28 t.quality.k ∧ sameWindow s t [0x24, 0x25, 0x28, 0x29]) ∧
  (∀ s : State, s.line.state = .stopped → s.selector.inFlight ≠ none → s.arbiter.state = .busy → s.station.state = .active →
    exec .frameCollided s = thenMuted (exec .frameCollided { s with station.state := .joining }))

/-! ## Station changes and timers -/

/-- ENTER_MUTED, with 16 collisions in a row in ACTIVE: transmit is disabled, all owed state and the orphan list are cleared,
every circuit in CALLING, OPEN, DRAINING or CLEARING is lost with LOST_MUTED, MUTED_SEEN is set, and the mute timer starts
(R49, R56, R96, R171, R179). Otherwise the row does nothing. The row takes the happening if its cause has not, and losses run
in ascending circuit order (the model's choices, logs 10 and 14). -/
def Obligations.MutingLosesEveryCircuit : Prop :=
  ∀ s : State, MemoryLaw s → ∃ t, exec .enterMuted s = .next t ∧
    if s.station.state = .active ∧ s.arbiter.collisions = 16 then
      t = { s with
        station := { s.station with state := .muted, muteTimer := some 0 }
        line := { s.line with txEnable := false, txen := false }
        arbiter.collisions := 0
        selector := { s.selector with rollOwed := false, inFlight := t.selector.inFlight }
        roster.silence := 0
        orphans.entries := []
        circuits := t.circuits
        notice := t.notice
        quality.mutedSeen := true
        window := t.window } ∧
      (s.selector.inFlight = none → t.selector.inFlight = none) ∧
      lostAll s t (fun c => owedCleared (s.circuit c)) (fun _ => true) .lostMuted ∧
      raisedOnly s t (lossPairs s.circuit (fun _ => true) .lostMuted ++ [.station .station]) ∧
      t.peek 0x03 = 4 ∧ t.peek 0x1A = flagsByte t.quality ∧ t.peek 0x1B = 0 ∧ told s t t (.station .station) ∧
      sameWindow s t ([0x03, 0x1A, 0x1B] ++ allCircuits.flatMap lossBytes ++ raiseBytes s 17)
    else t = s

/-- PEER_AGED_OUT for a present peer whose age has come to T_absent, of a station that receives: the entry is absent with age 0, the
mirror and the change counter are written, full-next is set, ROSTER is raised, and every circuit in CALLING, OPEN, DRAINING or CLEARING
that names the peer is lost with LOST_ABSENT (R24, R25, R45, R93). The own address does not age, and for an absent one, or one whose
age a frame end has set back to 0, the row does nothing (R24; log 4). -/
def Obligations.AgedOutPeerIsRemovedWithItsCircuits : Prop :=
  ∀ (s : State) (a : Address), MemoryLaw s → ∃ t, exec (.peerAgedOut a) s = .next t ∧
    if s.station.state.receives = true ∧ a ≠ s.station.address ∧ s.roster.isPresent a = true ∧
        262144 ≤ (s.roster.entry a.toNat).age then
      t = { s with
        arbiter.fullNext := true
        selector := { s.selector with inFlight := t.selector.inFlight }
        roster := t.roster
        orphans := t.orphans
        circuits := t.circuits
        notice := t.notice
        window := t.window } ∧
      (s.selector.inFlight = none → t.selector.inFlight = none) ∧ t.roster.silence = s.roster.silence ∧
      rosterChanged s t (fun b => if b = a.toNat then ⟨false, 0⟩ else s.roster.entry b) ∧
      mirrorShows t a ∧ isPresentSet t.roster.presentSet t.roster ∧
      told s t t (.station .roster) ∧ lostAll s t s.circuit (fun c => decide ((s.circuit c).peer = a)) .lostAbsent ∧
      raisedOnly s t (.station .roster :: lossPairs s.circuit (fun c => decide ((s.circuit c).peer = a)) .lostAbsent) ∧
      ((∀ c, (s.circuit c).controlOwed ≠ some .confirm ∨ (s.circuit c).state = .ended) → t.orphans = s.orphans) ∧
      sameWindow s t (mirrorBytes a ++ [0x30, 0x31] ++
        allCircuits.flatMap lossBytes ++ raiseBytes s 17)
    else t = s

/-- SILENCE_TIMER_EXPIRY in ACTIVE makes ROLL owed, the timer standing at T_roll (R28); JOIN_TIMER_EXPIRY in JOINING stops the
timer, makes ROLL owed and sets full-next (R31, R45, R178); MUTE_TIMER_EXPIRY in MUTED enables transmit again and enters
JOINING (R178, R179), what the circuits owe being kept (the model's choice, log 37). In other states, or with the timer stopped or short
of its limit, each does nothing (log 4). -/
def Obligations.StationTimersExpire : Prop :=
  (∀ s : State, exec .silenceTimerExpiry s = .next (
    if s.station.state = .active ∧ 32768 ≤ s.roster.silence then { s with selector.rollOwed := true } else s)) ∧
  (∀ s : State, exec .joinTimerExpiry s = .next (
    if s.station.state = .joining ∧ 65536 ≤ s.station.joinTimer.getD 0 then
      { s with station.joinTimer := none, selector.rollOwed := true, arbiter.fullNext := true }
    else s)) ∧
  (∀ s : State, MemoryLaw s → ∃ t, exec .muteTimerExpiry s = .next t ∧
    if s.station.state = .muted ∧ 262144 ≤ s.station.muteTimer.getD 0 then
      t = { s with
        station := { s.station with state := .joining, muteTimer := none, joinTimer := some 0 }
        line.txEnable := true
        arbiter := { s.arbiter with fullNext := true, collisions := 0 }
        notice := t.notice
        window := t.window } ∧
      raisedIn s t (.station .station) ∧ t.peek 0x03 = 2 ∧ sameWindow s t ([0x03] ++ raiseBytes s 1)
    else t = s)

/-- CALL_RETRY_EXPIRY of a CALLING circuit, and CLEAR_RETRY_EXPIRY of a CLEARING one: the timer stops; with fewer than 4 sends
the CALL or the CLEAR is owed again, and after 4 the circuit goes FREE with NO_ANSWER or UNCONFIRMED (R64, R83). In another
state, or with the timer stopped or short of T_retry, the rows do nothing (log 4). -/
def Obligations.CallAndClearRetriesRunOut : Prop :=
  (∀ (s : State) (c : CircuitNo), MemoryLaw s → ∃ t, exec (.callRetryExpiry c) s = .next t ∧
    if (s.circuit c).state = .calling ∧ 131072 ≤ (s.circuit c).retryTimer.getD 0 then
      if (s.circuit c).sendCount < 4 then
        t = { s with circuits := t.circuits } ∧ sameCircuits s t c ∧
        t.circuit c = { s.circuit c with retryTimer := none, callOwed := true }
      else
        t = { s with
          selector := flightForgets s c true
          orphans := t.orphans
          circuits := t.circuits
          notice := t.notice
          window := t.window } ∧
        freedIn s t c (completedWith (s.circuit c) .noAnswer) ∧
        sameWindow s t ([0x30, 0x31] ++ freedBytes c ++ raiseBytes s 1)
    else t = s) ∧
  (∀ (s : State) (c : CircuitNo), MemoryLaw s → ∃ t, exec (.clearRetryExpiry c) s = .next t ∧
    if (s.circuit c).state = .clearing ∧ 131072 ≤ (s.circuit c).retryTimer.getD 0 then
      if (s.circuit c).sendCount < 4 then
        t = { s with circuits := t.circuits } ∧ sameCircuits s t c ∧
        t.circuit c = { s.circuit c with retryTimer := none, controlOwed := some .clear }
      else
        t = { s with
          selector := flightForgets s c true
          orphans := t.orphans
          circuits := t.circuits
          notice := t.notice
          window := t.window } ∧
        freedIn s t c (completedWith (s.circuit c) .unconfirmed) ∧
        sameWindow s t ([0x30, 0x31] ++ freedBytes c ++ raiseBytes s 1)
    else t = s)

/-- DATA_RETRY_EXPIRY of an assured circuit in OPEN or DRAINING: the count advances, and below 7 the resend point goes back to
the oldest segment and the timer restarts, while at 7 the circuit is lost with LOST_RETRIES (R107). PROBE_EXPIRY makes a POLL
owed, and the timer restarts while the stall holds (R109, R110). With the timer stopped or short of T_retry the rows do nothing, as
after an acknowledgement taken first (R92, R110; log 4). -/
def Obligations.DataRetriesAndProbesRunOut : Prop :=
  (∀ (s : State) (c : CircuitNo), MemoryLaw s → ∃ t, exec (.dataRetryExpiry c) s = .next t ∧
    if (s.circuit c).mode = .assured ∧ (s.circuit c).state.transfers = true ∧
        131072 ≤ (s.circuit c).dataRetryTimer.getD 0 then
      if (s.circuit c).dataRetryCount + 1 < 7 then
        t = { s with circuits := t.circuits } ∧ sameCircuits s t c ∧
        t.circuit c = { s.circuit c with
          dataRetryCount := (s.circuit c).dataRetryCount + 1
          resendPoint := some (s.circuit c).oldestSeq
          dataRetryTimer := some 0 }
      else
        t = { s with
          selector := flightForgets s c true
          orphans := t.orphans
          circuits := t.circuits
          notice := t.notice
          window := t.window } ∧
        sameCircuits s t c ∧ t.circuit c = lostWith { s.circuit c with dataRetryCount := 7 } .lostRetries ∧
        t.orphans = (if (s.circuit c).state = .draining then movedConfirm s c else s.orphans) ∧
        t.peek (recordBase c) = (t.circuit c).state.code ∧
        lossShows t c (s.circuit c) .lostRetries ∧ showsDrops s t ∧
        raisedIfAny s t (lossPair (s.circuit c) c .lostRetries) ∧
        sameWindow s t ([0x30, 0x31] ++ lossBytes c ++ raiseBytes s 1)
    else t = s) ∧
  (∀ (s : State) (c : CircuitNo), ∃ t, exec (.probeExpiry c) s = .next t ∧ t = { s with circuits := t.circuits } ∧
    sameCircuits s t c ∧
    t.circuit c = if (s.circuit c).probeTimer.getD 0 < 131072 then s.circuit c
      else { s.circuit c with pollOwed := true, probeTimer := if (s.circuit c).stalled then some 0 else none })

/-- RX_IDLE_EXPIRY stops the timer, and raises DATA_IN if a receive slot is filled (R165). QUALITY_WINDOW_END tests D + K
against the thresholds, changes the level with its sticky flag and QUALITY if they call for it, and starts the next window from
0 (R169, R170, R171). With the timer stopped or short of its limit the rows do nothing, as after a fill taken first (R165; log 4). -/
def Obligations.IdleAndQualityTimersRunOut : Prop :=
  (∀ (s : State) (c : CircuitNo), MemoryLaw s → ∃ t, exec (.rxIdleExpiry c) s = .next t ∧ onlyCircuit s t c ∧
    t.circuit c = (if 16384 ≤ (s.circuit c).rxIdleTimer.getD 0 then { s.circuit c with rxIdleTimer := none } else s.circuit c) ∧
    if 16384 ≤ (s.circuit c).rxIdleTimer.getD 0 ∧ 0 < span (s.circuit c).releaseCopy (s.circuit c).rxFill then
      raisedIn s t (.circuit c .dataIn) ∧ sameWindow s t (raiseBytes s 1)
    else t.notice = s.notice ∧ t.window = s.window) ∧
  (∀ (s : State) (q : QualityParams), MemoryLaw s → s.quality.params = some q →
    65536 * 2 ^ q.exponent ≤ s.quality.windowTimer.getD 0 →
    ∃ t, exec .qualityWindowEnd s = .next t ∧
      t = { s with quality := t.quality, notice := t.notice, window := t.window } ∧
      (∀ a ∈ bytesFrom 0x26 4, t.peek a = 0) ∧
      if s.quality.level = .good ∧ q.high ≤ s.quality.d.toNat + s.quality.k.toNat then
        t.quality = { s.quality with level := .poor, wentPoor := true, d := 0, k := 0, windowTimer := some 0 } ∧
        raisedIn s t (.station .quality) ∧ t.peek 0x13 = 1 ∧ t.peek 0x1A = flagsByte t.quality ∧
        sameWindow s t ([0x13, 0x1A, 0x1B] ++ bytesFrom 0x26 4 ++ raiseBytes s 1)
      else if s.quality.level = .poor ∧ s.quality.d.toNat + s.quality.k.toNat ≤ q.low then
        t.quality = { s.quality with level := .good, wentGood := true, d := 0, k := 0, windowTimer := some 0 } ∧
        raisedIn s t (.station .quality) ∧ t.peek 0x13 = 0 ∧ t.peek 0x1A = flagsByte t.quality ∧
        sameWindow s t ([0x13, 0x1A, 0x1B] ++ bytesFrom 0x26 4 ++ raiseBytes s 1)
      else
        t.quality = { s.quality with d := 0, k := 0, windowTimer := some 0 } ∧ t.notice = s.notice ∧
        sameWindow s t (bytesFrom 0x26 4)) ∧
  (∀ s : State, (∀ q ∈ s.quality.params, s.quality.windowTimer.getD 0 < 65536 * 2 ^ q.exponent) →
    exec .qualityWindowEnd s = .next s)

/-! ## Laws -/

/-- Building a frame and classing it give the frame back: every good frame of every kind, from its fields to its bytes and back,
with every field at every value that R8 admits (R5, R7, R8, R9, R10, R11). -/
def Obligations.FramesSurviveTheLine : Prop :=
  ∀ (k : Kind) (f : Frame), keepsRules k f = true →
    classify false (frameBytes k f) = .good k f ∧ (frameBytes k f).length = 9 + f.payload.length ∧
    (frameLineBits (frameBytes k f)).length = 10 * (9 + f.payload.length)

/-- The MT16's own work never writes the request queue, the Start Block or the host scratch, nor, but for a segment it receives, the
ring area; and no command but the host's own writes and the start pass, which writes them 0, changes a host-owned field (R131, R132).
Of the command that writes the host's bytes, HOST_WRITE, another statement says what it writes, and of a taking of CONTROL which later
host writes may have reached memory by then (log 11). -/
def Obligations.WorkLeavesHostMemoryAlone : Prop :=
  ∀ (s : State) (i : Instr), (∀ c, RingAreaLaw (s.circuit c)) → i.wellFormed = true →
    (∀ w be1 be0 data, i ≠ .hostWrite w be1 be0 data) → (isControlRow i = true → openWrites s = false) →
    ∃ t, exec i s = .next t ∧ sameRange s t 0x0500 0x0600 ∧ sameRange s t 0x0800 0x1000 ∧
      ((∀ f, i ≠ .dataReceived f) → i ≠ .frameSent → sameRange s t 0x1000 65536) ∧
      (isHostWrite i = false → i ≠ .startPassEnd → ∀ a ∈ hostBytes, t.peek a = s.peek a)

/-- The state right after reset has every law of the machine. -/
def Obligations.ResetHasTheLaws : Prop :=
  MemoryLaw State.reset ∧ (∀ c, RingAreaLaw (State.reset.circuit c)) ∧ OrphanLaw State.reset ∧ RequestLaw State.reset ∧
  AttentionLaw State.reset ∧ IrqLaw State.reset ∧ PathLaw State.reset ∧ TimerLaw State.reset ∧ PresenceLaw State.reset ∧
  LandedLaw State.reset ∧ AgeLaw State.reset ∧ OwnFrameLaw State.reset ∧ InFlightLaw State.reset ∧ PairLaw State.reset ∧ TransferLaw State.reset

/-- Every step, of a command or of a bit time, keeps the memory in its canonical form and every ring within the ring area (R131,
R175, R176). -/
def Obligations.StepsKeepMemoryAndRings : Prop :=
  ∀ s t : State, MemoryLaw s → (∀ c, RingAreaLaw (s.circuit c)) → step s = .next t →
    MemoryLaw t ∧ ∀ c, RingAreaLaw (t.circuit c)

/-- Every step keeps the orphan list at 4 entries without duplicates, and the untaken requests at 16 (R75, R153).
Every step keeps the attention queue, its noted and pending sets, and IRQ in step with one another (R160, R161, R163). Every step keeps
the count of the host writes that stand in memory within those that wait (the model's own count, log 11). -/
def Obligations.StepsKeepTheQueues : Prop :=
  (∀ s t : State, OrphanLaw s → RequestLaw s → step s = .next t → OrphanLaw t ∧ RequestLaw t) ∧
  (∀ s t : State, AttentionLaw s → IrqLaw s → step s = .next t → AttentionLaw t ∧ IrqLaw t) ∧
  (∀ s t : State, LandedLaw s → step s = .next t → LandedLaw t)

/-- Every step keeps the line, the Turn Arbiter, the frame in flight and the station state in step: nothing is driven where transmit
is disabled, in JOINING only a ROLL is, and in loop test the line is never heard nor stopped, and quiet between own frames (R3, R18,
R37, R48, R49, R50, R173, R177). -/
def Obligations.StepsKeepThePathInOrder : Prop :=
  ∀ s t : State, PathLaw s → TimerLaw s → step s = .next t → PathLaw t ∧ TimerLaw t

/-- Every step keeps the peers of all circuits in CALLING, OPEN, DRAINING and CLEARING present, the station itself present while it
receives, every age within T_absent, and the own frame on the line one of the own address, whose header the bytes driven begin with
(R14, R21, R24, R35, R58, R93). -/
def Obligations.StepsKeepPeersPresent : Prop :=
  ∀ s t : State, PresenceLaw s → AgeLaw s → OwnFrameLaw s → step s = .next t → PresenceLaw t ∧ AgeLaw t ∧ OwnFrameLaw t

/-- Every step keeps each circuit's request in flight the one its state calls for, and no two live circuits on one pair of peer
station and peer circuit (R70, R157). -/
def Obligations.StepsKeepRequestsAndPairs : Prop :=
  ∀ s t : State, InFlightLaw s → PairLaw s → step s = .next t → InFlightLaw t ∧ PairLaw t

/-- Every step keeps every ring within its size, every send window within 8 segments of posted slots, and every frame in flight
within them (R98, R100, R141). -/
def Obligations.StepsKeepTheWindows : Prop :=
  ∀ s t : State, TransferLaw s → step s = .next t → TransferLaw t

end
end

