-- ==== Sys2Proof/Laws/Memory.lean ====
section
/-! SUPPORT. The window's memory: a read after a write, the canonical form, and that equal reads make equal memories. -/

namespace Sys2Proof.Laws

open Sys2Proof Sys2Proof.Machine

/-! ## Reads after writes -/

/-- Reading the offset just written gives the byte written. -/
theorem read_write_same (m : Memory) (a : Nat) (v : Byte) (lo : Nat) (h : Memory.wfFrom lo m = true) :
    Memory.read (Memory.write m a v) a = v := by
  induction m generalizing lo with
  | nil =>
    by_cases hv : v = unlistedByte <;> simp [Memory.write, Memory.read, hv]
  | cons c rest ih =>
    obtain ⟨b, w⟩ := c
    simp only [Memory.wfFrom, Bool.and_eq_true, decide_eq_true_eq] at h
    obtain ⟨⟨⟨hlo, hb⟩, hw⟩, hrest⟩ := h
    have absent : ∀ (lo : Nat) (m : Memory), Memory.wfFrom lo m = true → ∀ x, x < lo → Memory.read m x = unlistedByte := by
      intro lo m
      induction m generalizing lo with
      | nil => intro _ x _; rfl
      | cons c rest ih2 =>
        obtain ⟨b2, w2⟩ := c
        intro h2 x hx
        simp only [Memory.wfFrom, Bool.and_eq_true, decide_eq_true_eq] at h2
        have hne : x ≠ b2 := by omega
        simp only [Memory.read, hne, if_false]
        exact ih2 (b2 + 1) h2.2 x (by omega)
    simp only [Memory.write]
    split
    · rename_i hlt
      split
      · rename_i hv
        have hne : a ≠ b := by omega
        simp only [Memory.read, hne, if_false, hv]
        exact absent (b + 1) rest hrest a (by omega)
      · simp [Memory.read]
    · split
      · rename_i heq
        subst heq
        split
        · rename_i hv
          rw [hv]
          exact absent (a + 1) rest hrest a (by omega)
        · simp [Memory.read]
      · rename_i hne
        simp only [Memory.read, hne, if_false]
        exact ih (b + 1) hrest

/-- An offset below the first one listed reads as an unlisted one. -/
theorem read_below (lo : Nat) (m : Memory) (h : Memory.wfFrom lo m = true) (x : Nat) (hx : x < lo) :
    Memory.read m x = unlistedByte := by
  induction m generalizing lo with
  | nil => rfl
  | cons c rest ih =>
    obtain ⟨b, w⟩ := c
    simp only [Memory.wfFrom, Bool.and_eq_true, decide_eq_true_eq] at h
    have hne : x ≠ b := by omega
    simp only [Memory.read, hne, if_false]
    exact ih (b + 1) h.2 (by omega)

/-- A write leaves every other offset as it was, in any memory. -/
theorem read_write_other (m : Memory) (a : Nat) (v : Byte) (x : Nat) (hx : x ≠ a) :
    Memory.read (Memory.write m a v) x = Memory.read m x := by
  induction m with
  | nil =>
    by_cases hv : v = unlistedByte <;> simp [Memory.write, Memory.read, hv, hx]
  | cons c rest ih =>
    obtain ⟨b, w⟩ := c
    simp only [Memory.write]
    split
    · split
      · rfl
      · simp [Memory.read, hx]
    · split
      · rename_i heq
        subst heq
        split
        · simp [Memory.read, hx]
        · simp [Memory.read, hx]
      · simp only [Memory.read]
        split
        · rfl
        · exact ih

/-! ## The canonical form -/

/-- A weaker bound on the first offset. -/
theorem wfFrom_mono (lo lo' : Nat) (m : Memory) (hlo : lo' ≤ lo) (h : Memory.wfFrom lo m = true) : Memory.wfFrom lo' m = true := by
  cases m with
  | nil => rfl
  | cons c rest =>
    obtain ⟨b, w⟩ := c
    simp only [Memory.wfFrom, Bool.and_eq_true, decide_eq_true_eq] at h ⊢
    exact ⟨⟨⟨by omega, h.1.1.2⟩, h.1.2⟩, h.2⟩

/-- A write keeps the canonical form. -/
theorem write_wfFrom (m : Memory) (lo a : Nat) (v : Byte) (ha : a < 65536) (hlo : lo ≤ a) (h : Memory.wfFrom lo m = true) :
    Memory.wfFrom lo (Memory.write m a v) = true := by
  induction m generalizing lo with
  | nil =>
    by_cases hv : v = unlistedByte
    · simp [Memory.write, Memory.wfFrom, hv]
    · simp [Memory.write, Memory.wfFrom, hv, hlo, ha]
  | cons c rest ih =>
    obtain ⟨b, w⟩ := c
    have h0 := h
    simp only [Memory.wfFrom, Bool.and_eq_true, decide_eq_true_eq] at h
    obtain ⟨⟨⟨hlb, hb⟩, hw⟩, hrest⟩ := h
    simp only [Memory.write]
    split
    · rename_i hlt
      split
      · exact h0
      · rename_i hv
        simp only [Memory.wfFrom, Bool.and_eq_true, decide_eq_true_eq]
        exact ⟨⟨⟨hlo, ha⟩, hv⟩, ⟨⟨⟨by omega, hb⟩, hw⟩, hrest⟩⟩
    · split
      · rename_i heq
        subst heq
        split
        · exact wfFrom_mono (a + 1) lo rest (by omega) hrest
        · rename_i hv
          simp only [Memory.wfFrom, Bool.and_eq_true, decide_eq_true_eq]
          exact ⟨⟨⟨hlo, ha⟩, hv⟩, hrest⟩
      · rename_i hlt hne
        simp only [Memory.wfFrom, Bool.and_eq_true, decide_eq_true_eq]
        exact ⟨⟨⟨hlb, hb⟩, hw⟩, ih (b + 1) (by omega) hrest⟩

/-- Two canonical memories that read alike everywhere are equal. -/
theorem wfFrom_ext (m n : Memory) (lo : Nat) (hm : Memory.wfFrom lo m = true) (hn : Memory.wfFrom lo n = true)
    (h : ∀ a, Memory.read m a = Memory.read n a) : m = n := by
  induction m generalizing n lo with
  | nil =>
    cases n with
    | nil => rfl
    | cons c rest =>
      obtain ⟨b, w⟩ := c
      simp only [Memory.wfFrom, Bool.and_eq_true, decide_eq_true_eq] at hn
      have := h b
      simp only [Memory.read, if_true] at this
      exact absurd this.symm hn.1.2
  | cons c rest ih =>
    obtain ⟨b, w⟩ := c
    cases n with
    | nil =>
      simp only [Memory.wfFrom, Bool.and_eq_true, decide_eq_true_eq] at hm
      have := h b
      simp only [Memory.read, if_true] at this
      exact absurd this hm.1.2
    | cons c' rest' =>
      obtain ⟨b', w'⟩ := c'
      simp only [Memory.wfFrom, Bool.and_eq_true, decide_eq_true_eq] at hm hn
      have hbb : b = b' := by
        rcases Nat.lt_trichotomy b b' with hlt | heq | hgt
        · have := h b
          simp only [Memory.read, if_true, Nat.ne_of_lt hlt, if_false] at this
          rw [read_below (b' + 1) rest' hn.2 b (by omega)] at this
          exact absurd this hm.1.2
        · exact heq
        · have := h b'
          simp only [Memory.read, if_true, Nat.ne_of_lt hgt, if_false] at this
          rw [read_below (b + 1) rest hm.2 b' (by omega)] at this
          exact absurd this.symm hn.1.2
      subst hbb
      have hww : w = w' := by
        have := h b
        simpa only [Memory.read, if_true] using this
      subst hww
      have : rest = rest' := by
        refine ih rest' (b + 1) hm.2 hn.2 fun a => ?_
        by_cases hab : a = b
        · subst hab
          rw [read_below (a + 1) rest hm.2 a (by omega), read_below (a + 1) rest' hn.2 a (by omega)]
        · have := h a
          simpa only [Memory.read, hab, if_false] using this
      rw [this]

/-! ## The window -/

/-- The canonical form is kept by a write of one byte. -/
theorem poke_wf (s : State) (a : Nat) (v : Byte) (h : s.window.wf = true) : (s.poke a v).window.wf = true :=
  write_wfFrom s.window 0 (a % 65536) v (Nat.mod_lt _ (by decide)) (Nat.zero_le _) h

/-- The canonical form is kept by a write of a 16-bit field. -/
theorem pokeHalf_wf (s : State) (a : Nat) (v : Half) (h : s.window.wf = true) : (s.pokeHalf a v).window.wf = true :=
  poke_wf _ _ _ (poke_wf _ _ _ h)

/-- The canonical form is kept by a write of a run of bytes. -/
theorem pokeBytes_wf (bytes : List Byte) (s : State) (a : Nat) (h : s.window.wf = true) :
    (s.pokeBytes a bytes).window.wf = true := by
  induction bytes generalizing s a with
  | nil => exact h
  | cons v rest ih => exact ih _ _ (poke_wf _ _ _ h)

/-- Reading the byte just written, at an offset of the window. -/
theorem peek_poke_same (s : State) (a : Nat) (v : Byte) (h : s.window.wf = true) (ha : a < 65536) : (s.poke a v).peek a = v := by
  simp only [State.peek, State.poke, Nat.mod_eq_of_lt ha]
  exact read_write_same s.window a v 0 h

/-- Reading another byte than the one written. -/
theorem peek_poke_other (s : State) (a x : Nat) (v : Byte) (hx : x % 65536 ≠ a % 65536) : (s.poke a v).peek x = s.peek x := by
  simp only [State.peek, State.poke]
  exact read_write_other s.window (a % 65536) v (x % 65536) hx

/-- Two windows in canonical form that show the same bytes are equal. -/
theorem window_ext (s t : State) (hs : s.window.wf = true) (ht : t.window.wf = true)
    (h : ∀ a, Memory.read s.window a = Memory.read t.window a) : s.window = t.window :=
  wfFrom_ext s.window t.window 0 hs ht h

/-- The window right after reset is in canonical form. -/
theorem reset_window_wf : State.reset.window.wf = true := rfl

end Sys2Proof.Laws
end

