-- ==== Sys2Proof/Laws/State.lean ====
section
/-! SUPPORT. The small lemmas of the state's updates: one for each field that an update leaves alone, and what it writes. -/

namespace Sys2Proof.Laws

open Sys2Proof Sys2Proof.Machine

/-! ## Writes of the window -/

@[simp] theorem poke_station (s : State) (a : Nat) (v : Byte) : (s.poke a v).station = s.station := rfl
@[simp] theorem poke_line (s : State) (a : Nat) (v : Byte) : (s.poke a v).line = s.line := rfl
@[simp] theorem poke_arbiter (s : State) (a : Nat) (v : Byte) : (s.poke a v).arbiter = s.arbiter := rfl
@[simp] theorem poke_selector (s : State) (a : Nat) (v : Byte) : (s.poke a v).selector = s.selector := rfl
@[simp] theorem poke_roster (s : State) (a : Nat) (v : Byte) : (s.poke a v).roster = s.roster := rfl
@[simp] theorem poke_orphans (s : State) (a : Nat) (v : Byte) : (s.poke a v).orphans = s.orphans := rfl
@[simp] theorem poke_circuits (s : State) (a : Nat) (v : Byte) : (s.poke a v).circuits = s.circuits := rfl
@[simp] theorem poke_requests (s : State) (a : Nat) (v : Byte) : (s.poke a v).requests = s.requests := rfl
@[simp] theorem poke_notice (s : State) (a : Nat) (v : Byte) : (s.poke a v).notice = s.notice := rfl
@[simp] theorem poke_quality (s : State) (a : Nat) (v : Byte) : (s.poke a v).quality = s.quality := rfl
@[simp] theorem poke_bus (s : State) (a : Nat) (v : Byte) : (s.poke a v).bus = s.bus := rfl
@[simp] theorem poke_choices (s : State) (a : Nat) (v : Byte) : (s.poke a v).choices = s.choices := rfl
@[simp] theorem poke_landed (s : State) (a : Nat) (v : Byte) : (s.poke a v).landed = s.landed := rfl
@[simp] theorem poke_pending (s : State) (a : Nat) (v : Byte) : (s.poke a v).pending = s.pending := rfl

/-! ## 16-bit fields -/

@[simp] theorem pokeHalf_station (s : State) (a : Nat) (v : Half) : (s.pokeHalf a v).station = s.station := rfl
@[simp] theorem pokeHalf_line (s : State) (a : Nat) (v : Half) : (s.pokeHalf a v).line = s.line := rfl
@[simp] theorem pokeHalf_arbiter (s : State) (a : Nat) (v : Half) : (s.pokeHalf a v).arbiter = s.arbiter := rfl
@[simp] theorem pokeHalf_selector (s : State) (a : Nat) (v : Half) : (s.pokeHalf a v).selector = s.selector := rfl
@[simp] theorem pokeHalf_roster (s : State) (a : Nat) (v : Half) : (s.pokeHalf a v).roster = s.roster := rfl
@[simp] theorem pokeHalf_orphans (s : State) (a : Nat) (v : Half) : (s.pokeHalf a v).orphans = s.orphans := rfl
@[simp] theorem pokeHalf_circuits (s : State) (a : Nat) (v : Half) : (s.pokeHalf a v).circuits = s.circuits := rfl
@[simp] theorem pokeHalf_requests (s : State) (a : Nat) (v : Half) : (s.pokeHalf a v).requests = s.requests := rfl
@[simp] theorem pokeHalf_notice (s : State) (a : Nat) (v : Half) : (s.pokeHalf a v).notice = s.notice := rfl
@[simp] theorem pokeHalf_quality (s : State) (a : Nat) (v : Half) : (s.pokeHalf a v).quality = s.quality := rfl
@[simp] theorem pokeHalf_bus (s : State) (a : Nat) (v : Half) : (s.pokeHalf a v).bus = s.bus := rfl
@[simp] theorem pokeHalf_choices (s : State) (a : Nat) (v : Half) : (s.pokeHalf a v).choices = s.choices := rfl
@[simp] theorem pokeHalf_landed (s : State) (a : Nat) (v : Half) : (s.pokeHalf a v).landed = s.landed := rfl
@[simp] theorem pokeHalf_pending (s : State) (a : Nat) (v : Half) : (s.pokeHalf a v).pending = s.pending := rfl

/-- A run of bytes writes the window alone. -/
theorem pokeBytes_eq (bytes : List Byte) (s : State) (a : Nat) :
    s.pokeBytes a bytes = { s with window := (s.pokeBytes a bytes).window } := by
  induction bytes generalizing s a with
  | nil => rfl
  | cons v rest ih => exact ih (s.poke a v) (a + 1)

@[simp] theorem pokeBytes_station (bytes : List Byte) (s : State) (a : Nat) : (s.pokeBytes a bytes).station = s.station := by
  rw [pokeBytes_eq]
@[simp] theorem pokeBytes_line (bytes : List Byte) (s : State) (a : Nat) : (s.pokeBytes a bytes).line = s.line := by
  rw [pokeBytes_eq]
@[simp] theorem pokeBytes_arbiter (bytes : List Byte) (s : State) (a : Nat) : (s.pokeBytes a bytes).arbiter = s.arbiter := by
  rw [pokeBytes_eq]
@[simp] theorem pokeBytes_selector (bytes : List Byte) (s : State) (a : Nat) : (s.pokeBytes a bytes).selector = s.selector := by
  rw [pokeBytes_eq]
@[simp] theorem pokeBytes_roster (bytes : List Byte) (s : State) (a : Nat) : (s.pokeBytes a bytes).roster = s.roster := by
  rw [pokeBytes_eq]
@[simp] theorem pokeBytes_orphans (bytes : List Byte) (s : State) (a : Nat) : (s.pokeBytes a bytes).orphans = s.orphans := by
  rw [pokeBytes_eq]
@[simp] theorem pokeBytes_circuits (bytes : List Byte) (s : State) (a : Nat) : (s.pokeBytes a bytes).circuits = s.circuits := by
  rw [pokeBytes_eq]
@[simp] theorem pokeBytes_requests (bytes : List Byte) (s : State) (a : Nat) : (s.pokeBytes a bytes).requests = s.requests := by
  rw [pokeBytes_eq]
@[simp] theorem pokeBytes_notice (bytes : List Byte) (s : State) (a : Nat) : (s.pokeBytes a bytes).notice = s.notice := by
  rw [pokeBytes_eq]
@[simp] theorem pokeBytes_quality (bytes : List Byte) (s : State) (a : Nat) : (s.pokeBytes a bytes).quality = s.quality := by
  rw [pokeBytes_eq]
@[simp] theorem pokeBytes_bus (bytes : List Byte) (s : State) (a : Nat) : (s.pokeBytes a bytes).bus = s.bus := by
  rw [pokeBytes_eq]
@[simp] theorem pokeBytes_choices (bytes : List Byte) (s : State) (a : Nat) : (s.pokeBytes a bytes).choices = s.choices := by
  rw [pokeBytes_eq]
@[simp] theorem pokeBytes_landed (bytes : List Byte) (s : State) (a : Nat) : (s.pokeBytes a bytes).landed = s.landed := by
  rw [pokeBytes_eq]
@[simp] theorem pokeBytes_pending (bytes : List Byte) (s : State) (a : Nat) : (s.pokeBytes a bytes).pending = s.pending := by
  rw [pokeBytes_eq]

/-! ## Fields of a circuit record -/

@[simp] theorem pokeRecord_station (s : State) (c : CircuitNo) (off : Nat) (v : Byte) : (s.pokeRecord c off v).station = s.station := rfl
@[simp] theorem pokeRecord_line (s : State) (c : CircuitNo) (off : Nat) (v : Byte) : (s.pokeRecord c off v).line = s.line := rfl
@[simp] theorem pokeRecord_arbiter (s : State) (c : CircuitNo) (off : Nat) (v : Byte) : (s.pokeRecord c off v).arbiter = s.arbiter := rfl
@[simp] theorem pokeRecord_selector (s : State) (c : CircuitNo) (off : Nat) (v : Byte) : (s.pokeRecord c off v).selector = s.selector := rfl
@[simp] theorem pokeRecord_roster (s : State) (c : CircuitNo) (off : Nat) (v : Byte) : (s.pokeRecord c off v).roster = s.roster := rfl
@[simp] theorem pokeRecord_orphans (s : State) (c : CircuitNo) (off : Nat) (v : Byte) : (s.pokeRecord c off v).orphans = s.orphans := rfl
@[simp] theorem pokeRecord_circuits (s : State) (c : CircuitNo) (off : Nat) (v : Byte) : (s.pokeRecord c off v).circuits = s.circuits := rfl
@[simp] theorem pokeRecord_requests (s : State) (c : CircuitNo) (off : Nat) (v : Byte) : (s.pokeRecord c off v).requests = s.requests := rfl
@[simp] theorem pokeRecord_notice (s : State) (c : CircuitNo) (off : Nat) (v : Byte) : (s.pokeRecord c off v).notice = s.notice := rfl
@[simp] theorem pokeRecord_quality (s : State) (c : CircuitNo) (off : Nat) (v : Byte) : (s.pokeRecord c off v).quality = s.quality := rfl
@[simp] theorem pokeRecord_bus (s : State) (c : CircuitNo) (off : Nat) (v : Byte) : (s.pokeRecord c off v).bus = s.bus := rfl
@[simp] theorem pokeRecord_choices (s : State) (c : CircuitNo) (off : Nat) (v : Byte) : (s.pokeRecord c off v).choices = s.choices := rfl
@[simp] theorem pokeRecord_landed (s : State) (c : CircuitNo) (off : Nat) (v : Byte) : (s.pokeRecord c off v).landed = s.landed := rfl
@[simp] theorem pokeRecord_pending (s : State) (c : CircuitNo) (off : Nat) (v : Byte) : (s.pokeRecord c off v).pending = s.pending := rfl

/-! ## 16-bit fields of a circuit record -/

@[simp] theorem pokeRecordHalf_station (s : State) (c : CircuitNo) (off : Nat) (v : Half) : (s.pokeRecordHalf c off v).station = s.station := rfl
@[simp] theorem pokeRecordHalf_line (s : State) (c : CircuitNo) (off : Nat) (v : Half) : (s.pokeRecordHalf c off v).line = s.line := rfl
@[simp] theorem pokeRecordHalf_arbiter (s : State) (c : CircuitNo) (off : Nat) (v : Half) : (s.pokeRecordHalf c off v).arbiter = s.arbiter := rfl
@[simp] theorem pokeRecordHalf_selector (s : State) (c : CircuitNo) (off : Nat) (v : Half) : (s.pokeRecordHalf c off v).selector = s.selector := rfl
@[simp] theorem pokeRecordHalf_roster (s : State) (c : CircuitNo) (off : Nat) (v : Half) : (s.pokeRecordHalf c off v).roster = s.roster := rfl
@[simp] theorem pokeRecordHalf_orphans (s : State) (c : CircuitNo) (off : Nat) (v : Half) : (s.pokeRecordHalf c off v).orphans = s.orphans := rfl
@[simp] theorem pokeRecordHalf_circuits (s : State) (c : CircuitNo) (off : Nat) (v : Half) : (s.pokeRecordHalf c off v).circuits = s.circuits := rfl
@[simp] theorem pokeRecordHalf_requests (s : State) (c : CircuitNo) (off : Nat) (v : Half) : (s.pokeRecordHalf c off v).requests = s.requests := rfl
@[simp] theorem pokeRecordHalf_notice (s : State) (c : CircuitNo) (off : Nat) (v : Half) : (s.pokeRecordHalf c off v).notice = s.notice := rfl
@[simp] theorem pokeRecordHalf_quality (s : State) (c : CircuitNo) (off : Nat) (v : Half) : (s.pokeRecordHalf c off v).quality = s.quality := rfl
@[simp] theorem pokeRecordHalf_bus (s : State) (c : CircuitNo) (off : Nat) (v : Half) : (s.pokeRecordHalf c off v).bus = s.bus := rfl
@[simp] theorem pokeRecordHalf_choices (s : State) (c : CircuitNo) (off : Nat) (v : Half) : (s.pokeRecordHalf c off v).choices = s.choices := rfl
@[simp] theorem pokeRecordHalf_landed (s : State) (c : CircuitNo) (off : Nat) (v : Half) : (s.pokeRecordHalf c off v).landed = s.landed := rfl
@[simp] theorem pokeRecordHalf_pending (s : State) (c : CircuitNo) (off : Nat) (v : Half) : (s.pokeRecordHalf c off v).pending = s.pending := rfl

/-! ## One circuit's context -/

@[simp] theorem updCircuit_station (s : State) (c : CircuitNo) (f : Circuit → Circuit) : (s.updCircuit c f).station = s.station := rfl
@[simp] theorem updCircuit_line (s : State) (c : CircuitNo) (f : Circuit → Circuit) : (s.updCircuit c f).line = s.line := rfl
@[simp] theorem updCircuit_arbiter (s : State) (c : CircuitNo) (f : Circuit → Circuit) : (s.updCircuit c f).arbiter = s.arbiter := rfl
@[simp] theorem updCircuit_selector (s : State) (c : CircuitNo) (f : Circuit → Circuit) : (s.updCircuit c f).selector = s.selector := rfl
@[simp] theorem updCircuit_roster (s : State) (c : CircuitNo) (f : Circuit → Circuit) : (s.updCircuit c f).roster = s.roster := rfl
@[simp] theorem updCircuit_orphans (s : State) (c : CircuitNo) (f : Circuit → Circuit) : (s.updCircuit c f).orphans = s.orphans := rfl
@[simp] theorem updCircuit_requests (s : State) (c : CircuitNo) (f : Circuit → Circuit) : (s.updCircuit c f).requests = s.requests := rfl
@[simp] theorem updCircuit_notice (s : State) (c : CircuitNo) (f : Circuit → Circuit) : (s.updCircuit c f).notice = s.notice := rfl
@[simp] theorem updCircuit_quality (s : State) (c : CircuitNo) (f : Circuit → Circuit) : (s.updCircuit c f).quality = s.quality := rfl
@[simp] theorem updCircuit_window (s : State) (c : CircuitNo) (f : Circuit → Circuit) : (s.updCircuit c f).window = s.window := rfl
@[simp] theorem updCircuit_bus (s : State) (c : CircuitNo) (f : Circuit → Circuit) : (s.updCircuit c f).bus = s.bus := rfl
@[simp] theorem updCircuit_choices (s : State) (c : CircuitNo) (f : Circuit → Circuit) : (s.updCircuit c f).choices = s.choices := rfl
@[simp] theorem updCircuit_landed (s : State) (c : CircuitNo) (f : Circuit → Circuit) : (s.updCircuit c f).landed = s.landed := rfl
@[simp] theorem updCircuit_pending (s : State) (c : CircuitNo) (f : Circuit → Circuit) : (s.updCircuit c f).pending = s.pending := rfl

/-! ## What a frame in flight may restore -/

@[simp] theorem forget_station (s : State) (c : CircuitNo) (f : Discharged → Discharged) : (s.forget c f).station = s.station := rfl
@[simp] theorem forget_line (s : State) (c : CircuitNo) (f : Discharged → Discharged) : (s.forget c f).line = s.line := rfl
@[simp] theorem forget_arbiter (s : State) (c : CircuitNo) (f : Discharged → Discharged) : (s.forget c f).arbiter = s.arbiter := rfl
@[simp] theorem forget_roster (s : State) (c : CircuitNo) (f : Discharged → Discharged) : (s.forget c f).roster = s.roster := rfl
@[simp] theorem forget_orphans (s : State) (c : CircuitNo) (f : Discharged → Discharged) : (s.forget c f).orphans = s.orphans := rfl
@[simp] theorem forget_circuits (s : State) (c : CircuitNo) (f : Discharged → Discharged) : (s.forget c f).circuits = s.circuits := rfl
@[simp] theorem forget_requests (s : State) (c : CircuitNo) (f : Discharged → Discharged) : (s.forget c f).requests = s.requests := rfl
@[simp] theorem forget_notice (s : State) (c : CircuitNo) (f : Discharged → Discharged) : (s.forget c f).notice = s.notice := rfl
@[simp] theorem forget_quality (s : State) (c : CircuitNo) (f : Discharged → Discharged) : (s.forget c f).quality = s.quality := rfl
@[simp] theorem forget_window (s : State) (c : CircuitNo) (f : Discharged → Discharged) : (s.forget c f).window = s.window := rfl
@[simp] theorem forget_bus (s : State) (c : CircuitNo) (f : Discharged → Discharged) : (s.forget c f).bus = s.bus := rfl
@[simp] theorem forget_choices (s : State) (c : CircuitNo) (f : Discharged → Discharged) : (s.forget c f).choices = s.choices := rfl
@[simp] theorem forget_landed (s : State) (c : CircuitNo) (f : Discharged → Discharged) : (s.forget c f).landed = s.landed := rfl
@[simp] theorem forget_pending (s : State) (c : CircuitNo) (f : Discharged → Discharged) : (s.forget c f).pending = s.pending := rfl

/-! ## Full-next -/

@[simp] theorem setFullNext_station (s : State) : (s.setFullNext).station = s.station := rfl
@[simp] theorem setFullNext_line (s : State) : (s.setFullNext).line = s.line := rfl
@[simp] theorem setFullNext_selector (s : State) : (s.setFullNext).selector = s.selector := rfl
@[simp] theorem setFullNext_roster (s : State) : (s.setFullNext).roster = s.roster := rfl
@[simp] theorem setFullNext_orphans (s : State) : (s.setFullNext).orphans = s.orphans := rfl
@[simp] theorem setFullNext_circuits (s : State) : (s.setFullNext).circuits = s.circuits := rfl
@[simp] theorem setFullNext_requests (s : State) : (s.setFullNext).requests = s.requests := rfl
@[simp] theorem setFullNext_notice (s : State) : (s.setFullNext).notice = s.notice := rfl
@[simp] theorem setFullNext_quality (s : State) : (s.setFullNext).quality = s.quality := rfl
@[simp] theorem setFullNext_window (s : State) : (s.setFullNext).window = s.window := rfl
@[simp] theorem setFullNext_bus (s : State) : (s.setFullNext).bus = s.bus := rfl
@[simp] theorem setFullNext_choices (s : State) : (s.setFullNext).choices = s.choices := rfl
@[simp] theorem setFullNext_landed (s : State) : (s.setFullNext).landed = s.landed := rfl
@[simp] theorem setFullNext_pending (s : State) : (s.setFullNext).pending = s.pending := rfl

/-! ## ROLL owed -/

@[simp] theorem oweRoll_station (s : State) : (s.oweRoll).station = s.station := rfl
@[simp] theorem oweRoll_line (s : State) : (s.oweRoll).line = s.line := rfl
@[simp] theorem oweRoll_arbiter (s : State) : (s.oweRoll).arbiter = s.arbiter := rfl
@[simp] theorem oweRoll_roster (s : State) : (s.oweRoll).roster = s.roster := rfl
@[simp] theorem oweRoll_orphans (s : State) : (s.oweRoll).orphans = s.orphans := rfl
@[simp] theorem oweRoll_circuits (s : State) : (s.oweRoll).circuits = s.circuits := rfl
@[simp] theorem oweRoll_requests (s : State) : (s.oweRoll).requests = s.requests := rfl
@[simp] theorem oweRoll_notice (s : State) : (s.oweRoll).notice = s.notice := rfl
@[simp] theorem oweRoll_quality (s : State) : (s.oweRoll).quality = s.quality := rfl
@[simp] theorem oweRoll_window (s : State) : (s.oweRoll).window = s.window := rfl
@[simp] theorem oweRoll_bus (s : State) : (s.oweRoll).bus = s.bus := rfl
@[simp] theorem oweRoll_choices (s : State) : (s.oweRoll).choices = s.choices := rfl
@[simp] theorem oweRoll_landed (s : State) : (s.oweRoll).landed = s.landed := rfl
@[simp] theorem oweRoll_pending (s : State) : (s.oweRoll).pending = s.pending := rfl

/-! ## IRQ -/

@[simp] theorem updateIrq_station (s : State) : (s.updateIrq).station = s.station := rfl
@[simp] theorem updateIrq_line (s : State) : (s.updateIrq).line = s.line := rfl
@[simp] theorem updateIrq_arbiter (s : State) : (s.updateIrq).arbiter = s.arbiter := rfl
@[simp] theorem updateIrq_selector (s : State) : (s.updateIrq).selector = s.selector := rfl
@[simp] theorem updateIrq_roster (s : State) : (s.updateIrq).roster = s.roster := rfl
@[simp] theorem updateIrq_orphans (s : State) : (s.updateIrq).orphans = s.orphans := rfl
@[simp] theorem updateIrq_circuits (s : State) : (s.updateIrq).circuits = s.circuits := rfl
@[simp] theorem updateIrq_requests (s : State) : (s.updateIrq).requests = s.requests := rfl
@[simp] theorem updateIrq_quality (s : State) : (s.updateIrq).quality = s.quality := rfl
@[simp] theorem updateIrq_window (s : State) : (s.updateIrq).window = s.window := rfl
@[simp] theorem updateIrq_bus (s : State) : (s.updateIrq).bus = s.bus := rfl
@[simp] theorem updateIrq_choices (s : State) : (s.updateIrq).choices = s.choices := rfl
@[simp] theorem updateIrq_landed (s : State) : (s.updateIrq).landed = s.landed := rfl
@[simp] theorem updateIrq_pending (s : State) : (s.updateIrq).pending = s.pending := rfl

/-! ## What the updates write -/

/-- The changed circuit. -/
@[simp] theorem circuit_updCircuit_same (s : State) (c : CircuitNo) (f : Circuit → Circuit) :
    (s.updCircuit c f).circuit c = f (s.circuit c) := by
  simp [State.circuit, State.updCircuit, Vector.get_eq_getElem]

/-- Every other circuit. -/
theorem circuit_updCircuit_other (s : State) (c d : CircuitNo) (f : Circuit → Circuit) (h : d ≠ c) :
    (s.updCircuit c f).circuit d = s.circuit d := by
  have hv : c.val ≠ d.val := fun e => h (Fin.ext e.symm)
  simp [State.circuit, State.updCircuit, Vector.get_eq_getElem, hv]

@[simp] theorem circuit_poke (s : State) (a : Nat) (v : Byte) (d : CircuitNo) : (s.poke a v).circuit d = s.circuit d := rfl
@[simp] theorem circuit_pokeHalf (s : State) (a : Nat) (v : Half) (d : CircuitNo) :
    (s.pokeHalf a v).circuit d = s.circuit d := rfl
@[simp] theorem circuit_pokeBytes (s : State) (a : Nat) (bytes : List Byte) (d : CircuitNo) :
    (s.pokeBytes a bytes).circuit d = s.circuit d := by
  simp [State.circuit]
@[simp] theorem circuit_pokeRecord (s : State) (c : CircuitNo) (off : Nat) (v : Byte) (d : CircuitNo) :
    (s.pokeRecord c off v).circuit d = s.circuit d := rfl
@[simp] theorem circuit_pokeRecordHalf (s : State) (c : CircuitNo) (off : Nat) (v : Half) (d : CircuitNo) :
    (s.pokeRecordHalf c off v).circuit d = s.circuit d := rfl
@[simp] theorem circuit_forget (s : State) (c : CircuitNo) (f : Discharged → Discharged) (d : CircuitNo) :
    (s.forget c f).circuit d = s.circuit d := rfl

@[simp] theorem setFullNext_fullNext (s : State) : s.setFullNext.arbiter.fullNext = true := rfl
@[simp] theorem setFullNext_base (s : State) : s.setFullNext.arbiter.base = s.arbiter.base := rfl
@[simp] theorem setFullNext_state (s : State) : s.setFullNext.arbiter.state = s.arbiter.state := rfl
@[simp] theorem oweRoll_rollOwed (s : State) : s.oweRoll.selector.rollOwed = true := rfl
@[simp] theorem oweRoll_pointer (s : State) : s.oweRoll.selector.pointer = s.selector.pointer := rfl
@[simp] theorem oweRoll_inFlight (s : State) : s.oweRoll.selector.inFlight = s.selector.inFlight := rfl
@[simp] theorem forget_pointer (s : State) (c : CircuitNo) (f : Discharged → Discharged) :
    (s.forget c f).selector.pointer = s.selector.pointer := rfl
@[simp] theorem forget_rollOwed (s : State) (c : CircuitNo) (f : Discharged → Discharged) :
    (s.forget c f).selector.rollOwed = s.selector.rollOwed := rfl
@[simp] theorem updateIrq_held (s : State) : s.updateIrq.notice.held = s.notice.held := rfl
@[simp] theorem updateIrq_waiting (s : State) : s.updateIrq.notice.waiting = s.notice.waiting := rfl
@[simp] theorem updateIrq_fill (s : State) : s.updateIrq.notice.fill = s.notice.fill := rfl
@[simp] theorem updateIrq_sequence (s : State) : s.updateIrq.notice.sequence = s.notice.sequence := rfl
@[simp] theorem updateIrq_takeCopy (s : State) : s.updateIrq.notice.takeCopy = s.notice.takeCopy := rfl

/-! ## Reads of the window after updates -/

@[simp] theorem peek_updCircuit (s : State) (c : CircuitNo) (f : Circuit → Circuit) (x : Nat) :
    (s.updCircuit c f).peek x = s.peek x := rfl
@[simp] theorem peek_forget (s : State) (c : CircuitNo) (f : Discharged → Discharged) (x : Nat) :
    (s.forget c f).peek x = s.peek x := rfl
@[simp] theorem peek_setFullNext (s : State) (x : Nat) : s.setFullNext.peek x = s.peek x := rfl
@[simp] theorem peek_oweRoll (s : State) (x : Nat) : s.oweRoll.peek x = s.peek x := rfl
@[simp] theorem peek_updateIrq (s : State) (x : Nat) : s.updateIrq.peek x = s.peek x := rfl

end Sys2Proof.Laws
end

