-- ==== Sys2Proof/Laws/Accesses.lean ====
section
/-! SUPPORT. What the arrival of a host write, the landing of later ones and the write-back of CONTROL can do. -/

namespace Sys2Proof.Laws

open Sys2Proof Sys2Proof.Machine

/-- The bytes of an access reach the window alone. -/
theorem pokeEach_eq (bytes : List (Nat × Byte)) (s : State) : s.pokeEach bytes = { s with window := (s.pokeEach bytes).window } := by
  induction bytes generalizing s with
  | nil => rfl
  | cons b rest ih => exact ih (s.poke b.1 b.2)

theorem pokeAll_eq (l : List (List (Nat × Byte))) (s : State) :
    l.foldl State.pokeEach s = { s with window := (l.foldl State.pokeEach s).window } := by
  induction l generalizing s with
  | nil => rfl
  | cons bytes rest ih =>
    simp only [List.foldl_cons]
    rw [ih (s.pokeEach bytes), pokeEach_eq bytes s]

/-- A host write that comes to its turn writes its bytes, or stands in memory already. -/
theorem arrive_cases (s : State) (bytes : List (Nat × Byte)) :
    (s.landed = 0 ∧ s.arrive bytes = s.pokeEach bytes) ∨
    (s.landed ≠ 0 ∧ s.arrive bytes = { s with landed := s.landed - 1 }) := by
  unfold State.arrive; split <;> simp_all

/-- An arrival reaches the window and the count of landed writes alone. -/
theorem arrive_eq (s : State) (bytes : List (Nat × Byte)) :
    s.arrive bytes = { s with landed := s.landed - 1, window := (s.arrive bytes).window } := by
  unfold State.arrive
  split
  · rename_i h
    have : s.landed - 1 = s.landed := by omega
    rw [this]; exact pokeEach_eq bytes s
  · rfl

/-- The landing of later writes draws a free value only where a write of CONTROL waits that has not landed, and writes whole accesses,
the first of those that wait (R130, R145). -/
theorem landLater_cases (s : State) :
    ((s.writesAhead.drop s.landed).any touchesControl = false ∧ s.landLater = s) ∨
    (∃ now, now <+: s.writesAhead.drop s.landed ∧ s.landLater =
      { now.foldl State.pokeEach s with landed := s.landed + now.length, choices := s.choices + 1 }) := by
  unfold State.landLater
  by_cases h : (s.writesAhead.drop s.landed).any touchesControl = true
  · exact .inr ⟨_, List.take_prefix (Config.writesLanded s.choices) _, by simp only [h, if_true]⟩
  · exact .inl ⟨by simpa using h, by simp only [h]; rfl⟩

/-- The write-back writes 0 or nothing (R145). -/
theorem writeBackControl_cases (s : State) :
    ((s.writesAhead.take s.landed).any touchesControl = true ∧ s.writeBackControl = s) ∨
    ((s.writesAhead.take s.landed).any touchesControl = false ∧ s.writeBackControl = s.poke offControl 0) := by
  unfold State.writeBackControl
  split <;> simp_all

end Sys2Proof.Laws
end

