-- ==== Sys2Proof/Laws/Operations.lean ====
section
/-! SUPPORT. For each shared operation, what it can change: the Notice Unit's operations reach the notices and the window, and an
operation on a circuit reaches that circuit, the orphan list, what the frame in flight may restore, the notices and the window. -/

namespace Sys2Proof.Laws

open Sys2Proof Sys2Proof.Machine

/-! ## What an operation of the Notice Unit reaches -/

/-- Only the Notice Unit and the window differ. -/
structure NoticeOnly (s t : State) : Prop where
  station : t.station = s.station
  line : t.line = s.line
  arbiter : t.arbiter = s.arbiter
  selector : t.selector = s.selector
  roster : t.roster = s.roster
  orphans : t.orphans = s.orphans
  circuits : t.circuits = s.circuits
  requests : t.requests = s.requests
  quality : t.quality = s.quality
  bus : t.bus = s.bus
  choices : t.choices = s.choices
  landed : t.landed = s.landed
  pending : t.pending = s.pending

theorem NoticeOnly.refl (s : State) : NoticeOnly s s := by constructor <;> rfl

theorem NoticeOnly.trans {s t u : State} (h : NoticeOnly s t) (g : NoticeOnly t u) : NoticeOnly s u where
  station := g.station.trans h.station
  line := g.line.trans h.line
  arbiter := g.arbiter.trans h.arbiter
  selector := g.selector.trans h.selector
  roster := g.roster.trans h.roster
  orphans := g.orphans.trans h.orphans
  circuits := g.circuits.trans h.circuits
  requests := g.requests.trans h.requests
  quality := g.quality.trans h.quality
  bus := g.bus.trans h.bus
  choices := g.choices.trans h.choices
  landed := g.landed.trans h.landed
  pending := g.pending.trans h.pending

/-- The frame as one equation. -/
theorem NoticeOnly.eq {s t : State} (h : NoticeOnly s t) : t = { s with notice := t.notice, window := t.window } := by
  obtain ⟨h1, h2, h3, h4, h5, h6, h7, h8, h9, h10, h11, h12, h13⟩ := h
  cases s; cases t; simp_all

theorem NoticeOnly.circuit {s t : State} (h : NoticeOnly s t) (d : CircuitNo) : t.circuit d = s.circuit d := by
  simp [State.circuit, h.circuits]

/-- A state that differs from `s` in the Notice Unit and the window by construction. -/
theorem noticeOnly_with (s : State) (n : Notice) (w : Memory) : NoticeOnly s { s with notice := n, window := w } := by
  constructor <;> rfl

theorem writeEntry_only (s : State) (p : NoticePair) (detail : Byte) : NoticeOnly s (s.writeEntry p detail) := by
  constructor <;> simp [State.writeEntry]

theorem showWaiting_only (s : State) : NoticeOnly s s.showWaiting := by constructor <;> rfl

/-- What a raise does: absorbed, held back in the pending set, or written (R158, R160, R161). -/
theorem raiseWith_cases (s : State) (p : NoticePair) (detail : Byte) :
    (p ∈ s.notice.held ∧ s.raiseWith p detail = s) ∨
    (p ∉ s.notice.held ∧ Config.attentionRoom ≤ s.notice.count ∧ p ∈ s.notice.waiting ∧ s.raiseWith p detail = s) ∨
    (p ∉ s.notice.held ∧ Config.attentionRoom ≤ s.notice.count ∧ p ∉ s.notice.waiting ∧
      s.raiseWith p detail = ({ s with notice.waiting := insertPair p s.notice.waiting } : State).showWaiting) ∨
    (p ∉ s.notice.held ∧ ¬Config.attentionRoom ≤ s.notice.count ∧ s.raiseWith p detail = s.writeEntry p detail) := by
  unfold State.raiseWith
  split
  · exact .inl ⟨‹_›, rfl⟩
  · split
    · split
      · exact .inr (.inl ⟨‹_›, ‹_›, ‹_›, rfl⟩)
      · exact .inr (.inr (.inl ⟨‹_›, ‹_›, ‹_›, rfl⟩))
    · exact .inr (.inr (.inr ⟨‹_›, ‹_›, rfl⟩))

/-- A raise leaves the interrupt enable and the take copy alone, notes at most its own pair, after those noted before, and drops no
pending pair (R158, R160, R161). -/
theorem raiseWith_notes (s : State) (p : NoticePair) (detail : Byte) :
    (s.raiseWith p detail).notice.irqEnable = s.notice.irqEnable ∧
    (s.raiseWith p detail).notice.takeCopy = s.notice.takeCopy ∧
    ((s.raiseWith p detail).notice.held = s.notice.held ∨
      p ∉ s.notice.held ∧ (s.raiseWith p detail).notice.held = s.notice.held ++ [p]) ∧
    ((s.raiseWith p detail).notice.waiting = s.notice.waiting ∨
      p ∉ s.notice.held ∧ (s.raiseWith p detail).notice.waiting = insertPair p s.notice.waiting) := by
  obtain ⟨-, h⟩ | ⟨-, -, -, h⟩ | ⟨n, -, -, h⟩ | ⟨n, -, h⟩ := raiseWith_cases s p detail <;> rw [h]
  · exact ⟨rfl, rfl, .inl rfl, .inl rfl⟩
  · exact ⟨rfl, rfl, .inl rfl, .inl rfl⟩
  · exact ⟨rfl, rfl, .inl rfl, .inr ⟨n, rfl⟩⟩
  · simp [State.writeEntry, State.updateIrq, State.poke, n]

theorem raiseWith_only (s : State) (p : NoticePair) (detail : Byte) : NoticeOnly s (s.raiseWith p detail) := by
  obtain ⟨-, h⟩ | ⟨-, -, -, h⟩ | ⟨-, -, -, h⟩ | ⟨-, -, h⟩ := raiseWith_cases s p detail <;> rw [h]
  · exact .refl s
  · exact .refl s
  · constructor <;> rfl
  · exact writeEntry_only s p detail

theorem raise_only (s : State) (p : NoticePair) : NoticeOnly s (s.raise p) := raiseWith_only s p _

theorem raiseOption_only (s : State) (p : Option NoticePair) : NoticeOnly s (s.raiseOption p) := by
  cases p with
  | none => exact .refl s
  | some p => exact raise_only s p

theorem drainPairs_only (l : List NoticePair) (s : State) : NoticeOnly s (s.drainPairs l) := by
  induction l generalizing s with
  | nil => exact .refl s
  | cons p rest ih =>
    unfold State.drainPairs
    split
    · exact .refl s
    · exact ((noticeOnly_with s _ s.window).trans ((showWaiting_only _).trans (writeEntry_only _ p _))).trans (ih _)

theorem drainWaiting_only (s : State) : NoticeOnly s s.drainWaiting := drainPairs_only _ s

theorem takeAttention_only (s : State) (v : Byte) : NoticeOnly s (s.takeAttention v) := by
  unfold State.takeAttention
  split
  · exact ((noticeOnly_with s _ s.window).trans (drainWaiting_only _)).trans (noticeOnly_with _ _ _)
  · exact .refl s

theorem takeInterruptEnable_only (s : State) (v : Byte) : NoticeOnly s (s.takeInterruptEnable v) := by
  constructor <;> rfl

/-! ## What an operation on circuits reaches -/

/-- Only the circuits, the orphan list, what the frame in flight may restore, the Notice Unit and the window differ. -/
structure CircuitsOnly (s t : State) : Prop where
  station : t.station = s.station
  line : t.line = s.line
  arbiter : t.arbiter = s.arbiter
  pointer : t.selector.pointer = s.selector.pointer
  rollOwed : t.selector.rollOwed = s.selector.rollOwed
  roster : t.roster = s.roster
  requests : t.requests = s.requests
  quality : t.quality = s.quality
  bus : t.bus = s.bus
  choices : t.choices = s.choices
  landed : t.landed = s.landed
  pending : t.pending = s.pending

theorem CircuitsOnly.refl (s : State) : CircuitsOnly s s := by constructor <;> rfl

theorem CircuitsOnly.trans {s t u : State} (h : CircuitsOnly s t) (g : CircuitsOnly t u) : CircuitsOnly s u where
  station := g.station.trans h.station
  line := g.line.trans h.line
  arbiter := g.arbiter.trans h.arbiter
  pointer := g.pointer.trans h.pointer
  rollOwed := g.rollOwed.trans h.rollOwed
  roster := g.roster.trans h.roster
  requests := g.requests.trans h.requests
  quality := g.quality.trans h.quality
  bus := g.bus.trans h.bus
  choices := g.choices.trans h.choices
  landed := g.landed.trans h.landed
  pending := g.pending.trans h.pending

theorem NoticeOnly.circuitsOnly {s t : State} (h : NoticeOnly s t) : CircuitsOnly s t :=
  ⟨h.station, h.line, h.arbiter, by rw [h.selector], by rw [h.selector], h.roster, h.requests, h.quality, h.bus, h.choices,
    h.landed, h.pending⟩

/-- Beside that, no circuit but `c` differs. -/
structure CircuitOnly (c : CircuitNo) (s t : State) : Prop where
  rest : CircuitsOnly s t
  others : ∀ d, d ≠ c → t.circuit d = s.circuit d

theorem CircuitOnly.refl (c : CircuitNo) (s : State) : CircuitOnly c s s := ⟨.refl s, fun _ _ => rfl⟩

theorem CircuitOnly.trans {c : CircuitNo} {s t u : State} (h : CircuitOnly c s t) (g : CircuitOnly c t u) : CircuitOnly c s u :=
  ⟨h.rest.trans g.rest, fun d hd => (g.others d hd).trans (h.others d hd)⟩

theorem NoticeOnly.circuitOnly {s t : State} (h : NoticeOnly s t) (c : CircuitNo) : CircuitOnly c s t :=
  ⟨h.circuitsOnly, fun d _ => h.circuit d⟩

/-- The window alone. -/
theorem circuitOnly_poke (c : CircuitNo) (s : State) (a : Nat) (v : Byte) : CircuitOnly c s (s.poke a v) :=
  ⟨by constructor <;> rfl, fun _ _ => rfl⟩

theorem circuitOnly_pokeHalf (c : CircuitNo) (s : State) (a : Nat) (v : Half) : CircuitOnly c s (s.pokeHalf a v) :=
  (circuitOnly_poke c s _ _).trans (circuitOnly_poke c _ _ _)

theorem circuitOnly_pokeBytes (c : CircuitNo) (s : State) (a : Nat) (bytes : List Byte) : CircuitOnly c s (s.pokeBytes a bytes) :=
  ⟨by constructor <;> simp, fun d _ => by simp⟩

theorem circuitOnly_pokeRecord (c d : CircuitNo) (s : State) (off : Nat) (v : Byte) : CircuitOnly c s (s.pokeRecord d off v) :=
  circuitOnly_poke c s _ _

theorem circuitOnly_pokeRecordHalf (c d : CircuitNo) (s : State) (off : Nat) (v : Half) :
    CircuitOnly c s (s.pokeRecordHalf d off v) := circuitOnly_pokeHalf c s _ _

/-- The circuit's own context. -/
theorem updCircuit_only (s : State) (c : CircuitNo) (f : Circuit → Circuit) : CircuitOnly c s (s.updCircuit c f) :=
  ⟨by constructor <;> rfl, fun d hd => circuit_updCircuit_other s c d f hd⟩

theorem forget_only (s : State) (c : CircuitNo) (f : Discharged → Discharged) : CircuitOnly c s (s.forget c f) :=
  ⟨by constructor <;> rfl, fun _ _ => rfl⟩

theorem clearAckPoll_only (s : State) (c : CircuitNo) : CircuitOnly c s (s.clearAckPoll c) :=
  (forget_only s c _).trans (updCircuit_only _ c _)

theorem clearControl_only (s : State) (c : CircuitNo) : CircuitOnly c s (s.clearControl c) :=
  (forget_only s c _).trans (updCircuit_only _ c _)

theorem oweControl_only (s : State) (c : CircuitNo) (kind : ControlKind) : CircuitOnly c s (s.oweControl c kind) :=
  updCircuit_only s c _

theorem oweAck_only (s : State) (c : CircuitNo) : CircuitOnly c s (s.oweAck c) := updCircuit_only s c _

/-- What an addition to the orphan list does (R75). -/
theorem addOrphan_cases (s : State) (peer : Address) (peerCircuit : CircuitNo) (reply : Reply) :
    s.addOrphan peer peerCircuit reply = s ∨
    (Config.orphanRoom ≤ s.orphans.entries.length ∧ s.addOrphan peer peerCircuit reply =
      ({ s with orphans.drops := s.orphans.drops + 1 } : State).pokeHalf offOrphanDrops (s.orphans.drops + 1)) ∨
    (s.orphans.entries.length < Config.orphanRoom ∧
      s.orphans.entries.any (Orphan.sameKey ⟨peer, peerCircuit, reply, false⟩) = false ∧
      s.addOrphan peer peerCircuit reply =
        { s with orphans.entries := s.orphans.entries ++ [⟨peer, peerCircuit, reply, false⟩] }) := by
  unfold State.addOrphan
  dsimp only
  by_cases hm : s.station.state = .muted ∨ s.station.state = .halted
  · exact .inl (if_pos hm)
  · rw [if_neg hm]
    by_cases ha : s.orphans.entries.any (Orphan.sameKey ⟨peer, peerCircuit, reply, false⟩) = true
    · exact .inl (if_pos ha)
    · rw [if_neg ha]
      by_cases hr : Config.orphanRoom ≤ s.orphans.entries.length
      · exact .inr (.inl ⟨hr, if_pos hr⟩)
      · exact .inr (.inr ⟨by omega, by simpa using ha, if_neg hr⟩)

theorem addOrphan_only (c : CircuitNo) (s : State) (peer : Address) (peerCircuit : CircuitNo) (reply : Reply) :
    CircuitOnly c s (s.addOrphan peer peerCircuit reply) := by
  obtain h | ⟨-, h⟩ | ⟨-, -, h⟩ := addOrphan_cases s peer peerCircuit reply <;> rw [h]
  · exact .refl c s
  · exact ⟨by constructor <;> rfl, fun _ _ => rfl⟩
  · exact ⟨by constructor <;> rfl, fun _ _ => rfl⟩

/-! ## States and completions -/

theorem setCircuitState_only (s : State) (c : CircuitNo) (st : CircuitState) : CircuitOnly c s (s.setCircuitState c st) :=
  (updCircuit_only s c _).trans (circuitOnly_pokeRecord c c _ _ _)

theorem writeCompletion_only (s : State) (c : CircuitNo) (d : Completion) : CircuitOnly c s (s.writeCompletion c d) :=
  (updCircuit_only s c fun k => { k with completion := some d, inFlight := none }).trans
    ((circuitOnly_pokeRecord c c _ _ _).trans ((circuitOnly_pokeRecord c c _ _ _).trans
      ((circuitOnly_pokeRecord c c _ _ _).trans ((circuitOnly_pokeRecord c c _ _ _).trans (circuitOnly_pokeRecord c c _ _ _)))))

theorem writeCompletionOption_only (s : State) (c : CircuitNo) (d : Option Completion) :
    CircuitOnly c s (s.writeCompletionOption c d) := by
  cases d with
  | none => exact .refl c s
  | some d => exact writeCompletion_only s c d

theorem writeUnsent_only (s : State) (c : CircuitNo) : CircuitOnly c s (s.writeUnsent c) :=
  (updCircuit_only s c _).trans (circuitOnly_pokeRecord c c _ _ _)

theorem releaseOwed_only (s : State) (c : CircuitNo) : CircuitOnly c s (s.releaseOwed c) := by
  unfold State.releaseOwed
  refine .trans ?_ (clearControl_only _ c)
  split
  · exact ((clearAckPoll_only s c).trans (updCircuit_only _ c _)).trans (addOrphan_only c _ _ _ _)
  · exact (clearAckPoll_only s c).trans (updCircuit_only _ c _)

theorem goFree_only (s : State) (c : CircuitNo) (done : Option Completion) : CircuitOnly c s (s.goFree c done) := by
  unfold State.goFree
  refine .trans (.trans (.trans (.trans ?_ (releaseOwed_only _ c)) (updCircuit_only _ c _))
    (writeCompletionOption_only _ c done)) (setCircuitState_only _ c .free)
  split
  · exact writeUnsent_only s c
  · exact .refl c s

theorem freeWith_only (s : State) (c : CircuitNo) (outcome : CompletionOutcome) : CircuitOnly c s (s.freeWith c outcome) :=
  (goFree_only s c _).trans ((raiseOption_only _ _).circuitOnly c)

theorem completeInto_only (s : State) (c : CircuitNo) (outcome : CompletionOutcome) (st : CircuitState) :
    CircuitOnly c s (s.completeInto c outcome st) :=
  (((writeCompletionOption_only s c _).trans (updCircuit_only _ c _)).trans (setCircuitState_only _ c st)).trans
    ((raiseOption_only _ _).circuitOnly c)

theorem enterEnded_only (s : State) (c : CircuitNo) (cause : EndCause) (confirm : Bool) :
    CircuitOnly c s (s.enterEnded c cause confirm) := by
  unfold State.enterEnded
  refine .trans (.trans (.trans (.trans (.trans (.trans ?_ (clearAckPoll_only _ c)) (updCircuit_only _ c _)) (writeUnsent_only _ c))
    (circuitOnly_pokeRecord c c _ _ _)) (setCircuitState_only _ c .ended)) ((raise_only _ _).circuitOnly c)
  cases confirm
  · exact clearControl_only s c
  · exact oweControl_only s c .confirm

theorem lose_only (s : State) (c : CircuitNo) (cause : EndCause) : CircuitOnly c s (s.lose c cause) := by
  unfold State.lose
  split
  · exact freeWith_only s c .lost
  · exact enterEnded_only s c cause false
  · exact freeWith_only s c .lost
  · exact freeWith_only s c .unconfirmed
  · split
    · exact freeWith_only s c .lost
    · exact .refl c s
  · exact .refl c s
  · exact .refl c s

theorem testDrain_only (s : State) (c : CircuitNo) : CircuitOnly c s (s.testDrain c) := by
  unfold State.testDrain
  split
  · exact (((clearAckPoll_only s c).trans (oweControl_only _ c .clear)).trans (updCircuit_only _ c _)).trans
      (setCircuitState_only _ c .clearing)
  · exact .refl c s

theorem testStall_only (s : State) (c : CircuitNo) : CircuitOnly c s (s.testStall c) := updCircuit_only s c _

theorem takeContext_only (s : State) (c : CircuitNo) (kind : RequestKind) (r : RequestRecord) :
    CircuitOnly c s (s.takeContext c kind r) := by
  unfold State.takeContext
  exact (((((((((updCircuit_only s c _).trans (circuitOnly_pokeRecord c c _ _ _)).trans (circuitOnly_pokeRecord c c _ _ _)).trans
    (circuitOnly_pokeRecord c c _ _ _)).trans (circuitOnly_pokeRecord c c _ _ _)).trans (circuitOnly_pokeRecord c c _ _ _)).trans
    (circuitOnly_pokeRecord c c _ _ _)).trans (circuitOnly_pokeRecord c c _ _ _)).trans (circuitOnly_pokeRecord c c _ _ _))

theorem startTransfer_only (s : State) (c : CircuitNo) : CircuitOnly c s (s.startTransfer c) := by
  unfold State.startTransfer State.takeIndices
  exact (((((((((updCircuit_only s c _).trans (circuitOnly_pokeRecord c c _ _ _)).trans (circuitOnly_pokeRecord c c _ _ _)).trans
    (updCircuit_only _ c _)).trans (circuitOnly_pokeRecordHalf c c _ _ _)).trans (circuitOnly_pokeRecordHalf c c _ _ _)).trans
    (circuitOnly_pokeRecordHalf c c _ _ _)).trans (circuitOnly_pokeRecordHalf c c _ _ _)).trans (circuitOnly_pokeRecord c c _ _ _))

/-! ## Notice levels and the Transfer Engine -/

theorem noticeFill_only (s : State) (c : CircuitNo) (endMark : Bool) : CircuitOnly c s (s.noticeFill c endMark) := by
  unfold State.noticeFill
  split
  · exact (updCircuit_only s c _).trans ((raise_only _ _).circuitOnly c)
  · exact updCircuit_only s c _

theorem noticeRelease_only (s : State) (c : CircuitNo) (before : Nat) : CircuitOnly c s (s.noticeRelease c before) := by
  unfold State.noticeRelease
  split
  · exact (raise_only s _).circuitOnly c
  · exact .refl c s

theorem writeSlot_only (s : State) (c : CircuitNo) (f : Frame) (gapped : Bool) (missing : Nat) :
    CircuitOnly c s (s.writeSlot c f gapped missing) := by
  unfold State.writeSlot
  exact ((((circuitOnly_pokeBytes c s _ _).trans (circuitOnly_poke c _ _ _)).trans (circuitOnly_poke c _ _ _)).trans
    (circuitOnly_poke c _ _ _)).trans (circuitOnly_poke c _ _ _)

theorem advanceFill_only (s : State) (c : CircuitNo) (seq : Seq) : CircuitOnly c s (s.advanceFill c seq) :=
  (updCircuit_only s c _).trans (circuitOnly_pokeRecord c c _ _ _)

theorem markGap_only (s : State) (c : CircuitNo) : CircuitOnly c s (s.markGap c) := by
  unfold State.markGap
  dsimp only
  split
  · exact (updCircuit_only s c _).trans (circuitOnly_pokeRecordHalf c c _ _ _)
  · exact (((updCircuit_only s c _).trans (circuitOnly_pokeRecordHalf c c _ _ _)).trans (updCircuit_only _ c _)).trans
      (circuitOnly_pokeRecordHalf c c _ _ _)

theorem takeAssuredSegment_only (s : State) (c : CircuitNo) (f : Frame) : CircuitOnly c s (s.takeAssuredSegment c f) := by
  unfold State.takeAssuredSegment
  dsimp only
  split
  · exact oweAck_only s c
  · split
    · exact ((updCircuit_only s c _).trans (circuitOnly_pokeRecordHalf c c _ _ _)).trans (oweAck_only _ c)
    · exact (((writeSlot_only s c f false 0).trans (advanceFill_only _ c f.seq)).trans (oweAck_only _ c)).trans
        (noticeFill_only _ c f.endMark)

theorem takePlainSegment_only (s : State) (c : CircuitNo) (f : Frame) : CircuitOnly c s (s.takePlainSegment c f) := by
  unfold State.takePlainSegment
  dsimp only
  split
  · exact (updCircuit_only s c _).trans (circuitOnly_pokeRecordHalf c c _ _ _)
  · split
    · exact ((writeSlot_only s c f false 0).trans (advanceFill_only _ c f.seq)).trans (noticeFill_only _ c f.endMark)
    · exact ((((writeSlot_only s c f true _).trans (markGap_only _ c)).trans (advanceFill_only _ c f.seq)).trans
        ((raiseWith_only _ _ _).circuitOnly c)).trans (noticeFill_only _ c f.endMark)

theorem takeAck_only (s : State) (c : CircuitNo) (a credit : Seq) : CircuitOnly c s (s.takeAck c a credit) := by
  unfold State.takeAck
  dsimp only
  split
  · exact ((((updCircuit_only s c _).trans (circuitOnly_pokeRecord c c _ _ _)).trans (noticeRelease_only _ c _)).trans
      (testDrain_only _ c)).trans (testStall_only _ c)
  · split
    · exact (updCircuit_only s c _).trans (testStall_only _ c)
    · exact .refl c s

theorem takeData_only (s : State) (c : CircuitNo) (f : Frame) : CircuitOnly c s (s.takeData c f) := by
  unfold State.takeData
  split
  · exact (takeAssuredSegment_only s c f).trans (takeAck_only _ c _ _)
  · exact takePlainSegment_only s c f

theorem takeAckFrame_only (s : State) (c : CircuitNo) (f : Frame) : CircuitOnly c s (s.takeAckFrame c f) := by
  unfold State.takeAckFrame
  split
  · refine .trans ?_ (takeAck_only _ c _ _)
    split
    · exact oweAck_only s c
    · exact .refl c s
  · exact .refl c s

theorem recordFault_only (s : State) (c : CircuitNo) (kind : FaultKind) : CircuitOnly c s (s.recordFault c kind) :=
  ((updCircuit_only s c _).trans (circuitOnly_pokeRecord c c _ _ _)).trans ((raise_only _ _).circuitOnly c)

theorem takePost_only (s : State) (c : CircuitNo) (v : Byte) : CircuitOnly c s (s.takePost c v) := by
  unfold State.takePost
  dsimp only
  split
  · exact .refl c s
  · split
    · split
      · exact (updCircuit_only s c _).trans (testStall_only _ c)
      · exact updCircuit_only s c _
    · exact recordFault_only s c .postFault

theorem takeRelease_only (s : State) (c : CircuitNo) (v : Byte) : CircuitOnly c s (s.takeRelease c v) := by
  unfold State.takeRelease
  dsimp only
  split
  · exact .refl c s
  · split
    · split
      · exact (updCircuit_only s c _).trans (oweAck_only _ c)
      · exact updCircuit_only s c _
    · exact recordFault_only s c .releaseFault

theorem takeGapAck_only (s : State) (c : CircuitNo) : CircuitOnly c s (s.takeGapAck c) :=
  (updCircuit_only s c _).trans (circuitOnly_pokeRecordHalf c c _ _ _)

/-! ## Every circuit, and a received frame -/

/-- A change of each circuit in turn reaches what each change reaches. -/
theorem eachCircuit_only (f : CircuitNo → State → State) (hf : ∀ c s, CircuitsOnly s (f c s)) (s : State) :
    CircuitsOnly s (s.eachCircuit f) := by
  unfold State.eachCircuit
  induction allCircuits generalizing s with
  | nil => exact .refl s
  | cons c rest ih => exact (hf c s).trans (ih (f c s))

theorem loseAll_only (s : State) (cause : EndCause) : CircuitsOnly s (s.loseAll cause) :=
  eachCircuit_only _ (fun c s => (lose_only s c cause).rest) s

theorem loseAbsent_only (s : State) (a : Address) : CircuitsOnly s (s.loseAbsent a) := by
  refine eachCircuit_only _ (fun c s => ?_) s
  split
  · exact (lose_only s c .lostAbsent).rest
  · exact .refl s

theorem strayFrame_only (c : CircuitNo) (s : State) (k : Kind) (f : Frame) : CircuitOnly c s (s.strayFrame k f) := by
  unfold State.strayFrame
  split
  · exact addOrphan_only c s _ _ _
  · exact .refl c s

theorem loseStaleOther_only (s : State) (c : CircuitNo) (f : Frame) : CircuitsOnly s (s.loseStaleOther c f) := by
  unfold State.loseStaleOther
  split
  · exact (lose_only s _ _).rest
  · exact .refl s

theorem acceptAnswer_only (s : State) (c : CircuitNo) (f : Frame) : CircuitsOnly s (s.acceptAnswer c f) :=
  (loseStaleOther_only s c f).trans
    (((updCircuit_only _ c _).trans (circuitOnly_pokeRecord c c _ _ _)).trans (completeInto_only _ c _ _)).rest

theorem callingFrame_only (s : State) (k : Kind) (c : CircuitNo) (f : Frame) : CircuitsOnly s (s.callingFrame k c f) := by
  unfold State.callingFrame
  split
  · split
    · exact acceptAnswer_only s c f
    · exact (strayFrame_only c s _ f).rest
  · split
    · exact (freeWith_only s c _).rest
    · exact .refl s
  · exact .refl s

theorem clearedByPeer_only (s : State) (c : CircuitNo) (outcome : CompletionOutcome) :
    CircuitOnly c s (s.clearedByPeer c outcome) :=
  (oweControl_only s c .confirm).trans (freeWith_only _ c outcome)

theorem openFrame_only (s : State) (k : Kind) (c : CircuitNo) (f : Frame) : CircuitOnly c s (s.openFrame k c f) := by
  unfold State.openFrame
  split
  · exact takeData_only s c f
  · exact takeAckFrame_only s c f
  · exact enterEnded_only s c _ _
  · exact .refl c s

theorem drainingFrame_only (s : State) (k : Kind) (c : CircuitNo) (f : Frame) : CircuitOnly c s (s.drainingFrame k c f) := by
  unfold State.drainingFrame
  split
  · exact takeData_only s c f
  · exact takeAckFrame_only s c f
  · exact clearedByPeer_only s c _
  · exact .refl c s

theorem clearingFrame_only (s : State) (k : Kind) (c : CircuitNo) : CircuitOnly c s (s.clearingFrame k c) := by
  unfold State.clearingFrame
  split
  · exact clearedByPeer_only s c _
  · exact freeWith_only s c _
  · exact .refl c s

theorem endedFrame_only (s : State) (k : Kind) (c : CircuitNo) (f : Frame) : CircuitOnly c s (s.endedFrame k c f) := by
  unfold State.endedFrame
  split
  · split
    · exact .refl c s
    · exact addOrphan_only c s _ _ _
  · split
    · exact oweControl_only s c _
    · exact .refl c s
  · exact .refl c s

theorem takeCircuitFrame_only (s : State) (k : Kind) (f : Frame) : CircuitsOnly s (s.takeCircuitFrame k f) := by
  have stray := (strayFrame_only f.dstCircuit s k f).rest
  unfold State.takeCircuitFrame
  dsimp only
  split
  · exact stray
  · split
    · exact stray
    · exact stray
    · split
      · exact callingFrame_only s k _ f
      · exact stray
    · split
      · exact (openFrame_only s k _ f).rest
      · exact stray
    · split
      · exact (drainingFrame_only s k _ f).rest
      · exact stray
    · split
      · exact (clearingFrame_only s k _).rest
      · exact stray
    · split
      · exact (endedFrame_only s k _ f).rest
      · exact stray

theorem acceptCall_only (s : State) (c : CircuitNo) (f : Frame) : CircuitOnly c s (s.acceptCall c f) := by
  unfold State.acceptCall
  exact (((((updCircuit_only s c _).trans (circuitOnly_pokeRecord c c _ _ _)).trans (circuitOnly_pokeRecord c c _ _ _)).trans
    (circuitOnly_pokeRecord c c _ _ _)).trans (oweControl_only _ c .answer)).trans (completeInto_only _ c _ _)

theorem matchListener_only (s : State) (f : Frame) : CircuitsOnly s (s.matchListener f) := by
  unfold State.matchListener
  split
  · exact (acceptCall_only s _ f).rest
  · exact (addOrphan_only f.dstCircuit s _ _ _).rest

theorem takeCall_only (s : State) (f : Frame) : CircuitsOnly s (s.takeCall f) := by
  unfold State.takeCall
  split
  · exact .refl s
  · unfold State.answerCall
    split
    · exact matchListener_only s f
    · split
      · split
        · exact (oweControl_only s _ _).rest
        · exact .refl s
      · exact (lose_only s _ _).rest.trans (matchListener_only _ f)

/-- A frame that reaches the Circuit Table changes circuits and no other block (R65 to R77). -/
theorem tableFrame_only (s : State) (k : Kind) (f : Frame) : CircuitsOnly s (s.tableFrame k f) := by
  unfold State.tableFrame
  split
  · exact .refl s
  · split
    · exact .refl s
    · exact takeCall_only s f
    · exact takeCircuitFrame_only s _ f

/-! ## Counts of the Quality Monitor -/

/-- A count changes the Quality Monitor and the window. -/
theorem count_frames (s : State) :
    s.countGood = { s with quality := s.countGood.quality, window := s.countGood.window } ∧
    s.countMalformed = { s with quality := s.countMalformed.quality, window := s.countMalformed.window } ∧
    s.countDamaged = { s with quality := s.countDamaged.quality, window := s.countDamaged.window } ∧
    s.countSent = { s with quality := s.countSent.quality, window := s.countSent.window } ∧
    s.countCollision = { s with quality := s.countCollision.quality, window := s.countCollision.window } ∧
    s.clearWindowCounts = { s with quality := s.clearWindowCounts.quality, window := s.clearWindowCounts.window } ∧
    s.showSticky = { s with window := s.showSticky.window } :=
  ⟨rfl, rfl, rfl, rfl, rfl, rfl, rfl⟩

/-! ## The Roster's mirror -/

/-- The mirror write changes the change counter and the window (R25). -/
theorem writeMirror_frame (s : State) (a : Address) :
    s.writeMirror a = { s with roster.changeCounter := s.roster.changeCounter + 1, window := (s.writeMirror a).window } := by
  unfold State.writeMirror
  dsimp only
  split <;> rfl

end Sys2Proof.Laws
end

