-- ==== Sys2Proof/Laws/PerInstr.lean ====
section
/-! SUPPORT. The lemma family over all commands: the bytes that a command brings from the trunk, and how long a frame is whose check
and length have been trusted (R5, R7). -/

namespace Sys2Proof.Laws.FrameLength

open Sys2Proof Sys2Proof.Machine

/-- The bytes of the frame that a command of a good or a malformed frame brings. -/
def trunkBytes : Instr → Option (List Byte)
  | .resetPinLow => none
  | .resetRelease _ _ _ => none
  | .startPassEnd => none
  | .go => none
  | .restart => none
  | .controlOtherValue _ => none
  | .requestPostIndexWrite _ => none
  | .openRequest => none
  | .listenRequest => none
  | .closeRequest => none
  | .abortRequest => none
  | .attentionTakeIndexWrite _ => none
  | .pendingSetDrain => none
  | .interruptEnableWrite _ => none
  | .txPostIndexWrite _ _ => none
  | .rxReleaseIndexWrite _ _ => none
  | .gapAck _ _ => none
  | .stickyQualityFlagsRead _ _ => none
  | .hostWrite _ _ _ _ => none
  | .lineSettled => none
  | .lineBusy => none
  | .frameTruncated _ => none
  | .damagedFrame _ => none
  | .malformedFrame bytes => some bytes
  | .dataReceived f => some (frameBytes .data f)
  | .ackReceived f => some (frameBytes .ack f)
  | .callReceived f => some (frameBytes .call f)
  | .answerReceived f => some (frameBytes .answer f)
  | .refuseReceived f => some (frameBytes .refuse f)
  | .clearReceived f => some (frameBytes .clear f)
  | .confirmReceived f => some (frameBytes .confirm f)
  | .rollReceived f => some (frameBytes .roll f)
  | .drainComplete _ => none
  | .silentRoundEnd => none
  | .turn => none
  | .collisionDetected => none
  | .frameSent => none
  | .frameCollided => none
  | .enterMuted => none
  | .peerAgedOut _ => none
  | .silenceTimerExpiry => none
  | .joinTimerExpiry => none
  | .muteTimerExpiry => none
  | .callRetryExpiry _ => none
  | .clearRetryExpiry _ => none
  | .dataRetryExpiry _ => none
  | .probeExpiry _ => none
  | .rxIdleExpiry _ => none
  | .qualityWindowEnd => none
  | .badKindRequest => none

/-- A well-formed command of a good or a malformed frame brings 9 to 261 bytes (R5, R7). -/
def Statement (i : Instr) : Prop := i.wellFormed = true → ∀ b ∈ trunkBytes i, 9 ≤ b.length ∧ b.length ≤ 261

/-- The bytes of a frame: seven of header, the payload, two of check (R5). -/
theorem frameBytes_length (k : Kind) (f : Frame) : (frameBytes k f).length = 9 + f.payload.length := by
  simp [frameBytes, withCheck, frameBody, headerBytes]
  omega

/-- A payload that its kind admits has at most 252 bytes (R8, R9). -/
theorem lengthFits_le (k : Kind) (n : Nat) (h : lengthFits k n = true) : n ≤ 252 := by
  cases k <;> simp [lengthFits, Config.maxPayload] at h ⊢ <;> first | exact of_decide_eq_true h | (subst h; decide)

/-- A good frame of a kind has 9 to 261 bytes. -/
theorem good_length (k : Kind) (f : Frame) (h : f.wellFormed k = true) :
    9 ≤ (frameBytes k f).length ∧ (frameBytes k f).length ≤ 261 := by
  simp only [Frame.wellFormed, keepsRules, Bool.and_eq_true] at h
  have := lengthFits_le k _ h.1.2
  rw [frameBytes_length]
  omega

/-- A frame whose count and check fit has 9 to 261 bytes. -/
theorem counted_length (bytes : List Byte) (h : countAndCheckFit bytes = true) : 9 ≤ bytes.length ∧ bytes.length ≤ 261 := by
  simp only [countAndCheckFit, Config.frameRoom, Bool.and_eq_true] at h
  exact ⟨of_decide_eq_true h.1.1.1, of_decide_eq_true h.1.1.2⟩

/-- A command that brings no trusted frame. -/
theorem none_brought (i : Instr) (h : trunkBytes i = none) : Statement i := by
  intro _ b hb
  rw [h] at hb
  cases hb

theorem resetPinLow : Statement .resetPinLow := none_brought _ rfl

theorem resetRelease (address : Address) (rate : BitVec 2) (loop : Bool) : Statement (.resetRelease address rate loop) := none_brought _ rfl

theorem startPassEnd : Statement .startPassEnd := none_brought _ rfl

theorem go : Statement .go := none_brought _ rfl

theorem restart : Statement .restart := none_brought _ rfl

theorem controlOtherValue (value : Byte) : Statement (.controlOtherValue value) := none_brought _ rfl

theorem requestPostIndexWrite (value : Byte) : Statement (.requestPostIndexWrite value) := none_brought _ rfl

theorem openRequest : Statement .openRequest := none_brought _ rfl

theorem listenRequest : Statement .listenRequest := none_brought _ rfl

theorem closeRequest : Statement .closeRequest := none_brought _ rfl

theorem abortRequest : Statement .abortRequest := none_brought _ rfl

theorem attentionTakeIndexWrite (value : Byte) : Statement (.attentionTakeIndexWrite value) := none_brought _ rfl

theorem pendingSetDrain : Statement .pendingSetDrain := none_brought _ rfl

theorem interruptEnableWrite (value : Byte) : Statement (.interruptEnableWrite value) := none_brought _ rfl

theorem txPostIndexWrite (circuit : CircuitNo) (value : Byte) : Statement (.txPostIndexWrite circuit value) := none_brought _ rfl

theorem rxReleaseIndexWrite (circuit : CircuitNo) (value : Byte) : Statement (.rxReleaseIndexWrite circuit value) := none_brought _ rfl

theorem gapAck (circuit : CircuitNo) (value : Byte) : Statement (.gapAck circuit value) := none_brought _ rfl

theorem stickyQualityFlagsRead (be1 be0 : Bool) : Statement (.stickyQualityFlagsRead be1 be0) := none_brought _ rfl

theorem hostWrite (word : BitVec 15) (be1 be0 : Bool) (data : Half) : Statement (.hostWrite word be1 be0 data) := none_brought _ rfl

theorem lineSettled : Statement .lineSettled := none_brought _ rfl

theorem lineBusy : Statement .lineBusy := none_brought _ rfl

theorem frameTruncated (bytes : List Byte) : Statement (.frameTruncated bytes) := none_brought _ rfl

theorem damagedFrame (bytes : List Byte) : Statement (.damagedFrame bytes) := none_brought _ rfl

theorem malformedFrame (bytes : List Byte) : Statement (.malformedFrame bytes) := by
  intro h b hb
  cases hb
  apply counted_length
  simp only [Instr.wellFormed, beq_iff_eq, classify, Bool.false_or] at h
  split at h
  · cases h
  · simpa using ‹¬(!countAndCheckFit bytes) = true›

theorem dataReceived (frame : Frame) : Statement (.dataReceived frame) := by
  intro h b hb
  cases hb
  exact good_length _ frame h

theorem ackReceived (frame : Frame) : Statement (.ackReceived frame) := by
  intro h b hb
  cases hb
  exact good_length _ frame h

theorem callReceived (frame : Frame) : Statement (.callReceived frame) := by
  intro h b hb
  cases hb
  exact good_length _ frame h

theorem answerReceived (frame : Frame) : Statement (.answerReceived frame) := by
  intro h b hb
  cases hb
  exact good_length _ frame h

theorem refuseReceived (frame : Frame) : Statement (.refuseReceived frame) := by
  intro h b hb
  cases hb
  exact good_length _ frame h

theorem clearReceived (frame : Frame) : Statement (.clearReceived frame) := by
  intro h b hb
  cases hb
  exact good_length _ frame h

theorem confirmReceived (frame : Frame) : Statement (.confirmReceived frame) := by
  intro h b hb
  cases hb
  exact good_length _ frame h

theorem rollReceived (frame : Frame) : Statement (.rollReceived frame) := by
  intro h b hb
  cases hb
  exact good_length _ frame h

theorem drainComplete (circuit : CircuitNo) : Statement (.drainComplete circuit) := none_brought _ rfl

theorem silentRoundEnd : Statement .silentRoundEnd := none_brought _ rfl

theorem turn : Statement .turn := none_brought _ rfl

theorem collisionDetected : Statement .collisionDetected := none_brought _ rfl

theorem frameSent : Statement .frameSent := none_brought _ rfl

theorem frameCollided : Statement .frameCollided := none_brought _ rfl

theorem enterMuted : Statement .enterMuted := none_brought _ rfl

theorem peerAgedOut (address : Address) : Statement (.peerAgedOut address) := none_brought _ rfl

theorem silenceTimerExpiry : Statement .silenceTimerExpiry := none_brought _ rfl

theorem joinTimerExpiry : Statement .joinTimerExpiry := none_brought _ rfl

theorem muteTimerExpiry : Statement .muteTimerExpiry := none_brought _ rfl

theorem callRetryExpiry (circuit : CircuitNo) : Statement (.callRetryExpiry circuit) := none_brought _ rfl

theorem clearRetryExpiry (circuit : CircuitNo) : Statement (.clearRetryExpiry circuit) := none_brought _ rfl

theorem dataRetryExpiry (circuit : CircuitNo) : Statement (.dataRetryExpiry circuit) := none_brought _ rfl

theorem probeExpiry (circuit : CircuitNo) : Statement (.probeExpiry circuit) := none_brought _ rfl

theorem rxIdleExpiry (circuit : CircuitNo) : Statement (.rxIdleExpiry circuit) := none_brought _ rfl

theorem qualityWindowEnd : Statement .qualityWindowEnd := none_brought _ rfl

theorem badKindRequest : Statement .badKindRequest := none_brought _ rfl

end Sys2Proof.Laws.FrameLength
end

