-- ==== Sys2Proof/Laws/Timers.lean ====
section
/-! SUPPORT. When a timer has run out, a turn or the end of a silent round is due, and what the quiet measure does in one bt. -/

namespace Sys2Proof.Laws

open Sys2Proof Sys2Proof.Machine

/-! ## Timers -/

@[simp] theorem timerOut_none (limit : Nat) : timerOut limit none = false := rfl

@[simp] theorem timerOut_some (limit n : Nat) : timerOut limit (some n) = decide (limit ≤ n) := rfl

theorem timerOut_iff {limit : Nat} {t : Option Nat} (h : 0 < limit) : timerOut limit t = true ↔ limit ≤ t.getD 0 := by
  cases t <;> simp [timerOut]; omega

/-! ## Turns -/

theorem turnDue_iff (a : Arbiter) :
    a.turnDue = true ↔ a.state = .round ∧ a.turnMade = false ∧ a.roundTimer = 24 + 16 * a.ownPosition := by
  simp [Arbiter.turnDue, positionStart, Config.guard, Config.positionStep, and_assoc, Nat.mul_comm]

theorem silenceDue_iff (a : Arbiter) :
    a.silenceDue = true ↔ a.state = .round ∧ 24 + 16 * a.positions ≤ a.roundTimer := by
  have : a.silentLength = 24 + 16 * a.positions := by
    simp [Arbiter.silentLength, positionStart, Config.guard, Config.positionStep, Nat.mul_comm]
  simp [Arbiter.silenceDue, this]

/-! ## The quiet measure -/

theorem quietNext_le (l : Line) : l.quietNext ≤ 20 := Nat.min_le_left _ _

theorem quietNext_mono {l : Line} (h : l.quiet ≤ 20) : l.quiet ≤ l.quietNext := by
  simp only [Line.quietNext, Config.quietTime]; omega

theorem tickLine_off {s : State} (h : s.line.state = .off) : s.tickLine = s.line := by simp [State.tickLine, h]

/-- Off the own frame a bit time moves the quiet measure alone, wherever receive is enabled (R2). -/
theorem tickLine_quiet {s : State} (h : s.line.state ≠ .off) (g : s.line.state ≠ .sending) :
    s.tickLine = { s.line with quiet := s.line.quietNext } := by
  unfold State.tickLine
  split <;> simp_all

@[simp] theorem afterOwnFrame_state (l : Line) (q : Nat) : (l.afterOwnFrame q).state = .idle := rfl
@[simp] theorem afterOwnFrame_quiet (l : Line) (q : Nat) : (l.afterOwnFrame q).quiet = q := rfl
@[simp] theorem afterOwnFrame_driven (l : Line) (q : Nat) : (l.afterOwnFrame q).driven = [] := rfl
@[simp] theorem afterOwnFrame_txen (l : Line) (q : Nat) : (l.afterOwnFrame q).txen = false := rfl
@[simp] theorem afterOwnFrame_txd (l : Line) (q : Nat) : (l.afterOwnFrame q).txd = true := rfl

@[simp] theorem line_off_state (l : Line) : l.off.state = .off := rfl
@[simp] theorem line_off_quiet (l : Line) : l.off.quiet = l.quiet := rfl
@[simp] theorem line_off_rxCheck (l : Line) : l.off.rxCheck = l.rxCheck := rfl
@[simp] theorem line_off_txCheck (l : Line) : l.off.txCheck = l.txCheck := rfl

end Sys2Proof.Laws
end

