-- ==== Sys2Proof/Laws/Window.lean ====
section
/-! SUPPORT. What writes of the window show and leave alone: fields, runs of bytes, and the entries of the attention queue. -/

namespace Sys2Proof.Laws

open Sys2Proof Sys2Proof.Machine

/-- Another offset of the window than the one written. -/
theorem peek_poke_ne (s : State) (a x : Nat) (v : Byte) (ha : a < 65536) (hx : x < 65536) (h : x ≠ a) :
    (s.poke a v).peek x = s.peek x :=
  peek_poke_other s a x v (by rw [Nat.mod_eq_of_lt ha, Nat.mod_eq_of_lt hx]; exact h)

/-- Offsets outside a 16-bit field. -/
theorem peek_pokeHalf_ne (s : State) (a x : Nat) (v : Half) (ha : a + 1 < 65536) (hx : x < 65536) (h : x ≠ a) (h1 : x ≠ a + 1) :
    (s.pokeHalf a v).peek x = s.peek x := by
  rw [State.pokeHalf, peek_poke_ne _ _ _ _ ha hx h1, peek_poke_ne _ _ _ _ (by omega) hx h]

/-- A 16-bit field shows what was written. -/
theorem peek_pokeHalf_same (s : State) (a : Nat) (v : Half) (h : s.window.wf = true) (ha : a + 1 < 65536) :
    (s.pokeHalf a v).peek a = lowByte v ∧ (s.pokeHalf a v).peek (a + 1) = highByte v := by
  refine ⟨?_, peek_poke_same _ _ _ (poke_wf _ _ _ h) ha⟩
  rw [State.pokeHalf, peek_poke_ne _ _ _ _ ha (by omega) (by omega), peek_poke_same _ _ _ h (by omega)]

/-- Offsets outside a run of bytes. -/
theorem peek_pokeBytes_ne (bytes : List Byte) (s : State) (a x : Nat) (ha : a + bytes.length ≤ 65536) (hx : x < 65536)
    (h : x < a ∨ a + bytes.length ≤ x) : (s.pokeBytes a bytes).peek x = s.peek x := by
  induction bytes generalizing s a with
  | nil => rfl
  | cons v rest ih =>
    simp only [List.length_cons] at ha h
    rw [State.pokeBytes, ih _ (a + 1) (by omega) (by omega), peek_poke_ne _ _ _ _ (by omega) hx (by omega)]

/-- An entry of the attention queue lies in 0x0600 to 0x07FF (R131, R132). -/
theorem entryOffset_range (fill : Byte) : 0x0600 ≤ entryOffset fill ∧ entryOffset fill + 8 ≤ 0x0800 := by
  unfold entryOffset
  omega

/-- An entry's snapshot has four bytes (R137). -/
theorem snapshotOf_length (s : State) (p : NoticePair) : (s.snapshotOf p).length = 4 := by
  cases p <;> rfl

/-- The window outside the attention queue, its fill index, its sequence and the pending fields, before and after a raise (R158,
R161). -/
theorem peek_raiseWith_ne (s : State) (p : NoticePair) (detail : Byte) (x : Nat) (hx : x < 65536)
    (hq : x < 0x0600 ∨ 0x0800 ≤ x) (hf : x < 0x0F ∨ 0x12 < x) : (s.raiseWith p detail).peek x = s.peek x := by
  obtain ⟨-, h⟩ | ⟨-, -, -, h⟩ | ⟨-, -, -, h⟩ | ⟨-, -, h⟩ := raiseWith_cases s p detail <;> rw [h]
  · rw [State.showWaiting, peek_poke_ne _ _ _ _ (by decide) hx (by simp only [offPendingCount]; omega),
      peek_poke_ne _ _ _ _ (by decide) hx (by simp only [offPendingFlag]; omega)]
    rfl
  · have hr := entryOffset_range s.notice.fill
    have hl : ([s.notice.sequence, p.sourceByte, p.causeByte, detail] ++ s.snapshotOf p).length = 8 := by
      simp [snapshotOf_length]
    simp only [State.writeEntry, peek_updateIrq]
    rw [peek_poke_ne _ _ _ _ (by decide) hx (by simp only [offAttentionFill]; omega),
      peek_poke_ne _ _ _ _ (by decide) hx (by simp only [offAttentionSequence]; omega)]
    exact peek_pokeBytes_ne _ s _ x (by omega) hx (by omega)

/-- The same of a raise whose detail is read from state. -/
theorem peek_raise_ne (s : State) (p : NoticePair) (x : Nat) (hx : x < 65536) (hq : x < 0x0600 ∨ 0x0800 ≤ x)
    (hf : x < 0x0F ∨ 0x12 < x) : (s.raise p).peek x = s.peek x := peek_raiseWith_ne s p _ x hx hq hf

/-- A raise keeps the canonical form. -/
theorem raiseWith_wf (s : State) (p : NoticePair) (detail : Byte) (h : s.window.wf = true) :
    (s.raiseWith p detail).window.wf = true := by
  obtain ⟨-, e⟩ | ⟨-, -, -, e⟩ | ⟨-, -, -, e⟩ | ⟨-, -, e⟩ := raiseWith_cases s p detail <;> rw [e]
  · exact h
  · exact h
  · exact poke_wf _ _ _ (poke_wf _ _ _ h)
  · exact poke_wf _ _ _ (poke_wf _ _ _ (pokeBytes_wf _ s _ h))

end Sys2Proof.Laws
end

