-- ==== Sys2Proof/Tests/Slice0.lean ====
section
/-! SUPPORT. Tests: the well-formedness checks refuse an ill-formed term each, values that the spec works out, one happening each on
small states with results worked out by hand from the spec, and for each statement with hypotheses a state that meets them. -/

namespace Sys2Proof.Tests

set_option Elab.async false

open Sys2Proof Sys2Proof.Machine Sys2Proof.Safety Sys2Proof.Claims

/-! ## Small states -/

/-- A station of address 5 in ACTIVE with four circuits, the peer 7 present and due to age out, the line IDLE, and a turn due. -/
def active : State :=
  { State.reset with
    station := { Station.reset 5 0 false with
      state := .active, resetLow := false, startStatus := .ok, circuitCount := 4, creditStep := some 2 }
    line := { Line.reset with state := .idle, rxEnable := true, txEnable := true }
    arbiter := { Arbiter.reset 7 with state := .round, positions := 2, roundTimer := 24 }
    roster := (Roster.reset.setEntry 5 ⟨true, 0⟩).setEntry 7 ⟨true, 262144⟩
    quality := { Quality.reset with windowTimer := some 65536, params := some ⟨0, 2, 8⟩ } }

/-- The same station with a frame from a peer on the line. -/
def hearing : State := { active with line.state := .hearing, arbiter.state := .busy }

/-- A circuit of four slots each way, that carries data to circuit 3 of the peer 7, with two slots posted and unsent. -/
def openCircuit : Circuit :=
  { Circuit.reset with
    state := .opened
    peer := 7
    peerCircuit := some 3
    callTag := 9
    peerTag := some 4
    initialCredit := 4
    rxNotice := 2
    txNotice := 1
    limit := 4
    lastLimit := 4
    lastCredit := 4
    txBase := 0x1000
    txSize := 4
    rxBase := 0x1400
    rxSize := 4
    postedCopy := 2
    lifetime := 1 }

/-- A state with circuit 1 as given. -/
def withOne (s : State) (k : Circuit) : State := s.updCircuit 1 fun _ => k

/-- A frame from circuit 3 of the peer 7 to circuit 1 of station 5. -/
def toOne (seq ack credit : Seq) (payload : List Byte) : Frame := ⟨5, 7, false, false, 1, 3, seq, ack, credit, payload⟩

/-- A request record at take index 0, with the request posted. -/
def posted (s : State) (id kind circuit peer service mode rx tx : Byte) : State :=
  { s.pokeBytes 0x0500 [id, kind, circuit, peer, service, mode, rx, tx] with requests.postCopy := 1 }

/-- The bytes of a malformed frame of this source: a good ACK but for its credit of 33 (R8). -/
def badCredit (source : Address) : List Byte := withCheck (headerBytes .ack { toOne 0 0 33 [] with src := source } 0)

/-- A frame in flight of circuit 1. -/
def flightOf (use : FrameUse) (k : Kind) (discharged : Discharged) : FlightFrame :=
  ⟨use, .circuit 1 1, k, ⟨7, 5, false, false, 3, 1, 0, 0, 4, []⟩, .literal [], discharged⟩

/-- The frame of circuit 1 is on the line. -/
def sending (f : FlightFrame) : State :=
  { withOne active openCircuit with line.state := .sending, line.txen := true, arbiter.state := .busy, selector.inFlight := some f }

/-- The frame of circuit 1 has collided. -/
def stopped (f : FlightFrame) : State :=
  { withOne active openCircuit with line.state := .stopped, arbiter.state := .busy, selector.inFlight := some f }

/-- A station in CONFIG whose Start Block asks for four circuits that fill the 240 slots. -/
def starting : State :=
  { State.reset.pokeBytes 0x0800 [4, 8, 3, 0, 1, 0, 0, 0, 0, 0, 0, 0, 0, 0, 0, 0, 5, 5, 5, 5, 5, 5, 4, 5] with
    station.state := .config, station.resetLow := false }

/-! ## Ill-formed commands -/

theorem test_wellFormed_refuses_control : (Instr.controlOtherValue 0x5A).wellFormed = false := by decide
theorem test_wellFormed_refuses_read_of_no_lane : (Instr.stickyQualityFlagsRead false false).wellFormed = false := by decide
theorem test_wellFormed_refuses_write_of_no_lane : (Instr.hostWrite 0 false false 0).wellFormed = false := by decide
theorem test_wellFormed_refuses_good_bytes_as_damaged :
    (Instr.damagedFrame (frameBytes .ack (toOne 0 0 0 []))).wellFormed = false := by decide +kernel
theorem test_wellFormed_refuses_good_bytes_as_malformed :
    (Instr.malformedFrame (frameBytes .ack (toOne 0 0 0 []))).wellFormed = false := by decide +kernel
theorem test_wellFormed_refuses_data_to_all : (Instr.dataReceived { toOne 0 0 0 [] with dst := 31 }).wellFormed = false := by decide
theorem test_wellFormed_refuses_ack_with_end : (Instr.ackReceived { toOne 0 0 0 [] with endMark := true }).wellFormed = false := by
  decide
theorem test_wellFormed_refuses_call_of_mode_2 : (Instr.callReceived (toOne 0 0 0 [1, 2])).wellFormed = false := by decide
theorem test_wellFormed_refuses_answer_with_credit_33 : (Instr.answerReceived (toOne 0 0 33 [])).wellFormed = false := by decide
theorem test_wellFormed_refuses_reason_3 : (Instr.refuseReceived (toOne 0 0 0 [3])).wellFormed = false := by decide
theorem test_wellFormed_refuses_clear_with_payload : (Instr.clearReceived (toOne 0 0 0 [1])).wellFormed = false := by decide
theorem test_wellFormed_refuses_confirm_from_31 : (Instr.confirmReceived { toOne 0 0 0 [] with src := 31 }).wellFormed = false := by
  decide
theorem test_wellFormed_refuses_roll_with_bit_31 :
    (Instr.rollReceived { toOne 0 0 0 [0, 0, 0, 0x80] with dst := 31 }).wellFormed = false := by decide
theorem test_wellFormed_refuses_age_of_31 : (Instr.peerAgedOut 31).wellFormed = false := by decide

/-! ## Values the spec works out -/

/-- R10: the check over the nine characters "123456789" is 0x29B1. -/
theorem test_check_value : checkOf [0x31, 0x32, 0x33, 0x34, 0x35, 0x36, 0x37, 0x38, 0x39] = 0x29B1 := by decide +kernel

/-- R1: a byte of 0x01 that is not the last is a 0, its bits from the least significant, and a 1. -/
theorem test_line_bits : lineBits 0x01 false = [false, true, false, false, false, false, false, false, false, true] := by decide

/-- R39, R42: in a full round station 5 comes two positions after base 2, at 24 + 2 · 16 bt. -/
theorem test_full_position : positionStart (Roster.reset.positionIn 2 5 .full) = 56 := by decide

/-- R41: after base 7 the members 5 and 7 come in that order, so 5 holds position 0 and 7 the last. -/
theorem test_compressed_positions :
    active.roster.positionIn 7 5 .compressed = 0 ∧ active.roster.positionIn 7 7 .compressed = 1 := by decide +kernel

/-- R135: the record of circuit 15 lies at 0x04C0. -/
theorem test_record_base : recordBase 15 = 0x04C0 := by decide

/-! ## One happening each -/

/-- The state a command answers. -/
def after (i : Instr) (s : State) : State :=
  match exec i s with
  | .next t => t
  | .fault _ => s
  | .refused _ => s

/-- R174: a station of address 31 halts at the end of the start pass with BAD_STRAP. -/
theorem test_start_pass_of_address_31 :
    (after .startPassEnd { State.reset with
      station := { Station.reset 31 0 false with resetLow := false, startPass := some 649 } }).station.haltCause = .badStrap := by
  decide +kernel

/-- R175: a count of 17 is BAD_COUNT. -/
theorem test_go_bad_count :
    (after .go (starting.poke 0x0800 17)).station.startStatus = .badCount := by decide +kernel

/-- R176: circuit 1's transmit ring follows the 64 slots of circuit 0, at 0x1000 + 64 · 256. -/
theorem test_go_lays_rings : ((after .go starting).circuit 1).txBase = 0x5000 ∧ (after .go starting).peek 0x0151 = 0x50 := by
  decide +kernel

/-- R153: a post of 17 untaken requests is a QUEUE_FAULT. -/
theorem test_queue_fault : (after (.requestPostIndexWrite 17) active).requests.refusal.outcome = 23 := by decide +kernel

/-- R150: a post beyond the ring is a POST_FAULT, raised as FAULT of circuit 1. -/
theorem test_post_fault :
    (after (.txPostIndexWrite 1 5) (withOne active openCircuit)).notice.held = [.circuit 1 .fault] := by decide +kernel

/-- R115, R116: a release that moves the limit by the credit step of 2 makes an ACK owed. -/
theorem test_release_owes_ack :
    ((after (.rxReleaseIndexWrite 1 2) (withOne active { openCircuit with
      rxFill := 4, expectedSeq := 4, lastLimit := 4, lastCredit := 0 })).circuit 1).ackOwed = true := by decide +kernel

/-- R60: an OPEN to an absent peer completes NO_PEER. -/
theorem test_open_absent_peer :
    (after .openRequest (posted (withOne active { openCircuit with state := .free }) 1 1 1 8 0 0 1 0)).peek 0x014A = 3 := by
  decide +kernel

/-- R155: an OPEN on an OPEN circuit is refused with BAD_STATE. -/
theorem test_open_bad_state :
    (after .openRequest (posted (withOne active openCircuit) 1 1 1 7 0 0 1 0)).peek 0x2D = 20 := by decide +kernel

/-- R112, R113: the expected segment fills a slot: its length at the slot, rx fill one on, and E one on. -/
theorem test_data_fills_a_slot :
    (after (.dataReceived (toOne 0 0 0 [0xAB])) (withOne hearing openCircuit)).peek 0x1404 = 0xAB ∧
    ((after (.dataReceived (toOne 0 0 0 [0xAB])) (withOne hearing openCircuit)).circuit 1).expectedSeq = 1 := by decide +kernel

/-- R126: on a plain circuit a segment of sequence 2 in place of 0 misses two. -/
theorem test_plain_gap :
    (after (.dataReceived (toOne 2 0 0 [])) (withOne hearing { openCircuit with mode := .plain })).peek 0x1402 = 2 := by
  decide +kernel

/-- R104: an ack of both outstanding segments moves tx done by two and stops the data retry timer. -/
theorem test_ack_moves_tx_done :
    ((after (.ackReceived (toOne 0 2 4 [])) (withOne hearing { openCircuit with
      nextSeq := 2, dataRetryTimer := some 5 })).circuit 1).txDone = 2 ∧
    ((after (.ackReceived (toOne 0 2 4 [])) (withOne hearing { openCircuit with
      nextSeq := 2, dataRetryTimer := some 5 })).circuit 1).dataRetryTimer = none := by decide +kernel

/-- R72: a CALL for which nothing listens draws a REFUSE with its tag. -/
theorem test_call_is_refused :
    (after (.callReceived (toOne 6 0 4 [9, 0])) hearing).orphans.entries = [⟨7, 3, .refuse 6 .noListener, false⟩] := by
  decide +kernel

/-- R85: a CLEAR ends an OPEN circuit with PEER_CLEARED and a CONFIRM owed. -/
theorem test_clear_ends :
    ((after (.clearReceived (toOne 0 0 0 [])) (withOne hearing openCircuit)).circuit 1).state = .ended ∧
    ((after (.clearReceived (toOne 0 0 0 [])) (withOne hearing openCircuit)).circuit 1).controlOwed = some .confirm := by
  decide +kernel

/-- R50, R101: the turn sends the new segment of circuit 1, and TXEN is asserted. -/
theorem test_turn_sends_data :
    (after .turn (withOne active openCircuit)).line.txen = true ∧
    (after .turn (withOne active openCircuit)).line.driven = [0x07] := by decide +kernel

/-- R102: a slot length of 253 loses the circuit with SLOT_FAULT. -/
theorem test_slot_fault :
    ((after .turn ((withOne active openCircuit).poke 0x1000 253)).circuit 1).endCause = .slotFault := by decide +kernel

/-- R103: the sent report of a new DATA moves N on and starts the data retry timer. -/
theorem test_sent_moves_n :
    ((after .frameSent (sending (flightOf .newData .data ⟨none, false, false, false⟩))).circuit 1).nextSeq = 1 ∧
    ((after .frameSent (sending (flightOf .newData .data ⟨none, false, false, false⟩))).circuit 1).dataRetryTimer = some 0 := by
  decide +kernel

/-- R49: the sixteenth collision in a row mutes the station. -/
theorem test_sixteen_collisions_mute :
    (after .frameCollided { stopped (flightOf .ack .ack ⟨none, false, true, false⟩) with arbiter.collisions := 15 }).station.state =
      .muted := by decide +kernel

/-- R107: the seventh run of the data retry timer loses the circuit with LOST_RETRIES. -/
theorem test_seventh_retry_loses :
    ((after (.dataRetryExpiry 1) (withOne active { openCircuit with
      nextSeq := 1, dataRetryTimer := some 131072, dataRetryCount := 6 })).circuit 1).endCause = .lostRetries := by decide +kernel

/-- R170: at a sum of the high threshold the level goes POOR. -/
theorem test_level_goes_poor : (after .qualityWindowEnd { active with quality.d := 5, quality.k := 3 }).quality.level = .poor := by
  decide +kernel

/-- R24, R93: a peer aged out takes its circuits with it. -/
theorem test_aged_out_loses : ((after (.peerAgedOut 7) (withOne active openCircuit)).circuit 1).endCause = .lostAbsent := by
  decide +kernel

/-- R24: an age that a frame end has set back to 0 removes nobody. -/
theorem test_refreshed_peer_stays :
    (after (.peerAgedOut 7) { active with roster := active.roster.setEntry 7 ⟨true, 0⟩ }).roster.isPresent 7 = true := by
  decide +kernel

/-- R28: with the timer back at 0 after a sent frame, no ROLL becomes owed. -/
theorem test_restarted_silence_owes_no_roll : (after .silenceTimerExpiry active).selector.rollOwed = false := by decide +kernel

/-- R2, R6: twenty bt without a transition end a frame that a peer began. -/
theorem test_quiet_line_truncates : (State.idle { hearing with line.quiet := 19 }).pending = [.frameTruncated []] := by
  decide +kernel

/-- R2, R15: twenty bt without a transition end the wait after a collision. -/
theorem test_quiet_line_ends_a_collision :
    (State.idle { stopped (flightOf .ack .ack ⟨none, false, true, false⟩) with line.quiet := 19 }).pending = [.frameCollided] := by
  decide +kernel

/-- R18: in loop test the line is busy on the own frame and quiet from its end on. -/
theorem test_loop_line_is_quiet_after_own_frame :
    let s : State := { sending (flightOf .ack .ack ⟨none, false, true, false⟩) with station.loop := true }
    s.lineQuiet = false ∧ (after .frameSent s).lineQuiet = true ∧ (after .frameSent s).line.quiet = 20 := by decide +kernel

/-- R145: a restart writes CONTROL back to 0. -/
theorem test_control_is_written_back : (after .restart (active.poke 0x0A 0x33)).peek 0x0A = 0 := by decide +kernel

/-- Two writes of CONTROL wait behind the one in hand; the last stands in memory. -/
def threeWrites : State :=
  { active.poke 0x0A 7 with pending := [.hostWrite 5 false true 6, .lineBusy, .controlOtherValue 7] }

/-- R145: the field keeps the third value until the third write is taken, and then reads 0. -/
theorem test_control_keeps_a_later_value :
    let s1 := after (.controlOtherValue 5) { threeWrites with landed := 3 }
    let s2 := after (.hostWrite 5 false true 6) { s1 with pending := [.lineBusy, .controlOtherValue 7] }
    let s3 := after (.controlOtherValue 7) { s2 with pending := [] }
    (s1.peek 0x0A = 7 ∧ s1.landed = 2) ∧ (s2.peek 0x0A = 7 ∧ s2.landed = 1) ∧ s3.peek 0x0A = 0 ∧ s3.landed = 0 := by
  decide +kernel

/-- R130: a 16-bit write lands in one access, both bytes; a watched read before it holds it back. -/
theorem test_writes_land_whole :
    (State.pokeEach active (wordBytes 5 true true 0x0107)).peek 0x0A = 7 ∧
    (State.pokeEach active (wordBytes 5 true true 0x0107)).peek 0x0B = 1 ∧
    State.writesAhead { active with pending := [.stickyQualityFlagsRead true true, .restart] } = [] := by decide +kernel

/-- R32: a malformed frame from the own address halts the station. -/
theorem test_duplicate_halts : (after (.malformedFrame (badCredit 5)) hearing).station.haltCause = .duplicateAddress := by
  decide +kernel

/-! ## A state that meets the hypotheses of each statement -/

theorem witness_MemoryLaw_alone : MemoryLaw State.reset ∧ MemoryLaw active ∧ MemoryLaw starting := by decide +kernel

theorem witness_IdleStepIsOneBitTime : active.pending = [] := by decide

theorem witness_StartPassLatchesWritesAndEnters :
    (State.reset.station.state = .reset ∧ State.reset.station.resetLow = true) ∧
    (passField 0x03 = 0 ∧ passField 0x13 = 18 ∧ passField 0x14 = 19 ∧ passField 0x04FF = 648) ∧
    (∀ n ∈ [0, 7, 649], let s := { State.reset with station.resetLow := false, station.startPass := some n }
      MemoryLaw s ∧ s.station.state = .reset ∧ s.station.startPass = some n) := by decide +kernel

/-- Behind a plain write, a write of CONTROL and of the interrupt enable in one word waits. -/
def later : State := { starting with pending := [.hostWrite 0x480 true true 0x1234, .turn, .hostWrite 5 true true 0x0107] }

theorem witness_ControlWritesThatStartNothing :
    (MemoryLaw active ∧ (0x5B : Byte) ≠ 0x5A ∧ (0x5B : Byte) ≠ 0xA5 ∧ active.station.state ≠ .config ∧
      State.reset.station.state = .reset) ∧
    (∀ v ∈ [(0 : Byte), 17], MemoryLaw (starting.poke 0x0800 v) ∧ (starting.poke 0x0800 v).station.state = .config ∧
      startOutcome (starting.poke 0x0800 v) ≠ .ok) ∧
    (openWrites active = false ∧ openWrites (starting.poke 0x0800 17) = false ∧ openWrites { later with landed := 3 } = false) ∧
    (later.station.state ≠ .reset ∧ openWrites later = true ∧ openWrites { later with landed := 1 } = true) := by decide +kernel

theorem witness_GoAcceptedEntersJoining :
    (∀ v ∈ [(1 : Byte), 4], MemoryLaw (starting.poke 0x0800 v) ∧ startOutcome (starting.poke 0x0800 v) = .ok) ∧
    starting.station.state = .config ∧ starting.station.address ≠ 31 ∧ openWrites (starting.poke 0x0800 4) = false := by
  decide +kernel

theorem witness_RestartReturnsToConfig :
    MemoryLaw active ∧ active.station.state ≠ .reset ∧ openWrites active = false := by decide +kernel

theorem witness_HostWriteChangesOnlyItsBytes :
    MemoryLaw active ∧ watchedRow 0 0 = none ∧ watchedRow 1 0 = none ∧ watchedRow 0xFFFE 0 = none ∧ watchedRow 0xFFFF 0 = none := by
  decide +kernel

theorem witness_WatchedWritesAreTheirRows :
    .go ∈ watchedRow 0x0A 0x5A ∧ .interruptEnableWrite 1 ∈ watchedRow 0x0B 1 ∧
    (watchedRow 0x0D 0 = none ∧ .requestPostIndexWrite 3 ∈ watchedRow 0x0C 3) ∧
    (.txPostIndexWrite 15 2 ∈ watchedRow 0x04F0 2 ∧ .rxReleaseIndexWrite 15 2 ∈ watchedRow 0x04F1 2) := by decide +kernel

theorem witness_StickyReadReturnsAndClears : State.reset.station.state = .reset ∧ active.station.state ≠ .reset := by decide

theorem witness_RequestPostIsTakenOrFaults :
    active.station.state ≠ .reset ∧ span active.requests.take 16 ≤ 16 ∧
    span active.requests.take active.requests.postCopy ≤ span active.requests.take 16 ∧ ¬span active.requests.take 17 ≤ 16 := by
  decide

theorem witness_TakingAttentionDrainsThePendingSet :
    span active.notice.takeCopy 0 ≤ span active.notice.takeCopy active.notice.fill ∧
    ¬span active.notice.takeCopy 1 ≤ span active.notice.takeCopy active.notice.fill := by decide

theorem witness_TxPostIsTakenOrFaults :
    (1 : CircuitNo).val < active.station.circuitCount ∧ active.station.state.serves = true ∧
    (span openCircuit.txDone 4 ≤ openCircuit.txSize ∧ span openCircuit.txDone openCircuit.postedCopy ≤ span openCircuit.txDone 4) ∧
    ¬span openCircuit.txDone 5 ≤ openCircuit.txSize ∧ ¬span openCircuit.txDone openCircuit.postedCopy ≤ span openCircuit.txDone 1 := by
  decide

theorem witness_ReleaseAndGapAckAreTaken :
    span openCircuit.releaseCopy 0 ≤ span openCircuit.releaseCopy openCircuit.rxFill ∧
    ¬span openCircuit.releaseCopy 1 ≤ span openCircuit.releaseCopy openCircuit.rxFill := by decide

/-- Requests that fail each check in turn, on a state whose circuit 1 is FREE or OPEN. -/
theorem witness_RefusedRequestLeavesItsCircuit :
    let free := withOne active { openCircuit with state := .free }
    let s := withOne active openCircuit
    (∀ p ∈ [(posted free 1 1 4 7 0 0 1 0, (16 : Byte)), (posted free 1 0 1 7 0 0 1 0, 17), (posted free 1 5 1 7 0 0 1 0, 17),
        (posted free 1 1 1 7 0 2 1 0, 18), (posted free 1 2 1 32 0 0 1 0, 18), (posted s 1 1 1 7 0 0 1 0, 20),
        (posted free 1 3 1 7 0 0 1 0, 20), (posted (withOne active { openCircuit with state := .draining }) 1 3 1 7 0 0 1 0, 21),
        (posted free 1 1 1 31 0 0 1 0, 19), (posted free 1 1 1 5 0 0 1 0, 19),
        (posted { free with station.state := .joining } 1 1 1 7 0 0 1 0, 22)],
      MemoryLaw p.1 ∧ waits p.1 ∧ requestCheck p.1 = p.2) := by decide +kernel

theorem witness_RowsOutOfPlaceDoNothing :
    active.station.resetLow = false ∧ active.station.startPass = none ∧ ¬waits active ∧ active.line.state ≠ .hearing ∧
    active.line.state ≠ .sending ∧ active.line.state ≠ .stopped := by decide +kernel

theorem witness_OpenAndListenAreTaken :
    let free := withOne active { openCircuit with state := .free }
    (∀ p ∈ [(posted free 1 1 1 7 0 0 4 3, (1 : Byte)), (posted free 1 1 1 30 0 1 1 0, 1), (posted free 1 2 1 31 0 0 4 3, 2)],
      MemoryLaw p.1 ∧ waits p.1 ∧ reqByte p.1 1 = p.2 ∧ requestCheck p.1 = 0) ∧
    (posted free 1 1 1 7 0 0 4 3).roster.isPresent 7 = true ∧ (posted free 1 1 1 30 0 1 1 0).roster.isPresent 30 = false := by
  decide +kernel

theorem witness_CloseDrainsThenClears :
    let s := posted (withOne active openCircuit) 1 3 1 0 0 0 0 0
    let drained := posted (withOne active { openCircuit with postedCopy := 0 }) 1 3 1 0 0 0 0 0
    (MemoryLaw s ∧ waits s ∧ reqByte s 1 = 3 ∧ requestCheck s = 0 ∧ (s.circuit (reqCircuit s)).state = .opened ∧
      (s.circuit (reqCircuit s)).txDone ≠ (s.circuit (reqCircuit s)).postedCopy) ∧
    (waits drained ∧ requestCheck drained = 0 ∧
      (drained.circuit (reqCircuit drained)).txDone = (drained.circuit (reqCircuit drained)).postedCopy) := by decide +kernel

theorem witness_CloseAndAbortFree :
    let s := posted (withOne active { openCircuit with state := .ended, controlOwed := some .confirm }) 1 3 1 0 0 0 0 0
    let abort := posted (withOne active openCircuit) 1 4 1 0 0 0 0 0
    (MemoryLaw s ∧ waits s ∧ reqByte s 1 = 3 ∧ requestCheck s = 0 ∧ (s.circuit (reqCircuit s)).state = .ended) ∧
    (MemoryLaw abort ∧ waits abort ∧ reqByte abort 1 = 4 ∧ requestCheck abort = 0 ∧
      (abort.circuit (reqCircuit abort)).state.live = true) := by decide +kernel

theorem witness_RoundBeginsAfterSettlingAndSilence :
    let settled : State := { active with line.state := .settling, line.quiet := 20, arbiter.state := .waiting }
    let silent : State := { active with arbiter.roundTimer := 56 }
    (settled.line.state = .settling ∧ 20 ≤ settled.line.quiet) ∧
    (silent.arbiter.state = .round ∧ 24 + 16 * silent.arbiter.positions ≤ silent.arbiter.roundTimer) ∧
    active.line.state ≠ .settling ∧ active.arbiter.roundTimer < 24 + 16 * active.arbiter.positions := by decide

theorem witness_PositionsFollowTheRotation :
    active.arbiter.base ≠ 31 ∧ (active.roster.entry 5).present = true ∧ active.roster.isPresent active.arbiter.base = true := by
  decide +kernel

theorem witness_DamagedFramesAreCounted :
    isDamaged [] = true ∧ isDamaged (List.replicate 262 0) = true ∧ MemoryLaw hearing ∧ hearing.line.state = .hearing := by
  decide +kernel

theorem witness_MalformedFramesAreCounted :
    MemoryLaw hearing ∧ hearing.line.state = .hearing ∧ hearing.arbiter.state = .busy ∧
    (∀ a ∈ [(7 : Address), 31], isMalformed (badCredit a) ∧ sourceField (badCredit a) ≠ hearing.station.address ∧
      (sourceField (badCredit a) = 31 ∨ hearing.roster.isPresent (sourceField (badCredit a)) = true)) := by decide +kernel

theorem witness_NewPeerIsAddedFirst :
    MemoryLaw hearing ∧
    (hearsFrom .ack { toOne 0 0 32 [] with src := 30 } hearing ∧ hearing.roster.isPresent 30 = false) ∧
    (isMalformed (badCredit 0) ∧ hearing.line.state = .hearing ∧ sourceField (badCredit 0) ≠ 31 ∧
      sourceField (badCredit 0) ≠ hearing.station.address ∧ hearing.roster.isPresent (sourceField (badCredit 0)) = false) := by
  decide +kernel

theorem witness_DuplicateAddressHalts :
    MemoryLaw hearing ∧ hearing.line.state = .hearing ∧ hearing.station.state.receives = true ∧ hearing.station.loop = false ∧
    (isMalformed (badCredit 5) ∧ sourceField (badCredit 5) = hearing.station.address) ∧
    (∀ c, RingAreaLaw ((withOne hearing openCircuit).circuit c)) ∧
    (keepsRules .ack { toOne 0 0 0 [] with src := 5 } = true) := by decide +kernel

theorem witness_RollWithoutTheOwnBitOwesARoll :
    let f : Frame := { toOne 0 0 0 [0x80, 0, 0, 0] with dst := 31 }
    MemoryLaw hearing ∧ hearsFrom .roll f hearing ∧ hearing.roster.isPresent f.src = true ∧
    presentBit f.payload hearing.station.address.toNat = false := by decide +kernel

/-- The segment expected, one out of order, and one with no slot free. -/
theorem witness_AssuredSegmentsAreTakenInOrder :
    let s := withOne hearing openCircuit
    let full := withOne hearing { openCircuit with rxFill := 4 }
    (∀ f ∈ [toOne 0 0 32 (List.replicate 252 1), toOne 63 0 0 []],
      MemoryLaw s ∧ hears .data f s ∧ reaches f s ∧ (s.circuit 1).mode = .assured ∧ (s.circuit 1).state.transfers = true ∧
      RingAreaLaw (s.circuit 1)) ∧
    hasRoom (s.circuit 1) ∧ ¬hasRoom (full.circuit 1) := by decide +kernel

theorem witness_PlainSegmentsMarkGaps :
    let s := withOne hearing { openCircuit with mode := .plain }
    (∀ f ∈ [toOne 0 0 0 [], toOne 63 0 0 []],
      MemoryLaw s ∧ hears .data f s ∧ reaches f s ∧ (s.circuit 1).mode = .plain ∧ (s.circuit 1).state.transfers = true ∧
      RingAreaLaw (s.circuit 1)) ∧ hasRoom (s.circuit 1) ∧ (s.circuit 1).firstGap = none := by decide +kernel

/-- An ack of U, of N, and of neither. -/
theorem witness_AcksMoveTheSendSide :
    let s := withOne hearing { openCircuit with nextSeq := 2 }
    (∀ f ∈ [toOne 0 0 4 [], toOne 0 2 4 [], toOne 0 3 4 []],
      MemoryLaw s ∧ hears .ack f s ∧ reaches f s ∧ (s.circuit 1).state.transfers = true) ∧
    bringsProgress (s.circuit 1) 2 ∧ ¬bringsProgress (s.circuit 1) 3 ∧ ¬bringsProgress (s.circuit 1) 0 := by decide +kernel

/-- A circuit that listens for service 9 from any station. -/
def listener : Circuit :=
  { openCircuit with state := .listening, peer := 31, peerCircuit := none, peerTag := none, service := 9, inFlight := some (.listenR, 2) }

theorem witness_ListenerTakesTheCall :
    let s := withOne hearing listener
    let f := toOne 6 0 4 [9, 0]
    (MemoryLaw s ∧ hears .call f s ∧ s.station.state = .active ∧ noneHolds s f ∧ listensTo (s.circuit 1) f = true ∧
      (s.circuit 1).mode = callerMode f ∧
      (∀ d, d < (1 : CircuitNo) → listensTo (s.circuit d) f = false ∨ (s.circuit d).mode ≠ callerMode f)) ∧
    (hears .call f { s with station.state := .joining }) := by decide +kernel

theorem witness_RepeatedAndStaleCalls :
    let s := withOne hearing openCircuit
    (∀ f ∈ [toOne 4 0 4 [9, 0], toOne 5 0 4 [9, 0]],
      MemoryLaw s ∧ hears .call f s ∧ s.station.state = .active ∧ holdsFrame (s.circuit 1) f = true) ∧
    (s.circuit 1).peerTag = some 4 := by decide +kernel

/-- A circuit that holds the call of an earlier tag, beside a listener of one mode. -/
def holderBeside (m : CircuitMode) : State := (withOne hearing openCircuit).updCircuit 2 fun _ => { listener with mode := m }

/-- A stale CALL that finds a listener, in its mode and in the other. -/
theorem witness_StaleCallsFindAListener :
    PairLaw (holderBeside .assured) ∧ PairLaw (holderBeside .plain) ∧
    holdsFrame ((holderBeside .assured).circuit 1) (toOne 5 0 4 [9, 0]) = true ∧
    holdsFrame ((holderBeside .plain).circuit 1) (toOne 5 0 4 [9, 0]) = true ∧
    listensTo ((holderBeside .assured).circuit 2) (toOne 5 0 4 [9, 0]) = true ∧
    listensTo ((holderBeside .plain).circuit 2) (toOne 5 0 4 [9, 0]) = true :=
  ⟨by decide +kernel, by decide +kernel, by decide +kernel⟩

/-- Nothing listens, and a circuit listens in the other mode. -/
theorem witness_CallWithoutAListenerIsRefused :
    (∀ s ∈ [hearing, withOne hearing listener], MemoryLaw s ∧ hears .call (toOne 6 0 0 [9, 1]) s ∧ s.station.state = .active ∧
      noneHolds s (toOne 6 0 0 [9, 1]) ∧
      (∀ c, listensTo (s.circuit c) (toOne 6 0 0 [9, 1]) = false ∨ (s.circuit c).mode ≠ callerMode (toOne 6 0 0 [9, 1]))) ∧
    listensTo ((withOne hearing listener).circuit 1) (toOne 6 0 0 [9, 1]) = true := by decide +kernel

theorem witness_AnswerOpensAndRefuseFrees :
    let s := withOne hearing { openCircuit with
      state := .calling, peerCircuit := none, peerTag := none, inFlight := some (.openR, 2), callOwed := true }
    (∀ f ∈ [toOne 9 0 32 [], toOne 8 0 0 []], MemoryLaw s ∧ hears .answer f s ∧ f.dstCircuit.val < s.station.circuitCount ∧
      (s.circuit f.dstCircuit).state = .calling ∧ (s.circuit f.dstCircuit).peer = f.src) ∧
    (∀ f ∈ [toOne 9 0 0 [1], toOne 9 0 0 [2]], hears .refuse f s ∧ f.dstCircuit.val < s.station.circuitCount ∧
      (s.circuit f.dstCircuit).callTag = f.seq) := by decide +kernel

/-- The peer circuit an ANSWER names is held by another circuit that drains and owes a CONFIRM. -/
def answeredBeside : State :=
  (withOne hearing { openCircuit with
    state := .calling, peerCircuit := none, peerTag := none, inFlight := some (.openR, 2), callOwed := true }).updCircuit 2
      fun _ => { openCircuit with state := .draining, controlOwed := some .confirm }

theorem witness_AnswerLosesTheHolder :
    PairLaw answeredBeside ∧ (answeredBeside.circuit 1).state = .calling ∧
    holdsFrame (answeredBeside.circuit 2) (toOne 9 0 32 []) = true :=
  ⟨by decide +kernel, by decide +kernel⟩

theorem witness_PeerClearAndConfirmEndTheCircuit :
    let f := toOne 0 0 0 []
    (∀ st ∈ [CircuitState.opened, .draining, .clearing, .ended], let s := withOne hearing { openCircuit with state := st }
      MemoryLaw s ∧ hears .clear f s ∧ reaches f s ∧ (s.circuit f.dstCircuit).state = st) ∧
    hears .confirm f (withOne hearing { openCircuit with state := .clearing }) := by decide +kernel

theorem witness_StrayAndDiscardedFrames :
    let s := withOne hearing openCircuit
    let ended := withOne hearing { openCircuit with state := .ended, endCause := .lostRetries }
    let stray : Frame := { toOne 0 0 0 [] with dstCircuit := 4 }
    (∀ k ∈ [Kind.data, .ack, .answer, .clear, .confirm], k ≠ .call ∧ k ≠ .roll ∧ MemoryLaw s ∧ hears k stray s ∧
      isStray s stray = true) ∧
    hears .refuse { stray with payload := [1] } s ∧
    (hears .data (toOne 0 0 0 []) ended ∧ (ended.circuit 1).state = .ended ∧ (ended.circuit 1).endCause ≠ .peerCleared) ∧
    (hears .answer (toOne 0 0 0 []) s ∧ isStray s (toOne 0 0 0 []) = false ∧
      discards (s.circuit 1) .answer (toOne 0 0 0 []) = true) := by decide +kernel

/-- The last clause, at both ends of the addresses, with the circuit that the frame would reach at the own address OPEN. -/
theorem witness_StrayAndDiscardedFrames_elsewhere :
    MemoryLaw (withOne hearing openCircuit) ∧
    ∀ k ∈ [Kind.data, .answer, .clear], ∀ dst ∈ [(0 : Address), 30],
      k ≠ .roll ∧ hearsFrom k { toOne 0 0 0 [] with dst := dst } (withOne hearing openCircuit) ∧
      (withOne hearing openCircuit).roster.isPresent 7 = true ∧ dst ≠ (withOne hearing openCircuit).station.address := by
  decide +kernel

theorem witness_TurnIsMadeOnceAndPassesUnused :
    ¬atPosition hearing.arbiter ∧
    (atPosition active.arbiter ∧ active.station.state = .active ∧ noCall active ∧
      active.selector.rollOwed = false ∧
      ∀ c, resendOf (active.circuit c) = none ∧ maySend (active.circuit c) = false ∧ owesAck (active.circuit c) = false) ∧
    turnReady { active with station.state := .joining, selector.rollOwed := true } := by decide +kernel

/-- A control frame owed, an orphan entry of each kind, and a CALL owed. -/
theorem witness_TurnSendsControlThenOrphanThenCall :
    let control := withOne active { openCircuit with controlOwed := some .answer }
    let call := withOne active { openCircuit with state := .calling, callOwed := true }
    (turnReady control ∧ control.station.state = .active ∧ (∀ d, d < (1 : CircuitNo) → controlOf (control.circuit d) = none) ∧
      ControlKind.answer ∈ controlOf (control.circuit 1)) ∧
    (∀ r ∈ [Reply.refuse 6 .noListener, .clear 1, .confirm 1],
      let s : State := { active with orphans.entries := [⟨7, 3, r, false⟩] }
      turnReady s ∧ (∀ c, controlOf (s.circuit c) = none) ∧ (⟨7, 3, r, false⟩ : Orphan) ∈ s.orphans.entries.head?) ∧
    (turnReady call ∧ noControl call ∧ owesCall (call.circuit 1) = true ∧
      (∀ d, d < (1 : CircuitNo) → owesCall (call.circuit d) = false)) := by decide +kernel

/-- A resend, a new segment with the rotation pointer past it, an ACK owed, and a ROLL owed, with the slot at the longest length. -/
theorem witness_TurnSendsDataThenAckThenRoll :
    let resend := (withOne active { openCircuit with nextSeq := 1, resendPoint := some 0 }).poke 0x1000 252
    let new : State := { (withOne active openCircuit).poke 0x1000 252 with selector.pointer := 2 }
    let ack := withOne active { openCircuit with postedCopy := 0, ackOwed := true }
    let roll : State := { active with selector.rollOwed := true }
    (turnReady resend ∧ noCall resend ∧ (∀ d, d < (1 : CircuitNo) → resendOf (resend.circuit d) = none) ∧
      (0 : Seq) ∈ resendOf (resend.circuit 1) ∧ (resend.peek (sendSlot (resend.circuit 1) 0)).toNat ≤ 252) ∧
    (turnReady new ∧ noCall new ∧ (∀ d, resendOf (new.circuit d) = none) ∧ (1 : CircuitNo).val < new.station.circuitCount ∧
      maySend (new.circuit 1) = true ∧
      (∀ d : CircuitNo, d.val < new.station.circuitCount → rotationRank new d < rotationRank new 1 →
        maySend (new.circuit d) = false) ∧
      (new.peek (sendSlot (new.circuit 1) (new.circuit 1).nextSeq)).toNat ≤ 252) ∧
    (turnReady ack ∧ noCall ack ∧ (∀ d, resendOf (ack.circuit d) = none ∧ maySend (ack.circuit d) = false) ∧
      owesAck (ack.circuit 1) = true ∧ (∀ d, d < (1 : CircuitNo) → owesAck (ack.circuit d) = false)) ∧
    (turnReady roll ∧ noCall roll ∧
      (∀ d, resendOf (roll.circuit d) = none ∧ maySend (roll.circuit d) = false ∧ owesAck (roll.circuit d) = false) ∧
      roll.selector.rollOwed = true) := by decide +kernel

theorem witness_BadSlotLengthLosesTheCircuit :
    let resend := (withOne active { openCircuit with nextSeq := 1, resendPoint := some 0 }).poke 0x1000 253
    let new := (withOne active openCircuit).poke 0x1000 253
    (MemoryLaw resend ∧ turnReady resend ∧ resend.station.state = .active ∧ resend.selector.inFlight = none ∧ noCall resend ∧
      (∀ d, d < (1 : CircuitNo) → resendOf (resend.circuit d) = none) ∧ (0 : Seq) ∈ resendOf (resend.circuit 1) ∧
      252 < (resend.peek (sendSlot (resend.circuit 1) 0)).toNat) ∧
    (MemoryLaw new ∧ turnReady new ∧ noCall new ∧ (∀ d, resendOf (new.circuit d) = none) ∧ maySend (new.circuit 1) = true ∧
      (∀ d : CircuitNo, d.val < new.station.circuitCount → rotationRank new d < rotationRank new 1 →
        maySend (new.circuit d) = false) ∧
      252 < (new.peek (sendSlot (new.circuit 1) (new.circuit 1).nextSeq)).toNat) := by decide +kernel

theorem witness_SentReportReachesEveryOwner :
    let s := sending (flightOf .newData .data ⟨none, false, true, false⟩)
    let roll : State := { sending (rollOf active) with station.state := .joining }
    (MemoryLaw s ∧ s.line.state = .sending ∧ s.arbiter.state = .busy ∧ s.station.loop = false ∧ s.station.address ≠ 31 ∧
      s.selector.inFlight.isSome = true) ∧
    (MemoryLaw roll ∧ roll.line.state = .sending ∧ roll.arbiter.state = .busy ∧ rollOf active ∈ roll.selector.inFlight) := by
  decide +kernel

theorem witness_LoopedCopyReachesOnlyTheCircuits :
    let s : State := { sending (flightOf .ack .ack ⟨none, false, true, false⟩) with station.loop := true }
    (s.line.state = .sending ∧ s.station.loop = true ∧ s.selector.inFlight.isSome = true) ∧
    (keepsRules .ack (toOne 0 0 0 []) = true ∧ (toOne 0 0 0 []).dst ≠ ({ active with station.address := 6 } : State).station.address) ∧
    keepsRules .roll { toOne 0 0 0 [0, 0, 0, 0x7F] with dst := 31 } = true ∧
    (keepsRules .call { toOne 6 0 4 [9, 0] with src := 5 } = true ∧ s.station.address = 5) := by decide +kernel

theorem witness_CollidedReportRestoresAndMutes :
    let s : State := { stopped (flightOf .ack .ack ⟨none, false, true, true⟩) with arbiter.collisions := 14 }
    let t : State := { s with arbiter.collisions := 15 }
    (MemoryLaw s ∧ s.line.state = .stopped ∧ s.arbiter.state = .busy ∧ s.arbiter.collisions < 15 ∧
      s.selector.inFlight.isSome = true) ∧
    (t.line.state = .stopped ∧ t.selector.inFlight ≠ none ∧ t.arbiter.state = .busy ∧ t.station.state = .active) := by
  decide +kernel

theorem witness_MutingLosesEveryCircuit :
    let s : State := { active with arbiter.collisions := 16 }
    MemoryLaw s ∧ s.station.state = .active ∧ s.arbiter.collisions = 16 := by decide +kernel

theorem witness_AgedOutPeerIsRemovedWithItsCircuits :
    MemoryLaw active ∧ active.station.state.receives = true ∧ (7 : Address) ≠ active.station.address ∧
    active.roster.isPresent 7 = true ∧ 262144 ≤ (active.roster.entry (7 : Address).toNat).age := by decide +kernel

theorem witness_StationTimersExpire :
    let joining : State := { active with station.state := .joining, station.joinTimer := some 65536 }
    let muted : State := { active with station.state := .muted, station.muteTimer := some 262144 }
    (active.station.state = .active ∧ 32768 ≤ ({ active with roster.silence := 32768 } : State).roster.silence) ∧
    (joining.station.state = .joining ∧ 65536 ≤ joining.station.joinTimer.getD 0) ∧
    (MemoryLaw muted ∧ muted.station.state = .muted ∧ 262144 ≤ muted.station.muteTimer.getD 0) := by decide +kernel

theorem witness_CallAndClearRetriesRunOut :
    ∀ st ∈ [CircuitState.calling, .clearing], ∀ n ∈ [3, 4],
      let s := withOne active { openCircuit with state := st, sendCount := n, retryTimer := some 131072 }
      MemoryLaw s ∧ (s.circuit 1).state = st ∧ 131072 ≤ (s.circuit 1).retryTimer.getD 0 ∧ (s.circuit 1).sendCount = n := by decide +kernel

theorem witness_DataRetriesAndProbesRunOut :
    (∀ n ∈ [5, 6], let s := withOne active { openCircuit with nextSeq := 1, dataRetryTimer := some 131072, dataRetryCount := n }
      MemoryLaw s ∧ (s.circuit 1).mode = .assured ∧ (s.circuit 1).state.transfers = true ∧
      131072 ≤ (s.circuit 1).dataRetryTimer.getD 0) ∧
    ((withOne active { openCircuit with limit := 0, probeTimer := some 131072 }).circuit 1).stalled = true := by decide +kernel

theorem witness_IdleAndQualityTimersRunOut :
    let s := withOne active { openCircuit with rxIdleTimer := some 16384, rxFill := 1 }
    (MemoryLaw s ∧ 16384 ≤ (s.circuit 1).rxIdleTimer.getD 0 ∧ 0 < span (s.circuit 1).releaseCopy (s.circuit 1).rxFill) ∧
    (active.quality.params = some ⟨0, 2, 8⟩ ∧ 65536 * 2 ^ 0 ≤ active.quality.windowTimer.getD 0) ∧
    State.reset.quality.params = none := by decide +kernel

theorem witness_FramesSurviveTheLine :
    keepsRules .data ⟨30, 0, true, false, 15, 15, 63, 63, 32, List.replicate 252 0xFF⟩ = true ∧
    keepsRules .ack { toOne 63 63 32 [] with poll := true } = true ∧ keepsRules .call (toOne 63 0 32 [0xFF, 1]) = true ∧
    keepsRules .answer (toOne 0 0 0 []) = true ∧ keepsRules .refuse (toOne 0 0 0 [2]) = true ∧
    keepsRules .clear (toOne 0 0 0 []) = true ∧ keepsRules .confirm (toOne 0 0 0 []) = true ∧
    keepsRules .roll { toOne 0 0 0 [0xFF, 0xFF, 0xFF, 0x7F] with dst := 31 } = true := by decide +kernel

theorem witness_WorkLeavesHostMemoryAlone :
    (∀ c, RingAreaLaw ((withOne active openCircuit).circuit c)) ∧ Instr.lineSettled.wellFormed = true ∧
    ((Instr.dataReceived (toOne 0 0 0 [])).wellFormed = true) ∧
    (isControlRow .lineSettled = false ∧ isControlRow .go = true ∧ openWrites (withOne active openCircuit) = false) := by
  decide +kernel

/-- A station at work on a circuit. -/
def atWork : State := withOne active openCircuit

theorem witness_StepsKeepTheLaws :
    (MemoryLaw atWork ∧ ∀ c, RingAreaLaw (atWork.circuit c)) ∧ OrphanLaw atWork ∧ RequestLaw atWork ∧ AttentionLaw atWork ∧
    IrqLaw atWork ∧ PathLaw atWork ∧ TimerLaw atWork ∧ LandedLaw { later with landed := 2 } :=
  ⟨by decide +kernel, by decide +kernel, by decide +kernel, by decide +kernel, by decide +kernel, by decide +kernel, by decide +kernel,
    by decide +kernel⟩

theorem witness_StepsKeepTheCircuitLaws :
    (PresenceLaw atWork ∧ OwnFrameLaw { sending (flightOf .ack .ack ⟨none, false, true, false⟩) with line.driven := [0x27, 5] }) ∧
    AgeLaw atWork ∧ InFlightLaw atWork ∧ PairLaw atWork ∧ TransferLaw atWork :=
  ⟨by decide +kernel, by decide +kernel, by decide +kernel, by decide +kernel, by decide +kernel⟩

end Sys2Proof.Tests
end

