-- ==== Sys2Proof/Proofs/TakingTurns.lean ====
section
/-! PROOFS. Taking turns on the trunk (Chapter 3): the positions of compressed and full rounds. -/

namespace Sys2Proof.Proofs

open Sys2Proof Sys2Proof.Machine Sys2Proof.Claims

/-! ## The ascending rotation from B -/

/-- Address 31 is the only address that names no station (R22). -/
theorem toNat_lt_31 {base : Address} (h : base ≠ 31) : base.toNat < 31 := by bv_omega

theorem rotation_eq (base : Address) (a : Nat) : rotation base a = (a + 30 - base.toNat) % 31 := rfl

theorem rotation_lt (base : Address) (a : Nat) : rotation base a < 31 := Nat.mod_lt _ (by decide)

/-- B comes last in its own rotation (R42). -/
theorem rotation_base (base : Address) : rotation base base.toNat = 30 := by
  rw [rotation_eq, Nat.add_sub_cancel_left]

/-- An address is found again by going up from B + 1 by its rotation. -/
theorem rotation_add_base {base : Address} (h : base ≠ 31) {a : Nat} (ha : a < 31) :
    (rotation base a + base.toNat + 1) % 31 = a := by
  have hb := toNat_lt_31 h
  rw [rotation_eq]
  omega

theorem rotation_injective {base : Address} (h : base ≠ 31) {a b : Nat} (ha : a < 31) (hb : b < 31)
    (hab : rotation base a = rotation base b) : a = b := by
  rw [← rotation_add_base h ha, hab, rotation_add_base h hb]

/-- Every address but B comes before B. -/
theorem rotation_lt_30_iff {base : Address} (h : base ≠ 31) {m : Nat} (hm : m < 31) :
    rotation base m < 30 ↔ m ≠ base.toNat := by
  have hlast : rotation base m = 30 ↔ m = base.toNat :=
    ⟨fun e => rotation_injective h hm (toNat_lt_31 h) (e.trans (rotation_base base).symm), fun e => e ▸ rotation_base base⟩
  have := rotation_lt base m
  rw [ne_eq, ← hlast]
  omega

/-- To have the smaller rotation is to lie strictly after B and strictly before `a`, going up with 0 after 30 (R41). -/
theorem rotation_lt_iff_strictlyBetween {base : Address} (h : base ≠ 31) {m a : Nat} (hm : m < 31) (ha : a < 31) :
    rotation base m < rotation base a ↔ strictlyBetween base m a = true := by
  have hb := toNat_lt_31 h
  rw [rotation_eq, rotation_eq, strictlyBetween]
  split <;> simp only [decide_eq_true_eq] <;> omega

/-! ## The members of a round -/

theorem mem_allAddresses {a : Nat} : a ∈ allAddresses ↔ a < 31 := List.mem_range

/-- The addresses whose entry in the roster is present, in ascending order. -/
def members (r : Roster) : List Nat := allAddresses.filter fun m => (r.entry m).present

theorem mem_members {r : Roster} {a : Nat} : a ∈ members r ↔ a < 31 ∧ (r.entry a).present = true := by
  rw [members, List.mem_filter, mem_allAddresses]

theorem members_nodup (r : Roster) : (members r).Nodup := List.nodup_range.filter _

/-- The roster's entries are those of the addresses 0 to 30, in order (R21). -/
theorem entries_toList (r : Roster) : r.entries.toList = allAddresses.map r.entry := by
  refine List.ext_getElem (by simp [allAddresses]) fun i hi _ => ?_
  have hlt : i < 31 := by simpa using hi
  simp [allAddresses, Roster.entry, hlt, Vector.get]

/-- A compressed round has as many positions as members (R41). -/
theorem size_eq_length_members (r : Roster) : r.size = (members r).length := by
  rw [Roster.size, entries_toList, List.countP_map, List.countP_eq_length_filter]
  rfl

/-- The compressed position counts the members with a smaller rotation (R41). -/
theorem compressedPosition_eq (r : Roster) (base : Address) (a : Nat) :
    r.compressedPosition base a = ((members r).filter fun m => rotation base m < rotation base a).length := by
  rw [Roster.compressedPosition, members, List.filter_filter]
  simp only [Bool.and_comm]

/-- The compressed position of a member is below the number of members: the member does not come before itself. -/
theorem compressedPosition_lt_length {r : Roster} (base : Address) {a : Nat} (ha : a ∈ members r) :
    r.compressedPosition base a < (members r).length := by
  rw [compressedPosition_eq]
  exact List.length_filter_lt_length_iff_exists.mpr ⟨a, ha, by simp⟩

/-- Compressed positions rise with the rotation: what comes before `a` comes before `b`, and `a` does as well. -/
theorem compressedPosition_lt {r : Roster} {base : Address} {a b : Nat} (ha : a ∈ members r)
    (hab : rotation base a < rotation base b) : r.compressedPosition base a < r.compressedPosition base b := by
  have hsub : ((members r).filter fun m => rotation base m < rotation base a) =
      ((members r).filter fun m => rotation base m < rotation base b).filter fun m => rotation base m < rotation base a := by
    rw [List.filter_filter]
    refine List.filter_congr fun m _ => ?_
    simpa using fun hm : rotation base m < rotation base a => hm.trans hab
  rw [compressedPosition_eq, compressedPosition_eq, hsub]
  exact List.length_filter_lt_length_iff_exists.mpr ⟨a, List.mem_filter.mpr ⟨ha, by simpa using hab⟩, by simp⟩

/-- No two members share a compressed position. -/
theorem compressedPosition_injective {r : Roster} {base : Address} (h : base ≠ 31) {a b : Nat} (ha : a ∈ members r)
    (hb : b ∈ members r) (hab : r.compressedPosition base a = r.compressedPosition base b) : a = b := by
  refine rotation_injective h (mem_members.mp ha).1 (mem_members.mp hb).1 ?_
  obtain hlt | heq | hgt := lt_trichotomy (rotation base a) (rotation base b)
  · exact absurd hab (compressedPosition_lt ha hlt).ne
  · exact heq
  · exact absurd hab (compressedPosition_lt hb hgt).ne'

/-- B, if it is a member, holds the last compressed position: every other member comes before it. -/
theorem compressedPosition_base {r : Roster} {base : Address} (h : base ≠ 31) (hmem : base.toNat ∈ members r) :
    r.compressedPosition base base.toNat + 1 = (members r).length := by
  have hothers : ((members r).filter fun m => rotation base m < rotation base base.toNat) = (members r).erase base.toNat := by
    rw [(members_nodup r).erase_eq_filter, rotation_base]
    refine List.filter_congr fun m hm => ?_
    rw [Bool.eq_iff_iff, decide_eq_true_eq, bne_iff_ne, rotation_lt_30_iff h (mem_members.mp hm).1]
  rw [compressedPosition_eq, hothers]
  exact List.length_erase_add_one hmem

/-- The compressed position counts the members strictly after B and strictly before the address (R41). -/
theorem compressedPosition_eq_strictlyBetween (r : Roster) {base : Address} (h : base ≠ 31) {a : Nat} (ha : a < 31) :
    r.compressedPosition base a = (allAddresses.filter fun m => (r.entry m).present && strictlyBetween base m a).length := by
  refine congrArg List.length (List.filter_congr fun m hm => ?_)
  rw [Bool.eq_iff_iff.mpr (decide_eq_true_iff.trans (rotation_lt_iff_strictlyBetween h (mem_allAddresses.mp hm) ha))]

/-! ## Both modes -/

/-- Settles O23: the full clauses are facts about the rotation, the compressed ones about the members in its order. -/
theorem positionsFollowTheRotation : Obligations.PositionsFollowTheRotation := by
  intro r base h
  refine ⟨⟨rfl, fun a ha => ⟨rotation_add_base h ha, rotation_lt base a⟩, rotation_base base,
    fun a b ha hb => rotation_injective h ha hb, fun _ _ => rfl⟩, size_eq_length_members r, ?_, ?_, ?_, ?_⟩
  · intro a ha _ _
    exact compressedPosition_eq_strictlyBetween r h ha
  · intro a ha hp
    exact (compressedPosition_lt_length base (mem_members.mpr ⟨ha, hp⟩)).trans_eq (size_eq_length_members r).symm
  · intro a b ha hb hpa hpb
    exact compressedPosition_injective h (mem_members.mpr ⟨ha, hpa⟩) (mem_members.mpr ⟨hb, hpb⟩)
  · intro hp
    exact (compressedPosition_base h (mem_members.mpr ⟨toNat_lt_31 h, hp⟩)).trans (size_eq_length_members r).symm

end Sys2Proof.Proofs
end

