-- ==== Sys2Proof/Proofs/CircuitsAndCallSetup.lean ====
section
/-! PROOFS. Circuits and call setup (Chapter 4): a good frame from its bytes to the Circuit Table, the orphan list, and the refusal of
a CALL that no circuit listens for. -/

namespace Sys2Proof.Proofs

open Sys2Proof Sys2Proof.Machine Sys2Proof.Claims Sys2Proof.Safety Sys2Proof.Laws Sys2Proof.Laws.FrameLength

/-! ## The bytes of a built frame -/

theorem ofCode_code (k : Kind) : Kind.ofCode k.code = k := by cases k <;> rfl

theorem kindOf_frameBytes (k : Kind) (f : Frame) : kindOf (frameBytes k f) = k :=
  (congrArg Kind.ofCode BitVec.extractLsb'_append_eq_left).trans (ofCode_code k)

theorem sourceOf_frameBytes (k : Kind) (f : Frame) : sourceOf (frameBytes k f) = f.src := BitVec.extractLsb'_append_eq_right

/-- The two marks of byte 1 and the zero bit above them (R5). -/
theorem marks_frameBytes (k : Kind) (f : Frame) :
    (byteAt (frameBytes k f) 1).getLsbD 5 = f.endMark ∧ (byteAt (frameBytes k f) 1).getLsbD 6 = f.poll ∧
    (byteAt (frameBytes k f) 1).getLsbD 7 = false := by
  have hbit (i : Nat) : (byteAt (frameBytes k f) 1).getLsbD i =
      ((0 : BitVec 1) ++ BitVec.ofBool f.poll ++ BitVec.ofBool f.endMark ++ f.src).getLsbD i := rfl
  simp only [hbit, BitVec.getLsbD_append]
  simp

theorem circuits_frameBytes (k : Kind) (f : Frame) :
    Fin.ofNat 16 ((byteAt (frameBytes k f) 2).extractLsb' 0 4).toNat = f.dstCircuit ∧
    Fin.ofNat 16 ((byteAt (frameBytes k f) 2).extractLsb' 4 4).toNat = f.srcCircuit := by
  have hbyte : byteAt (frameBytes k f) 2 = BitVec.ofNat 4 f.srcCircuit.val ++ BitVec.ofNat 4 f.dstCircuit.val := rfl
  rw [hbyte, BitVec.extractLsb'_append_eq_right, BitVec.extractLsb'_append_eq_left]
  exact ⟨Fin.ext (by simp), Fin.ext (by simp)⟩

theorem payload_frameBytes (k : Kind) (f : Frame) :
    ((frameBytes k f).drop 7).take ((frameBytes k f).length - 9) = f.payload := by
  rw [frameBytes_length, Nat.add_sub_cancel_left]
  exact List.take_left

theorem parseFrame_frameBytes (k : Kind) (f : Frame) : parseFrame (frameBytes k f) = f := by
  obtain ⟨hend, hpoll, -⟩ := marks_frameBytes k f
  obtain ⟨hdst, hsrc⟩ := circuits_frameBytes k f
  rw [parseFrame, sourceOf_frameBytes, hend, hpoll, hdst, hsrc, payload_frameBytes]
  cases f
  exact Frame.mk.injEq .. ▸ ⟨BitVec.extractLsb'_append_eq_right, rfl, rfl, rfl, rfl, rfl, BitVec.extractLsb'_append_eq_right,
    BitVec.extractLsb'_append_eq_right, BitVec.extractLsb'_append_eq_right, rfl⟩

theorem headerZeroBits_frameBytes (k : Kind) (f : Frame) : headerZeroBits (frameBytes k f) = true := by
  obtain ⟨-, -, hmarks⟩ := marks_frameBytes k f
  have hzero (v : Seq) : (((0 : BitVec 2) ++ v).extractLsb' 6 2 == 0) = true :=
    beq_iff_eq.mpr BitVec.extractLsb'_append_eq_left
  simp only [headerZeroBits, hmarks, Bool.and_eq_true]
  exact ⟨⟨⟨rfl, hzero f.seq⟩, hzero f.ack⟩, hzero f.credit⟩

theorem frameBytes_length_eq_frameBody (k : Kind) (f : Frame) : (frameBytes k f).length = (frameBody k f).length + 2 :=
  List.length_append

theorem frameBytes_take (k : Kind) (f : Frame) : (frameBytes k f).take ((frameBytes k f).length - 2) = frameBody k f := by
  rw [frameBytes_length_eq_frameBody, Nat.add_sub_cancel]
  exact List.take_left

theorem halfOf_bytes (v : Half) : halfOf (highByte v) (lowByte v) = v :=
  (BitVec.extractLsb'_append_extractLsb'_eq_extractLsb' (by decide)).trans BitVec.extractLsb'_eq_self

/-- The two bytes after the body are its check, high byte first (R5). -/
theorem check_frameBytes (k : Kind) (f : Frame) :
    halfOf (byteAt (frameBytes k f) ((frameBytes k f).length - 2)) (byteAt (frameBytes k f) ((frameBytes k f).length - 1)) =
      checkOf (frameBody k f) := by
  rw [frameBytes_length_eq_frameBody, frameBytes, withCheck, byteAt, byteAt, List.getD_append_right _ _ _ _ (by omega),
    List.getD_append_right _ _ _ _ (by omega)]
  simp [halfOf_bytes]

/-- A built frame is not damaged (R7). -/
theorem countAndCheckFit_frameBytes {k : Kind} {f : Frame} (h : keepsRules k f = true) :
    countAndCheckFit (frameBytes k f) = true := by
  obtain ⟨h9, h261⟩ := good_length k f h
  have hlength : (frameBytes k f).length = 9 + (byteAt (frameBytes k f) 6).toNat := by
    have : byteAt (frameBytes k f) 6 = BitVec.ofNat 8 f.payload.length := rfl
    rw [frameBytes_length] at h261 ⊢
    rw [this, BitVec.toNat_ofNat]
    omega
  simp [countAndCheckFit, h9, Config.frameRoom, h261, ← hlength, check_frameBytes, frameBytes_take]

/-- Classing the bytes of a frame that keeps the rules of its kind gives the frame back (R7, R8). -/
theorem classify_frameBytes {k : Kind} {f : Frame} (h : keepsRules k f = true) :
    classify false (frameBytes k f) = .good k f := by
  simp [classify, countAndCheckFit_frameBytes h, headerZeroBits_frameBytes, kindOf_frameBytes, parseFrame_frameBytes, h]

/-! ## Reads of the window -/

theorem sameWindow_trans {s t u : State} {offs offs' : List Nat} (h : sameWindow s t offs) (g : sameWindow t u offs') :
    sameWindow s u (offs ++ offs') := by
  intro a ha hout
  rw [List.mem_append, not_or] at hout
  exact (g a ha hout.2).trans (h a ha hout.1)

theorem showsDrops_congr {s u t : State} (hdrops : u.orphans.drops = s.orphans.drops) (hlow : u.peek 0x30 = s.peek 0x30)
    (hhigh : u.peek 0x31 = s.peek 0x31) (h : showsDrops u t) : showsDrops s t := by
  rwa [showsDrops, hdrops, hlow, hhigh] at h

/-! ## Rounds -/

/-- A round begins as the statements say it (R38, R41, R42, R46). -/
theorem beginRound_eq_roundBegun (s : State) : s.beginRound = { s with arbiter := roundBegun s s.arbiter } := by
  have hmode : s.nextMode = if s.arbiter.fullNext = true ∨ s.quality.level = .poor then .full else .compressed := by
    simp [State.nextMode]
  have hpos : s.roster.compressedPosition = membersBefore s.roster := rfl
  have hsize : s.roster.size = (allAddresses.filter fun m => (s.roster.entry m).present).length :=
    size_eq_length_members s.roster
  by_cases hfull : s.arbiter.fullNext = true ∨ s.quality.level = .poor
  · simp [State.beginRound, roundBegun, hmode, hfull, Roster.positionsIn, Roster.positionIn, rotation_eq, stepsFrom]
  · simp [State.beginRound, roundBegun, hmode, hfull, Roster.positionsIn, Roster.positionIn, hsize, hpos]

/-- A frame end in BUSY takes its source as B and begins a round (R38, R40). -/
theorem frameEnd_eq_roundBegun {s : State} {a : Address} (hbusy : s.arbiter.state = .busy) (ha : a ≠ 31) :
    s.frameEnd (some a) = { s with arbiter := roundBegun s { s.arbiter with base := a } } := by
  rw [State.frameEnd, if_pos hbusy, beginRound_eq_roundBegun, nextBase, if_neg ha]
  rfl

/-- A frame end reaches the Turn Arbiter alone. -/
theorem frameEnd_eq (s : State) (source : Option Address) :
    s.frameEnd source = { s with arbiter := (s.frameEnd source).arbiter } := by
  unfold State.frameEnd
  split <;> rfl

/-! ## A good frame from a present peer -/

/-- A peer's address is not 31 (R8). -/
theorem src_ne_31 {k : Kind} {f : Frame} (h : keepsRules k f = true) : f.src ≠ 31 := by
  simp only [keepsRules, Bool.and_eq_true, bne_iff_ne] at h
  obtain ⟨⟨⟨⟨-, hsrc⟩, -⟩, -⟩, -⟩ := h
  exact hsrc

theorem setEntry_of_ne_31 {r : Roster} {a : Address} (ha : a ≠ 31) (e : RosterEntry) :
    r.setEntry a e = { r with entries := r.entries.set a.toNat e (toNat_lt_31 ha) } := dif_pos (toNat_lt_31 ha)

theorem entry_setEntry {r : Roster} {a : Address} (ha : a ≠ 31) (e : RosterEntry) {b : Nat} (hb : b < 31) :
    (r.setEntry a e).entry b = if b = a.toNat then e else r.entry b := by
  simp [setEntry_of_ne_31 ha, Roster.entry, hb, Vector.get_eq_getElem, Vector.getElem_set, eq_comm]

theorem rosterSource_of_present {s : State} {a : Address} (h31 : a ≠ 31) (hown : a ≠ s.station.address)
    (hpresent : s.roster.isPresent a = true) : s.rosterSource a = s.refreshPeer a := by
  rw [State.rosterSource, if_neg (not_or.mpr ⟨h31, hown⟩), if_pos hpresent]

theorem duplicate_of_ne {s : State} {a : Address} (hown : a ≠ s.station.address) : s.duplicate a = false := by
  simp [State.duplicate, hown]

/-- The station as the Circuit Table finds it when a good frame from a present peer has ended: the frame stands in the receive buffer
and is counted, and its source is refreshed (R6, R23, R168). -/
def heardFrom (s : State) (k : Kind) (f : Frame) : State :=
  ({ s with line := heardLine s.line (frameBytes k f) } : State).countGood.refreshPeer f.src

theorem heardFrom_eq {s : State} {k : Kind} {f : Frame} (hsrc : f.src ≠ 31) :
    heardFrom s k f = { s with
      line := heardLine s.line (frameBytes k f)
      quality.goodHeard := s.quality.goodHeard + 1
      roster.entries := (heardFrom s k f).roster.entries
      window := (heardFrom s k f).window } := by
  rw [heardFrom, State.refreshPeer, setEntry_of_ne_31 hsrc]
  rfl

/-- A good frame other than a ROLL is counted, refreshes its source, reaches the Circuit Table and begins a round (R12, R23, R38). -/
theorem exec_frameRow {s : State} {k : Kind} {f : Frame} (h : hears k f s) (hk : k ≠ .roll) :
    exec (frameRow k f) s = .next (((heardFrom s k f).tableFrame k f).frameEnd (some f.src)) := by
  obtain ⟨⟨-, hline, -, -, hrules, hown⟩, -, hpresent⟩ := h
  let s1 : State := { s with line := heardLine s.line (frameBytes k f) }
  calc exec (frameRow k f) s
    _ = .next (s.hear false (frameBytes k f)) := by cases k <;> rfl
    _ = .next (s1.goodEnd k f) := by
      rw [State.hear, if_pos hline, classify_frameBytes hrules]
      rfl
    _ = .next (((heardFrom s k f).tableFrame k f).frameEnd (some f.src)) := by
      have hdup : s1.countGood.duplicate f.src = false := duplicate_of_ne hown
      have hroster : s1.countGood.rosterSource f.src = heardFrom s k f :=
        rosterSource_of_present (src_ne_31 hrules) hown hpresent
      simp only [State.goodEnd, hdup, hroster, hk, Bool.false_eq_true, if_false]

/-- Where the Circuit Table leaves the other blocks and the count of good frames alone, the frame end completes what every good frame
does to them (R12, R40). -/
theorem heardBlocks_frameEnd {s v : State} {k : Kind} {f : Frame} (hmem : MemoryLaw s) (h : hears k f s)
    (hv : v = { heardFrom s k f with circuits := v.circuits, orphans := v.orphans, notice := v.notice, window := v.window })
    (hcount : ∀ a ∈ heardBytes, v.peek a = (heardFrom s k f).peek a) : heardBlocks k f s (v.frameEnd (some f.src)) := by
  obtain ⟨⟨-, -, hbusy, -, hrules, -⟩, -, -⟩ := h
  have hsrc := src_ne_31 hrules
  have hroster : v.roster = s.roster.setEntry f.src ⟨true, 0⟩ := by rw [hv]; rfl
  rw [heardFrom_eq hsrc] at hv
  have harb : v.arbiter = s.arbiter := by rw [hv]
  rw [frameEnd_eq_roundBegun (harb ▸ hbusy) hsrc, harb]
  refine ⟨?_, fun a ha => ?_, ?_⟩
  · generalize v.circuits = c, v.orphans = o, v.notice = n, v.window = w at hv
    subst hv
    rfl
  · exact (congrArg (Roster.entry · a) hroster).trans (entry_setEntry hsrc _ ha)
  · have hshown : shows (heardFrom s k f) 0x1E (s.quality.goodHeard + 1) := peek_pokeHalf_same _ _ _ hmem (by decide)
    exact ⟨(hcount _ (by decide)).trans hshown.1, (hcount _ (by decide)).trans hshown.2⟩

theorem heardFrom_sameWindow (s : State) (k : Kind) (f : Frame) : sameWindow s (heardFrom s k f) heardBytes := by
  intro a ha hout
  simp only [heardBytes, List.mem_cons, List.not_mem_nil, or_false, not_or] at hout
  exact peek_pokeHalf_ne _ _ _ _ (by decide) ha hout.1 hout.2

/-! ## The orphan list -/

/-- A duplicate in the list, as the model and the statement look for it (R75). -/
theorem sameKey_eq (o : Orphan) (peer : Address) (peerCircuit : CircuitNo) (reply : Reply) :
    Orphan.sameKey ⟨peer, peerCircuit, reply, false⟩ o =
      (o.peer = peer && o.peerCircuit = peerCircuit && o.reply.kind = reply.kind) := by
  simp only [Orphan.sameKey, beq_eq_decide, eq_comm]

theorem addOrphan_orphans (s : State) (peer : Address) (peerCircuit : CircuitNo) (reply : Reply) :
    (s.addOrphan peer peerCircuit reply).orphans = withOrphan s.station.state s.orphans peer peerCircuit reply := by
  have hroom : Config.orphanRoom ≤ s.orphans.entries.length ↔ s.orphans.entries.length = 4 ∨ 4 < s.orphans.entries.length := by
    simp only [Config.orphanRoom]
    omega
  have hkey : Orphan.sameKey ⟨peer, peerCircuit, reply, false⟩ = fun o =>
      (o.peer = peer && o.peerCircuit = peerCircuit && o.reply.kind = reply.kind : Bool) :=
    funext fun o => sameKey_eq o peer peerCircuit reply
  simp only [State.addOrphan, withOrphan, hkey, hroom, apply_ite State.orphans, pokeHalf_orphans]

/-- An addition to the orphan list reaches the list and the window alone. -/
theorem addOrphan_eq (s : State) (peer : Address) (peerCircuit : CircuitNo) (reply : Reply) :
    s.addOrphan peer peerCircuit reply = { s with
      orphans := (s.addOrphan peer peerCircuit reply).orphans
      window := (s.addOrphan peer peerCircuit reply).window } := by
  obtain h | ⟨-, h⟩ | ⟨-, -, h⟩ := addOrphan_cases s peer peerCircuit reply
  · rw [h]
  · rw [h]
    rfl
  · rw [h]

theorem addOrphan_sameWindow (s : State) (peer : Address) (peerCircuit : CircuitNo) (reply : Reply) :
    sameWindow s (s.addOrphan peer peerCircuit reply) [0x30, 0x31] := by
  intro a ha hout
  simp only [List.mem_cons, List.not_mem_nil, or_false, not_or] at hout
  obtain h | ⟨-, h⟩ | ⟨-, -, h⟩ := addOrphan_cases s peer peerCircuit reply <;> rw [h]
  · exact peek_pokeHalf_ne _ _ _ _ (by decide) ha hout.1 hout.2
  · rfl

theorem addOrphan_showsDrops {s : State} (hmem : MemoryLaw s) (peer : Address) (peerCircuit : CircuitNo) (reply : Reply) :
    showsDrops s (s.addOrphan peer peerCircuit reply) := by
  obtain h | ⟨-, h⟩ | ⟨-, -, h⟩ := addOrphan_cases s peer peerCircuit reply <;> rw [h]
  · exact (if_pos rfl).mpr ⟨rfl, rfl⟩
  · have hdrops : s.orphans.drops + 1 ≠ s.orphans.drops := by simp
    exact (if_neg hdrops).mpr (peek_pokeHalf_same _ _ _ hmem (by decide))
  · exact (if_pos rfl).mpr ⟨rfl, rfl⟩

/-- The whole effect of a good frame of which the Circuit Table adds a reply to the orphan list and does no more (R72, R75, R77). -/
theorem frameRow_adds_orphan {s : State} {k : Kind} {f : Frame} {reply : Reply} (hmem : MemoryLaw s) (h : hears k f s)
    (hk : k ≠ .roll)
    (htable : (heardFrom s k f).tableFrame k f = (heardFrom s k f).addOrphan f.src f.srcCircuit reply) :
    ∃ t, exec (frameRow k f) s = .next t ∧ heardBlocks k f s t ∧ allCircuitsSame s t ∧ t.notice = s.notice ∧
      t.orphans = withOrphan s.station.state s.orphans f.src f.srcCircuit reply ∧ showsDrops s t ∧
      sameWindow s t (heardBytes ++ [0x30, 0x31]) := by
  let u := heardFrom s k f
  let v := u.addOrphan f.src f.srcCircuit reply
  have hheard : sameWindow s u heardBytes := heardFrom_sameWindow s k f
  have hadd : sameWindow u v [0x30, 0x31] := addOrphan_sameWindow u f.src f.srcCircuit reply
  have hcount : ∀ a ∈ heardBytes, v.peek a = u.peek a := by
    simp [heardBytes, hadd 0x1E, hadd 0x1F]
  have hv : v = { u with orphans := v.orphans, window := v.window } := addOrphan_eq u f.src f.srcCircuit reply
  have hcircuits : v.circuits = u.circuits := by rw [hv]
  have hnotice : v.notice = u.notice := by rw [hv]
  have hblocks : heardBlocks k f s (v.frameEnd (some f.src)) :=
    heardBlocks_frameEnd hmem h (by rw [hcircuits, hnotice]; exact hv) hcount
  refine ⟨v.frameEnd (some f.src), (exec_frameRow h hk).trans (by rw [htable]), hblocks, ?_⟩
  rw [frameEnd_eq]
  refine ⟨fun d => congrArg (Vector.get · d) hcircuits, hnotice, addOrphan_orphans u .., ?_, sameWindow_trans hheard hadd⟩
  have hmem' : MemoryLaw u := pokeHalf_wf _ _ _ hmem
  have hdrops : showsDrops u v := addOrphan_showsDrops hmem' f.src f.srcCircuit reply
  exact showsDrops_congr (u := u) rfl (hheard 0x30 (by decide) (by decide)) (hheard 0x31 (by decide) (by decide)) hdrops

/-! ## Calls -/

theorem findCircuit_eq_none {s : State} {p : CircuitNo → Circuit → Bool} :
    s.findCircuit p = none ↔ ∀ c, p c (s.circuit c) = false := by
  have hall (c : CircuitNo) : c ∈ allCircuits := by revert c; decide
  simp [State.findCircuit, List.find?_eq_none, hall]

theorem holdsPair_eq_holdsFrame (k : Circuit) (f : Frame) : k.holdsPair f.src f.srcCircuit = holdsFrame k f := by
  have hlive : k.state.live = stateIn k [.opened, .draining, .clearing] := by
    unfold stateIn
    cases k.state <;> rfl
  simp [Circuit.holdsPair, holdsFrame, hlive, Bool.and_assoc, beq_eq_decide]

theorem listensFor_eq_listensTo (k : Circuit) (f : Frame) : k.listensFor f = listensTo k f := by
  simp [Circuit.listensFor, listensTo, callService, byteAt, Bool.and_assoc, beq_eq_decide]

/-- The reason of the refusal is MODE_MISMATCH exactly where some circuit listens for the service (R72). -/
theorem matchListener_eq_addOrphan {s : State} {f : Frame}
    (h : ∀ c, listensTo (s.circuit c) f = false ∨ (s.circuit c).mode ≠ callerMode f) :
    s.matchListener f = s.addOrphan f.src f.srcCircuit
      (.refuse f.seq (if allCircuits.any (fun c => listensTo (s.circuit c) f) then .modeMismatch else .noListener)) := by
  have hmatch : (s.findCircuit fun _ k => k.listensFor f && k.mode == callMode f) = none := by
    rw [findCircuit_eq_none]
    intro c
    rw [listensFor_eq_listensTo, Bool.and_eq_false_iff, beq_eq_false_iff_ne]
    exact h c
  have hany : (s.findCircuit fun _ k => k.listensFor f).isSome = allCircuits.any fun c => listensTo (s.circuit c) f := by
    simp only [State.findCircuit, listensFor_eq_listensTo]
    rw [Bool.eq_iff_iff, List.find?_isSome, List.any_eq_true]
  rw [State.matchListener, hmatch, ← hany]
  cases s.findCircuit fun _ k => k.listensFor f <;> rfl

/-- A call that no live circuit holds reaches the listener match of an ACTIVE station (R69, R70). -/
theorem tableFrame_call_eq_matchListener {s : State} {f : Frame} (hdst : f.dst = s.station.address)
    (hown : f.src ≠ s.station.address) (hactive : s.station.state = .active) (hnone : noneHolds s f) :
    s.tableFrame .call f = s.matchListener f := by
  have hpair : (s.findCircuit fun _ k => k.holdsPair f.src f.srcCircuit) = none :=
    findCircuit_eq_none.mpr fun c => (holdsPair_eq_holdsFrame _ f).trans (hnone c)
  simp [State.tableFrame, hdst, State.takeCall, hactive, hown, State.answerCall, hpair]

/-- Settles O35: the REFUSE joins the orphan list in the table, between the count of the frame and the round that it begins. -/
theorem callWithoutAListenerIsRefused : Obligations.CallWithoutAListenerIsRefused := by
  intro s f hmem hhears hactive hnone hlisteners
  have ⟨⟨_, _, _, _, _, hown⟩, hdst, _⟩ := hhears
  have hcall : (heardFrom s .call f).tableFrame .call f = (heardFrom s .call f).matchListener f :=
    tableFrame_call_eq_matchListener hdst hown hactive hnone
  exact frameRow_adds_orphan hmem hhears (by decide) (hcall.trans (matchListener_eq_addOrphan hlisteners))

end Sys2Proof.Proofs
end

