-- ==== Sys2Proof/Proofs/ClearingAbortAndLoss.lean ====
section
/-! PROOFS. Clearing, abort and loss of circuits (Chapter 5): the raise of a cause, the taking of a request that passes its checks,
a circuit that goes FREE, and from these the CLOSE of an ENDED circuit and the ABORT. -/

namespace Sys2Proof.Proofs

open Sys2Proof Sys2Proof.Machine Sys2Proof.Claims Sys2Proof.Safety Sys2Proof.Laws

/-! ## Reads of the window -/

theorem sameWindow_mono {s t : State} {offs offs' : List Nat} (h : sameWindow s t offs) (hsub : offs ⊆ offs') :
    sameWindow s t offs' := fun a ha hout => h a ha fun hin => hout (hsub hin)

theorem poke_sameWindow (s : State) {a : Nat} (ha : a < 65536) (v : Byte) : sameWindow s (s.poke a v) [a] :=
  fun x hx hout => peek_poke_ne s a x v ha hx (by simpa using hout)

/-- The records lie in 0x0100 to 0x04FF (R131). -/
theorem recordBase_range (c : CircuitNo) : 0x0100 ≤ recordBase c ∧ recordBase c + 0x40 ≤ 0x0500 := by
  unfold recordBase
  omega

theorem pokeRecord_sameWindow (s : State) (c : CircuitNo) {off : Nat} (hoff : off < 0x40) (v : Byte) :
    sameWindow s (s.pokeRecord c off v) (recordBytes c [off]) :=
  poke_sameWindow s (by have := recordBase_range c; omega) v

theorem peek_pokeRecord_same {s : State} (hwf : s.window.wf = true) (c : CircuitNo) {off : Nat} (hoff : off < 0x40) (v : Byte) :
    (s.pokeRecord c off v).peek (recordBase c + off) = v :=
  peek_poke_same s _ v hwf (by have := recordBase_range c; omega)

theorem pokeRecord_wf {s : State} (hwf : s.window.wf = true) (c : CircuitNo) (off : Nat) (v : Byte) :
    (s.pokeRecord c off v).window.wf = true := poke_wf s _ v hwf

/-- A run of bytes reads back as it was written. -/
theorem peek_pokeBytes_same (bytes : List Byte) {s : State} (hwf : s.window.wf = true) (a i : Nat)
    (hroom : a + bytes.length ≤ 65536) (hi : i < bytes.length) : (s.pokeBytes a bytes).peek (a + i) = bytes.getD i 0 := by
  induction bytes generalizing s a i with
  | nil => cases hi
  | cons v rest ih =>
    simp only [List.length_cons] at hroom hi
    cases i with
    | zero =>
      rw [State.pokeBytes, peek_pokeBytes_ne rest _ _ _ (by omega) (by omega) (by omega), Nat.add_zero,
        peek_poke_same _ _ _ hwf (by omega)]
      rfl
    | succ i =>
      have hrest := ih (poke_wf s a v hwf) (a + 1) i (by omega) (by omega)
      rwa [Nat.add_assoc, Nat.add_comm 1] at hrest

theorem mem_bytesFrom {a n x : Nat} : x ∈ bytesFrom a n ↔ a ≤ x ∧ x < a + n := by
  simp only [bytesFrom, List.mem_map, List.mem_range]
  exact ⟨fun ⟨i, hi, he⟩ => by omega, fun h => ⟨x - a, by omega, by omega⟩⟩

theorem not_mem_recordBytes {c : CircuitNo} {offs : List Nat} {x : Nat} (hx : x < 0x0100) : x ∉ recordBytes c offs := by
  have hbase := recordBase_range c
  simp only [recordBytes, List.mem_map, not_exists, not_and]
  intro off _ h
  omega

/-! ## The raise of a cause -/

theorem mem_insertPair {p q : NoticePair} {l : List NoticePair} : q ∈ insertPair p l ↔ q = p ∨ q ∈ l := by
  induction l with
  | nil => simp [insertPair]
  | cons r rest ih =>
    unfold insertPair
    split
    · simp_all
    · split
      · simp
      · simp [ih, or_left_comm]

theorem length_insertPair {p : NoticePair} {l : List NoticePair} (h : p ∉ l) : (insertPair p l).length = l.length + 1 := by
  induction l with
  | nil => rfl
  | cons r rest ih =>
    obtain ⟨hne, hrest⟩ := not_or.mp (mt List.mem_cons.mpr h)
    unfold insertPair
    rw [if_neg hne]
    split
    · rfl
    · simp [ih hrest]

theorem highByte_eq (v : Half) : highByte v = (v >>> 8).setWidth 8 := by
  apply BitVec.eq_of_toNat_eq
  simp [highByte, BitVec.extractLsb'_toNat]

/-- The eight bytes of an entry, as the model writes them and as the statements list them (R137, R158). -/
theorem entryBytes_eq (u : State) (sequence : Byte) (p : NoticePair) :
    entryBytes u sequence p = [sequence, p.sourceByte, p.causeByte, u.detailOf p] ++ u.snapshotOf p := by
  cases p with
  | circuit c cause =>
    have hspan (a b : Byte) : BitVec.ofNat 8 (span a b) = b - a := by rw [BitVec.ofNat_toNat, BitVec.setWidth_eq]
    cases cause <;>
      simp only [entryBytes, NoticePair.sourceByte, NoticePair.causeByte, circuitByte, CircuitCause.code, State.detailOf,
        State.snapshotOf, Circuit.filledSpan, Circuit.postedSpan, hspan] <;> rfl
  | station cause =>
    have hlow (v : Half) : v.setWidth 8 = lowByte v := by simp [lowByte, BitVec.setWidth_eq_extractLsb']
    cases cause <;>
      simp [entryBytes, NoticePair.sourceByte, NoticePair.causeByte, StationCause.code, State.detailOf, State.snapshotOf,
        size_eq_length_members, members, hlow, highByte_eq]

/-- An entry's bytes do not depend on the Notice Unit and the window. -/
theorem entryBytes_congr {s t : State} (h : NoticeOnly s t) (sequence : Byte) (p : NoticePair) :
    entryBytes t sequence p = entryBytes s sequence p := by
  rw [h.eq]
  rfl

theorem raiseBytes_one (s : State) :
    raiseBytes s 1 = [0x0F, 0x10, 0x11, 0x12] ++ bytesFrom (entryOffset s.notice.fill) 8 := by
  simp [raiseBytes, entryOffset]

/-- An entry is written as one run of bytes; beside them only the sequence and the fill index are (R158). -/
theorem peek_writeEntry_eq_pokeBytes (s : State) (p : NoticePair) {x : Nat} (hx : x < 65536) (hfill : x ≠ 0x0F)
    (hsequence : x ≠ 0x10) : (s.writeEntry p (s.detailOf p)).peek x =
      (s.pokeBytes (entryOffset s.notice.fill) (entryBytes s s.notice.sequence p)).peek x := by
  have hfill' : x ≠ offAttentionFill := hfill
  have hsequence' : x ≠ offAttentionSequence := hsequence
  simp only [State.writeEntry, peek_updateIrq, entryBytes_eq]
  rw [peek_poke_ne _ _ _ _ (by decide) hx hfill', peek_poke_ne _ _ _ _ (by decide) hx hsequence']
  simp only [State.peek]

theorem entryBytes_length (u : State) (sequence : Byte) (p : NoticePair) : (entryBytes u sequence p).length = 8 := by
  rw [entryBytes_eq, List.length_append, snapshotOf_length]
  rfl

theorem raise_sameWindow (s : State) (p : NoticePair) : sameWindow s (s.raise p) (raiseBytes s 1) := by
  intro x hx hout
  simp only [raiseBytes_one, List.mem_append, List.mem_cons, List.not_mem_nil, or_false, mem_bytesFrom, not_or] at hout
  obtain ⟨⟨hfill, hsequence, hflag, hcount⟩, hentry⟩ := hout
  obtain ⟨-, h⟩ | ⟨-, -, -, h⟩ | ⟨-, -, -, h⟩ | ⟨-, -, h⟩ := raiseWith_cases s p (s.detailOf p) <;> rw [State.raise, h]
  case inr.inr.inl =>
    exact (peek_poke_ne _ _ _ _ (by decide) hx hcount).trans (peek_poke_ne _ _ _ _ (by decide) hx hflag)
  case inr.inr.inr =>
    have hrange := entryOffset_range s.notice.fill
    have hlength := entryBytes_length s s.notice.sequence p
    rw [peek_writeEntry_eq_pokeBytes s p hx hfill hsequence]
    exact peek_pokeBytes_ne _ s _ x (by omega) hx (by omega)

/-- The entry just written. -/
theorem peek_writeEntry {s : State} (hwf : s.window.wf = true) (p : NoticePair) {i : Nat} (hi : i < 8) :
    (s.writeEntry p (s.detailOf p)).peek (entryOffset s.notice.fill + i) =
      (entryBytes s s.notice.sequence p).getD i 0 := by
  have hrange := entryOffset_range s.notice.fill
  have hlength := entryBytes_length s s.notice.sequence p
  rw [peek_writeEntry_eq_pokeBytes s p (by omega) (by omega) (by omega)]
  exact peek_pokeBytes_same _ hwf _ i (by omega) (by omega)

/-- IRQ after an entry is written: with room for it, the fill index does not come round to the take copy (R163). -/
theorem fill_succ_ne_takeCopy {n : Notice} (h : ¬64 ≤ n.count) : n.fill + 1 ≠ n.takeCopy := by
  simp only [Notice.count, span] at h
  bv_omega

/-- The rule of a raise: absorbed, pending or written (R158 to R161, R163). -/
theorem raise_raisedIn {s : State} (hwf : s.window.wf = true) (p : NoticePair) : raisedIn s (s.raise p) p := by
  have hbytes := entryBytes_congr (raise_only s p) s.notice.sequence p
  obtain ⟨hheld, h⟩ | ⟨hheld, hfull, hwaiting, h⟩ | ⟨hheld, hfull, hwaiting, h⟩ | ⟨hheld, hroom, h⟩ :=
    raiseWith_cases s p (s.detailOf p) <;> rw [State.raise] at hbytes ⊢ <;> rw [h] at hbytes ⊢
  · exact (if_pos hheld).mpr rfl
  · refine (if_neg hheld).mpr ((if_pos hfull).mpr ⟨rfl, hwaiting, fun _ hq => hq, fun _ hq => .inr hq, ?_⟩)
    rw [if_pos hwaiting, Nat.add_zero]
  · refine (if_neg hheld).mpr ((if_pos hfull).mpr ⟨rfl, mem_insertPair.mpr (.inl rfl), fun _ hq => mem_insertPair.mpr (.inr hq),
      fun _ hq => mem_insertPair.mp hq, ?_⟩)
    rw [if_neg hwaiting]
    exact length_insertPair hwaiting
  · refine (if_neg hheld).mpr ((if_neg hroom).mpr ⟨?_, fun i hi => ?_⟩)
    · have hirq : (s.notice.fill + 1 != s.notice.takeCopy) = true := bne_iff_ne.mpr (fill_succ_ne_takeCopy hroom)
      simp only [State.writeEntry, State.updateIrq, State.poke, pokeBytes_notice, hirq, Bool.and_true]
    · rw [BitVec.ofNat_eq_ofNat, BitVec.add_zero]
      exact (peek_writeEntry hwf p hi).trans (congrArg (·.getD i 0) hbytes.symm)

/-- What a raise did depends on the Notice Unit of the state before it. -/
theorem raisedIn_congr {s u t : State} {p : NoticePair} (hnotice : u.notice = s.notice) (h : raisedIn u t p) :
    raisedIn s t p := by
  unfold raisedIn entryShows at h ⊢
  rwa [hnotice] at h

/-! ## The taking of a request -/

theorem circuitCount_of_requestCheck {s : State} (hcheck : requestCheck s = 0) :
    (reqByte s 2).toNat < s.station.circuitCount := by
  by_contra hcount
  rw [requestCheck, if_pos (Nat.le_of_not_lt hcount)] at hcheck
  exact absurd hcheck (by decide)

/-- A CLOSE that passes its checks is admitted in the state of its circuit (R59, R155). -/
theorem stateRefusal_close_of_requestCheck {s : State} (hkind : reqByte s 1 = 3) (hcheck : requestCheck s = 0) :
    stateRefusal .closeR (s.circuit (reqCircuit s)).state = none := by
  have hcount : ¬s.station.circuitCount ≤ (reqByte s 2).toNat := Nat.not_le.mpr (circuitCount_of_requestCheck hcheck)
  rw [requestCheck, hkind, if_neg hcount] at hcheck
  cases hst : (s.circuit (reqCircuit s)).state <;> simp_all [stateIn, stateRefusal]

/-- Of the checks, only those of the circuit number and of the circuit's state reach a CLOSE or an ABORT (R155). -/
theorem validate_eq_stateRefusal {s : State} {kind : RequestKind} (hkind : kind = .closeR ∨ kind = .abortR)
    (hbyte : requestKindOf (reqByte s 1) = some kind) (hcount : (reqByte s 2).toNat < s.station.circuitCount) :
    s.validate s.requestRecord = stateRefusal kind (s.circuit (reqCircuit s)).state := by
  have hrecord : requestKindOf s.requestRecord.kind = some kind := hbyte
  have hcircuit : s.requestRecord.circuitNo = reqCircuit s := rfl
  have hnumber : s.requestRecord.circuit.toNat < s.station.circuitCount := hcount
  rw [State.validate, if_neg (not_not.mpr hnumber), hrecord, hcircuit]
  rcases hkind with rfl | rfl
  · cases h : stateRefusal .closeR (s.circuit (reqCircuit s)).state <;>
      simp [h, RequestRecord.fieldsFit, stateAdmits]
  · rfl

/-- The end of a taking that completes DONE: the take index advances and DONE is raised (R154, R157). -/
def takenWithDone (u : State) (c : CircuitNo) : State := u.advanceTake.raise (.circuit c .done)

/-- The frame as one equation. -/
theorem circuitsOnly_eq {s t : State} (h : CircuitsOnly s t) : t = { s with
    circuits := t.circuits, orphans := t.orphans, selector := t.selector, notice := t.notice, window := t.window } := by
  obtain ⟨h1, h2, h3, h4, h5, h6, h7, h8, h9, h10, h11, h12⟩ := h
  cases s; cases t; simp_all

theorem takenWithDone_only (u : State) (c : CircuitNo) : NoticeOnly u.advanceTake (takenWithDone u c) := raise_only _ _

@[simp] theorem circuit_takenWithDone (u : State) (c d : CircuitNo) : (takenWithDone u c).circuit d = u.circuit d :=
  (takenWithDone_only u c).circuit d

@[simp] theorem takenWithDone_orphans (u : State) (c : CircuitNo) : (takenWithDone u c).orphans = u.orphans :=
  (takenWithDone_only u c).orphans

@[simp] theorem takenWithDone_selector (u : State) (c : CircuitNo) : (takenWithDone u c).selector = u.selector :=
  (takenWithDone_only u c).selector

/-- The fields below the attention queue but for the take index and the Notice Unit's. -/
theorem peek_takenWithDone (u : State) (c : CircuitNo) {x : Nat} (hlow : 0x12 < x) (hhigh : x < 0x0600) :
    (takenWithDone u c).peek x = u.peek x :=
  (peek_raise_ne _ _ x (by omega) (.inl hhigh) (.inr hlow)).trans
    (peek_poke_ne _ _ _ _ (by decide) (by omega) (by simp only [offRequestTake]; omega))

theorem peek_record_takenWithDone (u : State) (c d : CircuitNo) {off : Nat} (hoff : off < 0x40) :
    (takenWithDone u c).peek (recordBase d + off) = u.peek (recordBase d + off) := by
  have := recordBase_range d
  exact peek_takenWithDone u c (by omega) (by omega)

theorem takenWithDone_sameWindow (u : State) (c : CircuitNo) :
    sameWindow u (takenWithDone u c) ([0x0D] ++ raiseBytes u 1) :=
  sameWindow_trans (poke_sameWindow _ (by decide) _) (raise_sameWindow u.advanceTake _)

theorem takenWithDone_requestTaken {s u : State} {c : CircuitNo} (h : CircuitOnly c s u) (hwf : u.window.wf = true) :
    requestTaken s (takenWithDone u c) c := by
  refine ⟨?_, fun d hd => (circuit_takenWithDone u c d).trans (h.others d hd), ?_⟩
  · rw [(takenWithDone_only u c).eq, State.advanceTake, State.poke, circuitsOnly_eq h.rest]
  · have htake : u.advanceTake.peek 0x0D = u.requests.take + 1 := peek_poke_same _ _ _ hwf (by decide)
    rw [takenWithDone, peek_raise_ne _ _ _ (by decide) (.inl (by decide)) (.inl (by decide)), htake, h.rest.requests]

theorem takenWithDone_raisedIn {s u : State} (c : CircuitNo) (hnotice : u.notice = s.notice) (hwf : u.window.wf = true) :
    raisedIn s (takenWithDone u c) (.circuit c .done) := by
  have hwf' : u.advanceTake.window.wf = true := poke_wf _ _ _ hwf
  have hnotice' : u.advanceTake.notice = s.notice := hnotice
  unfold takenWithDone
  exact raisedIn_congr hnotice' (raise_raisedIn hwf' _)

/-- A request that passes its checks and completes DONE: it acts, the take index advances and DONE is raised (R154). -/
theorem takeIf_eq_takenWithDone {s u : State} {kind : RequestKind} {c : CircuitNo} (hwaits : waits s)
    (hbyte : requestKindOf (reqByte s 1) = some kind) (hvalid : s.validate s.requestRecord = none)
    (hact : s.actOn s.requestRecord = (u, some (.circuit c .done))) : s.takeIf (some kind) = takenWithDone u c := by
  have hwaiting : s.requestWaiting = true := by
    obtain ⟨hpost, hstate⟩ := hwaits
    rcases hstate with h | h | h | h <;> simp [State.requestWaiting, hpost, h, StationState.serves]
  rw [State.takeIf, if_pos ⟨hwaiting, hbyte⟩, State.takeRequest, hvalid, hact]
  rfl

theorem actOn_eq_closeTaken {s : State} (hbyte : requestKindOf (reqByte s 1) = some .closeR) :
    s.actOn s.requestRecord = s.closeTaken s.requestRecord := by
  have hrecord : requestKindOf s.requestRecord.kind = some .closeR := hbyte
  rw [State.actOn, hrecord]

theorem actOn_eq_abortTaken {s : State} (hbyte : requestKindOf (reqByte s 1) = some .abortR) :
    s.actOn s.requestRecord = s.abortTaken s.requestRecord := by
  have hrecord : requestKindOf s.requestRecord.kind = some .abortR := hbyte
  rw [State.actOn, hrecord]

theorem exec_closeRequest_ended {s : State} (hwaits : waits s) (hkind : reqByte s 1 = 3) (hcheck : requestCheck s = 0)
    (hended : (s.circuit (reqCircuit s)).state = .ended) : exec .closeRequest s =
      .next (takenWithDone (s.goFree (reqCircuit s) (some ⟨.closeR, reqByte s 0, .done, none⟩)) (reqCircuit s)) := by
  have hbyte : requestKindOf (reqByte s 1) = some .closeR := by rw [hkind]; rfl
  have hvalid : s.validate s.requestRecord = none :=
    (validate_eq_stateRefusal (.inl rfl) hbyte (circuitCount_of_requestCheck hcheck)).trans
      (stateRefusal_close_of_requestCheck hkind hcheck)
  have hcircuit : s.requestRecord.circuitNo = reqCircuit s := rfl
  have hclose : s.closeTaken s.requestRecord =
      (s.goFree (reqCircuit s) (some ⟨.closeR, reqByte s 0, .done, none⟩), some (.circuit (reqCircuit s) .done)) := by
    rw [State.closeTaken, hcircuit, if_pos hended]
    rfl
  exact congrArg Host.Outcome.next
    (takeIf_eq_takenWithDone hwaits hbyte hvalid ((actOn_eq_closeTaken hbyte).trans hclose))

/-- The completion of the ABORT at the take index, which names the request it overtakes (R90, R157). -/
abbrev abortDone (s : State) : Completion := ⟨.abortR, reqByte s 0, .done, (s.circuit (reqCircuit s)).inFlight⟩

/-- The circuit's part of an ABORT (R90). -/
def aborted (s : State) (c : CircuitNo) (d : Completion) : State :=
  if (s.circuit c).state = .free then s.writeCompletion c d else (s.goFree c (some d)).abortReply c (s.circuit c)

theorem exec_abortRequest {s : State} (hwaits : waits s) (hkind : reqByte s 1 = 4) (hcheck : requestCheck s = 0) :
    exec .abortRequest s = .next (takenWithDone (aborted s (reqCircuit s) (abortDone s)) (reqCircuit s)) := by
  have hbyte : requestKindOf (reqByte s 1) = some .abortR := by rw [hkind]; rfl
  have hvalid : s.validate s.requestRecord = none :=
    validate_eq_stateRefusal (.inr rfl) hbyte (circuitCount_of_requestCheck hcheck)
  have hcircuit : s.requestRecord.circuitNo = reqCircuit s := rfl
  have habort : s.abortTaken s.requestRecord =
      (aborted s (reqCircuit s) (abortDone s), some (.circuit (reqCircuit s) .done)) := by
    rw [State.abortTaken, hcircuit, aborted]
    split <;> rfl
  exact congrArg Host.Outcome.next
    (takeIf_eq_takenWithDone hwaits hbyte hvalid ((actOn_eq_abortTaken hbyte).trans habort))

/-! ## The orphan list -/

@[simp] theorem circuit_addOrphan (s : State) (peer : Address) (peerCircuit : CircuitNo) (reply : Reply) (d : CircuitNo) :
    (s.addOrphan peer peerCircuit reply).circuit d = s.circuit d := by
  rw [addOrphan_eq]
  rfl

@[simp] theorem addOrphan_selector (s : State) (peer : Address) (peerCircuit : CircuitNo) (reply : Reply) :
    (s.addOrphan peer peerCircuit reply).selector = s.selector := by
  rw [addOrphan_eq]

@[simp] theorem addOrphan_notice (s : State) (peer : Address) (peerCircuit : CircuitNo) (reply : Reply) :
    (s.addOrphan peer peerCircuit reply).notice = s.notice := by
  rw [addOrphan_eq]

theorem addOrphan_wf {s : State} (hwf : s.window.wf = true) (peer : Address) (peerCircuit : CircuitNo) (reply : Reply) :
    (s.addOrphan peer peerCircuit reply).window.wf = true := by
  obtain h | ⟨-, h⟩ | ⟨-, -, h⟩ := addOrphan_cases s peer peerCircuit reply <;> rw [h]
  · exact hwf
  · exact pokeHalf_wf _ _ _ hwf
  · exact hwf

theorem withOrphan_drops (st : StationState) (l : Orphans) (peer : Address) (peerCircuit : CircuitNo) (reply : Reply) :
    (withOrphan st l peer peerCircuit reply).drops = l.drops ∨
    (withOrphan st l peer peerCircuit reply).drops = l.drops + 1 := by
  unfold withOrphan
  split_ifs
  · exact .inl rfl
  · exact .inl rfl
  · exact .inr rfl
  · exact .inl rfl

theorem movedConfirm_drops (s : State) (c : CircuitNo) :
    (movedConfirm s c).drops = s.orphans.drops ∨ (movedConfirm s c).drops = s.orphans.drops + 1 := by
  unfold movedConfirm
  split
  · exact withOrphan_drops ..
  · exact .inl rfl

theorem showsDrops_congr_right {s u t : State} (horphans : t.orphans = u.orphans) (hlow : t.peek 0x30 = u.peek 0x30)
    (hhigh : t.peek 0x31 = u.peek 0x31) (h : showsDrops s u) : showsDrops s t := by
  simpa only [showsDrops, shows, Nat.reduceAdd, horphans, hlow, hhigh] using h

/-- The drop count stays shown over an addition, since a drop here does not bring the count round to where it began. -/
theorem addOrphan_showsDrops_trans {s u : State} (hwf : u.window.wf = true) (hshown : showsDrops s u)
    (hdrops : u.orphans.drops + 1 ≠ s.orphans.drops) (peer : Address) (peerCircuit : CircuitNo) (reply : Reply) :
    showsDrops s (u.addOrphan peer peerCircuit reply) := by
  obtain h | ⟨-, h⟩ | ⟨-, -, h⟩ := addOrphan_cases u peer peerCircuit reply <;> rw [h]
  · exact hshown
  · exact (if_neg hdrops).mpr (peek_pokeHalf_same _ _ _ hwf (by decide))
  · exact hshown

/-! ## A circuit that goes FREE -/

theorem live_iff (st : CircuitState) : st.live = true ↔ st = .opened ∨ st = .draining ∨ st = .clearing := by
  cases st <;> simp [CircuitState.live]

/-- Control owed cleared after ACK and POLL owed: the frame in flight forgets all three at once (R54, R79). -/
theorem clearControl_selector {s u : State} {c : CircuitNo} (hselector : u.selector = (s.clearAckPoll c).selector)
    (hlifetime : (u.circuit c).lifetime = (s.circuit c).lifetime) : (u.clearControl c).selector = flightForgets s c true := by
  simp only [flightForgets, State.clearControl, State.clearAckPoll, updCircuit_selector, State.forget, hselector, hlifetime,
    Option.map_map]
  congr 2
  funext frame
  by_cases h : frame.owner = .circuit c (s.circuit c).lifetime <;> simp [FlightFrame.isOf, h]

theorem releaseOwed_circuit (s : State) (c : CircuitNo) : (s.releaseOwed c).circuit c =
    { s.circuit c with ackOwed := false, pollOwed := false, callOwed := false, controlOwed := none } := by
  simp only [State.releaseOwed]
  split <;> simp [State.clearAckPoll, State.clearControl]

theorem releaseOwed_orphans (s : State) (c : CircuitNo) : (s.releaseOwed c).orphans = movedConfirm s c := by
  simp only [State.releaseOwed, movedConfirm]
  split <;> simp [State.clearAckPoll, State.clearControl, addOrphan_orphans]

theorem releaseOwed_selector (s : State) (c : CircuitNo) : (s.releaseOwed c).selector = flightForgets s c true := by
  simp only [State.releaseOwed]
  apply clearControl_selector <;> split <;> simp [State.clearAckPoll]

theorem releaseOwed_notice (s : State) (c : CircuitNo) : (s.releaseOwed c).notice = s.notice := by
  simp only [State.releaseOwed]
  split <;> simp [State.clearAckPoll, State.clearControl]

theorem releaseOwed_sameWindow (s : State) (c : CircuitNo) : sameWindow s (s.releaseOwed c) [0x30, 0x31] := by
  simp only [State.releaseOwed]
  split
  · exact addOrphan_sameWindow ((s.clearAckPoll c).updCircuit c fun k => { k with callOwed := false }) _ _ _
  · exact fun _ _ _ => rfl

theorem releaseOwed_showsDrops {s : State} (hwf : s.window.wf = true) (c : CircuitNo) : showsDrops s (s.releaseOwed c) := by
  simp only [State.releaseOwed]
  split
  · exact addOrphan_showsDrops (s := (s.clearAckPoll c).updCircuit c fun k => { k with callOwed := false }) hwf _ _ _
  · exact (if_pos rfl).mpr ⟨rfl, rfl⟩

theorem releaseOwed_wf {s : State} (hwf : s.window.wf = true) (c : CircuitNo) : (s.releaseOwed c).window.wf = true := by
  simp only [State.releaseOwed]
  split
  · exact addOrphan_wf (s := (s.clearAckPoll c).updCircuit c fun k => { k with callOwed := false }) hwf _ _ _
  · exact hwf

theorem writeCompletion_circuit (s : State) (c : CircuitNo) (d : Completion) : (s.writeCompletion c d).circuit c =
    { s.circuit c with completion := some d, inFlight := none } := by
  simp [State.writeCompletion]

@[simp] theorem writeCompletion_orphans (s : State) (c : CircuitNo) (d : Completion) :
    (s.writeCompletion c d).orphans = s.orphans := by
  simp [State.writeCompletion]

@[simp] theorem writeCompletion_selector (s : State) (c : CircuitNo) (d : Completion) :
    (s.writeCompletion c d).selector = s.selector := by
  simp [State.writeCompletion]

@[simp] theorem writeCompletion_notice (s : State) (c : CircuitNo) (d : Completion) :
    (s.writeCompletion c d).notice = s.notice := by
  simp [State.writeCompletion]

/-- The five completion fields, which lie side by side in a record (R135, R157). -/
def completionBytes (d : Completion) : List Byte :=
  [d.kind.code, d.id, d.outcome.code, d.overtaken.elim 0 fun o => o.1.code, d.overtaken.elim 0 fun o => o.2]

theorem writeCompletion_eq_pokeBytes (s : State) (c : CircuitNo) (d : Completion) : s.writeCompletion c d =
    (s.updCircuit c fun k => { k with completion := some d, inFlight := none }).pokeBytes (recordBase c + 0x08)
      (completionBytes d) := by
  obtain ⟨kind, id, outcome, overtaken⟩ := d
  cases overtaken <;> rfl

theorem writeCompletion_sameWindow (s : State) (c : CircuitNo) (d : Completion) :
    sameWindow s (s.writeCompletion c d) (recordBytes c [0x08, 0x09, 0x0A, 0x0B, 0x0C]) := by
  intro x hx hout
  have hbase := recordBase_range c
  simp only [recordBytes, List.map_cons, List.map_nil, List.mem_cons, List.not_mem_nil, or_false, not_or] at hout
  rw [writeCompletion_eq_pokeBytes]
  exact peek_pokeBytes_ne _ _ _ x (by simp [completionBytes]; omega) hx (by simp [completionBytes]; omega)

theorem writeCompletion_wf {s : State} (hwf : s.window.wf = true) (c : CircuitNo) (d : Completion) :
    (s.writeCompletion c d).window.wf = true := by
  rw [writeCompletion_eq_pokeBytes]
  exact pokeBytes_wf _ (s.updCircuit c _) _ hwf

theorem writeCompletion_showsCompletion {s : State} (hwf : s.window.wf = true) (c : CircuitNo) (d : Completion) :
    showsCompletion (s.writeCompletion c d) c d := by
  have hbase := recordBase_range c
  have hread (i : Nat) (hi : i < 5) : (s.writeCompletion c d).peek (recordBase c + 0x08 + i) = (completionBytes d).getD i 0 := by
    rw [writeCompletion_eq_pokeBytes]
    exact peek_pokeBytes_same _ (s := s.updCircuit c _) hwf _ i (by simp [completionBytes]; omega) hi
  obtain ⟨kind, id, outcome, overtaken⟩ := d
  cases overtaken <;>
    exact ⟨hread 0 (by decide), hread 1 (by decide), hread 2 (by decide), hread 3 (by decide), hread 4 (by decide)⟩

theorem showsCompletion_congr {u t : State} {c : CircuitNo} {d : Completion}
    (hrecord : ∀ off, 0 < off → off < 0x40 → t.peek (recordBase c + off) = u.peek (recordBase c + off))
    (h : showsCompletion u c d) : showsCompletion t c d := by
  simpa [showsCompletion, hrecord] using h

/-- The unsent count is written first where the circuit is live (R79). -/
def withUnsent (s : State) (c : CircuitNo) : State := if (s.circuit c).state.live then s.writeUnsent c else s

theorem withUnsent_circuit (s : State) (c : CircuitNo) : (withUnsent s c).circuit c = { s.circuit c with
    unsentCount := if (s.circuit c).state.live then (s.circuit c).postedCopy - (s.circuit c).txDone
      else (s.circuit c).unsentCount } := by
  unfold withUnsent
  split <;> simp [State.writeUnsent]

theorem withUnsent_eq (s : State) (c : CircuitNo) :
    withUnsent s c = { s with circuits := (withUnsent s c).circuits, window := (withUnsent s c).window } := by
  unfold withUnsent
  split <;> rfl

theorem withUnsent_sameWindow (s : State) (c : CircuitNo) : sameWindow s (withUnsent s c) (recordBytes c [0x20]) := by
  unfold withUnsent
  split
  · exact pokeRecord_sameWindow (s.updCircuit c _) c (by decide) _
  · exact fun _ _ _ => rfl

theorem withUnsent_wf {s : State} (hwf : s.window.wf = true) (c : CircuitNo) : (withUnsent s c).window.wf = true := by
  unfold withUnsent
  split
  · exact pokeRecord_wf hwf c _ _
  · exact hwf

theorem peek_withUnsent {s : State} (hwf : s.window.wf = true) {c : CircuitNo} (hlive : (s.circuit c).state.live = true) :
    (withUnsent s c).peek (recordBase c + 0x20) = (s.circuit c).postedCopy - (s.circuit c).txDone := by
  rw [withUnsent, if_pos hlive]
  exact peek_pokeRecord_same (s := s.updCircuit c _) hwf c (by decide) _

/-- The circuit owes nothing and its timers have stopped; it goes FREE from here (R79). -/
def quieted (s : State) (c : CircuitNo) : State :=
  ((withUnsent s c).releaseOwed c).updCircuit c fun k =>
    { k with
      retryTimer := none
      sendCount := 0
      dataRetryTimer := none
      probeTimer := none
      rxIdleTimer := none
      inFlight := none }

theorem quieted_orphans (s : State) (c : CircuitNo) : (quieted s c).orphans = movedConfirm s c := by
  rw [quieted, updCircuit_orphans, releaseOwed_orphans, movedConfirm, withUnsent_circuit, withUnsent_eq]
  rfl

theorem quieted_selector (s : State) (c : CircuitNo) : (quieted s c).selector = flightForgets s c true := by
  rw [quieted, updCircuit_selector, releaseOwed_selector, flightForgets, withUnsent_circuit, withUnsent_eq]
  rfl

theorem quieted_notice (s : State) (c : CircuitNo) : (quieted s c).notice = s.notice := by
  rw [quieted, updCircuit_notice, releaseOwed_notice, withUnsent_eq]

theorem quieted_wf {s : State} (hwf : s.window.wf = true) (c : CircuitNo) : (quieted s c).window.wf = true := by
  rw [quieted, updCircuit_window]
  exact releaseOwed_wf (withUnsent_wf hwf c) c

theorem releaseOwed_sameWindow_quieted (s : State) (c : CircuitNo) : sameWindow (withUnsent s c) (quieted s c) [0x30, 0x31] :=
  releaseOwed_sameWindow (withUnsent s c) c

theorem quieted_showsDrops {s : State} (hwf : s.window.wf = true) (c : CircuitNo) : showsDrops s (quieted s c) := by
  have hunsent (x : Nat) (hx : x < 0x0100) : (withUnsent s c).peek x = s.peek x :=
    withUnsent_sameWindow s c x (by omega) (not_mem_recordBytes hx)
  have hdrops : (withUnsent s c).orphans.drops = s.orphans.drops := by rw [withUnsent_eq]
  have hreleased : showsDrops s ((withUnsent s c).releaseOwed c) :=
    showsDrops_congr hdrops (hunsent _ (by decide)) (hunsent _ (by decide)) (releaseOwed_showsDrops (withUnsent_wf hwf c) c)
  rw [quieted]
  exact showsDrops_congr_right (updCircuit_orphans ..) (peek_updCircuit ..) (peek_updCircuit ..) hreleased

theorem peek_unsent_quieted {s : State} (hwf : s.window.wf = true) {c : CircuitNo} (hlive : (s.circuit c).state.live = true) :
    (quieted s c).peek (recordBase c + 0x20) = (s.circuit c).postedCopy - (s.circuit c).txDone := by
  have hbase := recordBase_range c
  rw [releaseOwed_sameWindow_quieted s c _ (by omega) (by simp; omega), peek_withUnsent hwf hlive]

theorem setCircuitState_sameWindow (s : State) (c : CircuitNo) (st : CircuitState) :
    sameWindow s (s.setCircuitState c st) (recordBytes c [0x00]) :=
  pokeRecord_sameWindow (s.updCircuit c fun k => { k with state := st }) c (by decide) _

theorem setCircuitState_wf {s : State} (hwf : s.window.wf = true) (c : CircuitNo) (st : CircuitState) :
    (s.setCircuitState c st).window.wf = true := pokeRecord_wf (s := s.updCircuit c fun k => { k with state := st }) hwf c _ _

theorem peek_setCircuitState {s : State} (hwf : s.window.wf = true) (c : CircuitNo) (st : CircuitState) :
    (s.setCircuitState c st).peek (recordBase c) = st.code :=
  peek_pokeRecord_same (s := s.updCircuit c fun k => { k with state := st }) hwf c (off := 0) (by decide) _

theorem goFree_eq (s : State) (c : CircuitNo) (d : Completion) :
    s.goFree c (some d) = ((quieted s c).writeCompletion c d).setCircuitState c .free := rfl

theorem goFree_circuit (s : State) (c : CircuitNo) (d : Completion) :
    (s.goFree c (some d)).circuit c = freed (s.circuit c) (some d) := by
  simp [goFree_eq, State.setCircuitState, writeCompletion_circuit, quieted, releaseOwed_circuit, withUnsent_circuit, freed,
    live_iff]

theorem goFree_orphans (s : State) (c : CircuitNo) (d : Completion) : (s.goFree c (some d)).orphans = movedConfirm s c := by
  simp [goFree_eq, State.setCircuitState, quieted_orphans]

theorem goFree_selector (s : State) (c : CircuitNo) (d : Completion) :
    (s.goFree c (some d)).selector = flightForgets s c true := by
  simp [goFree_eq, State.setCircuitState, quieted_selector]

theorem goFree_notice (s : State) (c : CircuitNo) (d : Completion) : (s.goFree c (some d)).notice = s.notice := by
  simp [goFree_eq, State.setCircuitState, quieted_notice]

/-- Only the completion fields and the state of the record are written last (R79). -/
theorem goFree_sameWindow_quieted (s : State) (c : CircuitNo) (d : Completion) :
    sameWindow (quieted s c) (s.goFree c (some d)) (recordBytes c [0x08, 0x09, 0x0A, 0x0B, 0x0C, 0x00]) := by
  rw [goFree_eq]
  exact sameWindow_trans (writeCompletion_sameWindow (quieted s c) c d) (setCircuitState_sameWindow _ c .free)

theorem goFree_sameWindow (s : State) (c : CircuitNo) (d : Completion) :
    sameWindow s (s.goFree c (some d)) ([0x30, 0x31] ++ freedBytes c) := by
  refine sameWindow_mono (sameWindow_trans (withUnsent_sameWindow s c)
    (sameWindow_trans (releaseOwed_sameWindow_quieted s c) (goFree_sameWindow_quieted s c d))) ?_
  simp [freedBytes, recordBytes]

theorem goFree_showsDrops {s : State} (hwf : s.window.wf = true) (c : CircuitNo) (d : Completion) :
    showsDrops s (s.goFree c (some d)) := by
  have hlater (x : Nat) (hx : x < 0x0100) : (s.goFree c (some d)).peek x = (quieted s c).peek x :=
    goFree_sameWindow_quieted s c d x (by omega) (not_mem_recordBytes hx)
  have horphans : (s.goFree c (some d)).orphans = (quieted s c).orphans :=
    (goFree_orphans s c d).trans (quieted_orphans s c).symm
  exact showsDrops_congr_right horphans (hlater _ (by decide)) (hlater _ (by decide)) (quieted_showsDrops hwf c)

/-- Circuit `c` of `s` has gone FREE in `u`, its completion fields as given; the orphan list is said apart (R79). -/
structure FreedWith (s u : State) (c : CircuitNo) (d : Completion) : Prop where
  only : CircuitOnly c s u
  circuit : u.circuit c = freed (s.circuit c) (some d)
  selector : u.selector = flightForgets s c true
  notice : u.notice = s.notice
  wf : u.window.wf = true
  drops : showsDrops s u
  window : sameWindow s u ([0x30, 0x31] ++ freedBytes c)
  state : u.peek (recordBase c) = 0
  completion : showsCompletion u c d
  unsent : (s.circuit c).state.live = true →
    u.peek (recordBase c + 0x20) = (s.circuit c).postedCopy - (s.circuit c).txDone

theorem goFree_freedWith {s : State} (hwf : s.window.wf = true) (c : CircuitNo) (d : Completion) :
    FreedWith s (s.goFree c (some d)) c d := by
  have hbase := recordBase_range c
  have hdone := writeCompletion_wf (quieted_wf hwf c) c d
  have hshown := writeCompletion_showsCompletion (quieted_wf hwf c) c d
  have hfree : sameWindow ((quieted s c).writeCompletion c d) (s.goFree c (some d)) (recordBytes c [0x00]) := by
    rw [goFree_eq]
    exact setCircuitState_sameWindow _ c .free
  exact {
    only := goFree_only s c _
    circuit := goFree_circuit s c d
    selector := goFree_selector s c d
    notice := goFree_notice s c d
    wf := by rw [goFree_eq]; exact setCircuitState_wf hdone c .free
    drops := goFree_showsDrops hwf c d
    window := goFree_sameWindow s c d
    state := by rw [goFree_eq]; exact peek_setCircuitState hdone c .free
    completion := showsCompletion_congr (fun off hpos hoff => hfree _ (by omega) (by simp [recordBytes]; omega)) hshown
    unsent := fun hlive =>
      (goFree_sameWindow_quieted s c d _ (by omega) (by simp [recordBytes])).trans (peek_unsent_quieted hwf hlive) }

/-- A further reply on the orphan list leaves the circuit FREE. -/
theorem FreedWith.addOrphan {s u : State} {c : CircuitNo} {d : Completion} (h : FreedWith s u c d)
    (hdrops : u.orphans.drops + 1 ≠ s.orphans.drops) (peer : Address) (peerCircuit : CircuitNo) (reply : Reply) :
    FreedWith s (u.addOrphan peer peerCircuit reply) c d := by
  have hadd := addOrphan_sameWindow u peer peerCircuit reply
  have hbase := recordBase_range c
  have hrecord (off : Nat) (hoff : off < 0x40) :
      (u.addOrphan peer peerCircuit reply).peek (recordBase c + off) = u.peek (recordBase c + off) :=
    hadd _ (by omega) (by simp; omega)
  exact {
    only := h.only.trans (addOrphan_only c u peer peerCircuit reply)
    circuit := (circuit_addOrphan ..).trans h.circuit
    selector := (addOrphan_selector ..).trans h.selector
    notice := (addOrphan_notice ..).trans h.notice
    wf := addOrphan_wf h.wf ..
    drops := addOrphan_showsDrops_trans h.wf h.drops hdrops ..
    window := sameWindow_mono (sameWindow_trans h.window hadd) (by simp)
    state := (hrecord 0 (by decide)).trans h.state
    completion := showsCompletion_congr (fun off _ hoff => hrecord off hoff) h.completion
    unsent := fun hlive => (hrecord 0x20 (by decide)).trans (h.unsent hlive) }

/-- The CLEAR of an ABORT joins the orphan list after the CONFIRM that the circuit owed (R79, R90). -/
theorem abortReply_freedWith {s u : State} {c : CircuitNo} {d : Completion} (h : FreedWith s u c d)
    (horphans : u.orphans = movedConfirm s c) : FreedWith s (u.abortReply c (s.circuit c)) c d := by
  unfold State.abortReply
  split
  · refine h.addOrphan ?_ _ _ _
    rw [horphans]
    rcases movedConfirm_drops s c with hdrops | hdrops <;> rw [hdrops] <;> bv_omega
  · exact h

theorem abortReply_goFree_orphans (s : State) (c : CircuitNo) (d : Completion) :
    ((s.goFree c (some d)).abortReply c (s.circuit c)).orphans =
      if (s.circuit c).state.live = true then
        withOrphan s.station.state (movedConfirm s c) (s.circuit c).peer ((s.circuit c).peerCircuit.getD 0) (.clear c)
      else movedConfirm s c := by
  unfold State.abortReply
  split
  · rw [addOrphan_orphans, goFree_orphans, (goFree_only s c _).rest.station]
  · exact goFree_orphans s c d

/-! ## CLOSE of an ENDED circuit, and ABORT -/

theorem takenWithDone_showsCompletion {u : State} {c : CircuitNo} {d : Completion} (h : showsCompletion u c d) :
    showsCompletion (takenWithDone u c) c d :=
  showsCompletion_congr (fun _ _ hoff => peek_record_takenWithDone u c c hoff) h

theorem takenWithDone_showsDrops {s u : State} (c : CircuitNo) (h : showsDrops s u) : showsDrops s (takenWithDone u c) :=
  showsDrops_congr_right (takenWithDone_orphans u c) (peek_takenWithDone u c (by decide) (by decide))
    (peek_takenWithDone u c (by decide) (by decide)) h

/-- The whole window over the taking: the act's bytes, the take index and the entry of DONE. -/
theorem taken_sameWindow {s u : State} {offs : List Nat} (c : CircuitNo) (hnotice : u.notice = s.notice)
    (h : sameWindow s u offs) : sameWindow s (takenWithDone u c) ([0x0D] ++ offs ++ raiseBytes s 1) := by
  have hbytes : raiseBytes u 1 = raiseBytes s 1 := by rw [raiseBytes, raiseBytes, hnotice]
  refine sameWindow_mono (sameWindow_trans h (takenWithDone_sameWindow u c)) ?_
  rw [hbytes]
  intro x hx
  simp only [List.mem_append] at hx ⊢
  tauto

/-- Settles O20: a circuit that is not FREE goes FREE before the take index advances and DONE is raised. -/
theorem closeAndAbortFree : Obligations.CloseAndAbortFree := by
  constructor
  · intro s hmem hwaits hkind hcheck hended
    have h := goFree_freedWith hmem (reqCircuit s) ⟨.closeR, reqByte s 0, .done, none⟩
    exact ⟨_, exec_closeRequest_ended hwaits hkind hcheck hended, takenWithDone_requestTaken h.only h.wf,
      (circuit_takenWithDone ..).trans h.circuit, (takenWithDone_orphans ..).trans (goFree_orphans ..),
      takenWithDone_showsDrops _ h.drops, (takenWithDone_selector ..).trans h.selector,
      takenWithDone_raisedIn _ h.notice h.wf, (peek_record_takenWithDone _ _ _ (off := 0) (by decide)).trans h.state,
      takenWithDone_showsCompletion h.completion, taken_sameWindow _ h.notice h.window⟩
  · intro s hmem hwaits hkind hcheck
    have hexec := exec_abortRequest hwaits hkind hcheck
    by_cases hfree : (s.circuit (reqCircuit s)).state = .free
    · rw [aborted, if_pos hfree] at hexec
      have hwf := writeCompletion_wf hmem (reqCircuit s) (abortDone s)
      have hnotice := writeCompletion_notice s (reqCircuit s) (abortDone s)
      exact ⟨_, hexec, takenWithDone_requestTaken (writeCompletion_only ..) hwf, takenWithDone_raisedIn _ hnotice hwf,
        takenWithDone_showsCompletion (writeCompletion_showsCompletion hmem ..), (if_pos hfree).mpr
          ⟨(circuit_takenWithDone ..).trans (writeCompletion_circuit ..),
            (takenWithDone_orphans ..).trans (writeCompletion_orphans ..),
            (takenWithDone_selector ..).trans (writeCompletion_selector ..),
            taken_sameWindow _ hnotice (writeCompletion_sameWindow _ _ _)⟩⟩
    · rw [aborted, if_neg hfree] at hexec
      have h := abortReply_freedWith (goFree_freedWith hmem (reqCircuit s) (abortDone s)) (goFree_orphans ..)
      exact ⟨_, hexec, takenWithDone_requestTaken h.only h.wf, takenWithDone_raisedIn _ h.notice h.wf,
        takenWithDone_showsCompletion h.completion, (if_neg hfree).mpr
          ⟨(circuit_takenWithDone ..).trans h.circuit, (takenWithDone_orphans ..).trans (abortReply_goFree_orphans ..),
            takenWithDone_showsDrops _ h.drops, (takenWithDone_selector ..).trans h.selector,
            (peek_record_takenWithDone _ _ _ (off := 0) (by decide)).trans h.state,
            fun hlive => (peek_record_takenWithDone _ _ _ (by decide)).trans (h.unsent hlive),
            taken_sameWindow _ h.notice h.window⟩⟩

end Sys2Proof.Proofs
end

