-- ==== Sys2Proof/Proofs/RequestsAttentionAndInterrupt.lean ====
section
/-! PROOFS. Requests, attention and interrupt (Chapter 9): the raise of a cause, the checks of a request, and the taking of a
request that fails one of them. -/

namespace Sys2Proof.Proofs

open Sys2Proof Sys2Proof.Machine Sys2Proof.Claims Sys2Proof.Safety Sys2Proof.Laws

/-! ## The raise of a cause -/

/-- A held-back raise writes the pending flag and the pending count alone (R161). -/
theorem showWaiting_sameWindow (s : State) : sameWindow s s.showWaiting [0x11, 0x12] :=
  sameWindow_trans (poke_sameWindow s (by decide) _) (poke_sameWindow _ (by decide) _)

theorem peek_showWaiting {s : State} (hwf : s.window.wf = true) :
    s.showWaiting.peek 0x11 = (if s.notice.waiting.isEmpty then 0 else 1) ∧
    s.showWaiting.peek 0x12 = BitVec.ofNat 8 s.notice.waiting.length := by
  refine ⟨?_, peek_poke_same _ _ _ (poke_wf _ _ _ hwf) (by decide)⟩
  exact (peek_poke_ne _ _ _ _ (by decide) (by decide) (by decide)).trans (peek_poke_same _ _ _ hwf (by decide))

/-- A pair that joins the pending set sets the pending flag and is counted (R161). -/
theorem peek_showWaiting_insertPair {s : State} {p : NoticePair} (hwf : s.window.wf = true) (hnew : p ∉ s.notice.waiting) :
    ({ s with notice.waiting := insertPair p s.notice.waiting } : State).showWaiting.peek 0x11 = 1 ∧
    ({ s with notice.waiting := insertPair p s.notice.waiting } : State).showWaiting.peek 0x12 =
      BitVec.ofNat 8 (s.notice.waiting.length + 1) := by
  obtain ⟨hflag, hcount⟩ := peek_showWaiting (s := { s with notice.waiting := insertPair p s.notice.waiting }) hwf
  have hlength := length_insertPair hnew
  have hsome : (insertPair p s.notice.waiting).isEmpty = false :=
    List.isEmpty_eq_false_iff.mpr (List.ne_nil_of_length_pos (by omega))
  exact ⟨hflag.trans (if_neg (by simp [hsome])), hcount.trans (congrArg _ hlength)⟩

/-- With its entry the Notice Unit writes the next sequence and the new fill index (R158). -/
theorem peek_writeEntry_indices {s : State} (hwf : s.window.wf = true) (p : NoticePair) (detail : Byte) :
    (s.writeEntry p detail).peek 0x10 = s.notice.sequence + 1 ∧ (s.writeEntry p detail).peek 0x0F = s.notice.fill + 1 := by
  have hentry := pokeBytes_wf ([s.notice.sequence, p.sourceByte, p.causeByte, detail] ++ s.snapshotOf p) s
    (entryOffset s.notice.fill) hwf
  refine ⟨?_, peek_poke_same _ _ _ (poke_wf _ _ _ hentry) (by decide)⟩
  exact (peek_poke_ne _ _ _ _ (by decide) (by decide) (by decide)).trans (peek_poke_same _ _ _ hentry (by decide))

/-- Settles O21: a raise is absorbed, held back, or writes its entry. -/
theorem raiseWritesAnEntry : Obligations.RaiseWritesAnEntry := by
  intro s p hmem
  refine ⟨(raise_only s p).eq, raise_raisedIn hmem p, ?_⟩
  have hwindow := raise_sameWindow s p
  rw [State.raise] at hwindow ⊢
  obtain ⟨hheld, h⟩ | ⟨hheld, hfull, hwaiting, h⟩ | ⟨hheld, hfull, hwaiting, h⟩ | ⟨hheld, hroom, h⟩ :=
    raiseWith_cases s p (s.detailOf p) <;> rw [h] at hwindow ⊢
  · exact (if_pos hheld).mpr rfl
  · exact (if_neg hheld).mpr ((if_pos hfull).mpr ⟨fun _ _ _ => rfl, fun hnew => absurd hwaiting hnew⟩)
  · exact (if_neg hheld).mpr ((if_pos hfull).mpr
      ⟨showWaiting_sameWindow { s with notice.waiting := insertPair p s.notice.waiting },
        peek_showWaiting_insertPair hmem⟩)
  · obtain ⟨hsequence, hfill⟩ := peek_writeEntry_indices hmem p (s.detailOf p)
    exact (if_neg hheld).mpr ((if_neg hroom).mpr ⟨fun i hi => peek_writeEntry hmem p hi, hsequence, hfill, hwindow⟩)

/-! ## The checks of a request -/

/-- The number of an outcome in a refusal record, 0 for a request that passes. -/
def refusalCode (o : Option RefusalOutcome) : Byte := o.elim 0 RefusalOutcome.code

/-- A kind byte lies outside 1 to 4, or is the code of its kind (R137). -/
theorem requestKindOf_cases (b : Byte) :
    (requestKindOf b = none ∧ (b.toNat < 1 ∨ 4 < b.toNat)) ∨
    ∃ kind : RequestKind, requestKindOf b = some kind ∧ b = kind.code := by
  unfold requestKindOf
  split
  case h_1 h => exact .inr ⟨_, rfl, BitVec.eq_of_toNat_eq h⟩
  case h_2 h => exact .inr ⟨_, rfl, BitVec.eq_of_toNat_eq h⟩
  case h_3 h => exact .inr ⟨_, rfl, BitVec.eq_of_toNat_eq h⟩
  case h_4 h => exact .inr ⟨_, rfl, BitVec.eq_of_toNat_eq h⟩
  case h_5 hopen hlisten hclose habort =>
    rw [imp_false] at hopen hlisten hclose habort
    exact .inl ⟨rfl, by omega⟩

theorem requestKindCode_range (kind : RequestKind) : ¬(kind.code.toNat < 1 ∨ 4 < kind.code.toNat) := by cases kind <;> decide

theorem eq_openR_iff (kind : RequestKind) : kind = .openR ↔ kind.code.toNat = 1 := by cases kind <;> decide

/-- Check 3 reaches OPEN and LISTEN (R155). -/
theorem fieldsFit_eq_false_iff (r : RequestRecord) (kind : RequestKind) (rxSize txSize : Nat) :
    r.fieldsFit kind rxSize txSize = false ↔ kind.code.toNat ≤ 2 ∧
      ¬(r.mode.toNat ≤ 1 ∧ 1 ≤ r.rxNotice.toNat ∧ r.rxNotice.toNat ≤ rxSize ∧ r.txNotice.toNat < txSize ∧
        (kind.code.toNat = 2 → r.peer.toNat ≤ 31)) := by
  cases kind <;> simp [RequestRecord.fieldsFit, RequestKind.code, ← Bool.not_eq_true, and_assoc]

/-- Check 4 as the statements list it (R59, R155). -/
theorem stateRefusal_eq (kind : RequestKind) (k : Circuit) : stateRefusal kind k.state =
    if kind.code.toNat ≤ 2 ∧ stateIn k [.listening, .calling, .draining, .clearing] = true then some .busy
    else if kind.code.toNat ≤ 2 ∧ stateIn k [.opened, .ended] = true then some .badState
    else if kind.code.toNat = 3 ∧ stateIn k [.free] = true then some .badState
    else if kind.code.toNat = 3 ∧ stateIn k [.listening, .calling, .draining, .clearing] = true then some .busy
    else none := by
  cases kind <;> cases h : k.state <;> simp [stateRefusal, stateIn, RequestKind.code, h]

/-- Check 5 (R155). -/
theorem peerFits_eq_false_iff (st : Station) (peer : Byte) :
    st.peerFits peer = false ↔ ¬(peer.toNat ≤ 30 ∧ (st.loop = true ∨ peer.toNat ≠ st.address.toNat)) := by
  simp [Station.peerFits, ← Bool.not_eq_true]

/-- Check 6, in the states in which requests are taken (R154, R155). -/
theorem stateAdmits_eq_false_iff {s : State} (hwaits : waits s) (kind : RequestKind) :
    stateAdmits kind s.station.state = false ↔
      (kind.code.toNat = 1 ∧ s.station.state ≠ .active) ∨ (kind.code.toNat = 2 ∧ s.station.state = .halted) := by
  obtain ⟨-, hstate⟩ := hwaits
  rcases hstate with h | h | h | h <;> cases kind <;> rw [h] <;> decide

/-- A record that names a circuit in service and one of the four kinds goes through checks 3 to 6 (R155). -/
theorem validate_eq_of_kind {s : State} {r : RequestRecord} {kind : RequestKind}
    (hcount : r.circuit.toNat < s.station.circuitCount) (hkind : requestKindOf r.kind = some kind) :
    s.validate r =
      if r.fieldsFit kind (s.circuit r.circuitNo).rxSize (s.circuit r.circuitNo).txSize = false then some .badField
      else (stateRefusal kind (s.circuit r.circuitNo).state).or
        (if kind = .openR ∧ s.station.peerFits r.peer = false then some .badPeer
        else if stateAdmits kind s.station.state = false then some .notActive
        else none) := by
  rw [State.validate, if_neg (not_not.mpr hcount), hkind]
  dsimp only
  cases stateRefusal kind (s.circuit r.circuitNo).state <;> rfl

theorem refusalCode_ite (P : Prop) [Decidable P] (outcome : RefusalOutcome) (later : Option RefusalOutcome) :
    refusalCode (if P then some outcome else later) = if P then outcome.code else refusalCode later := by
  split <;> rfl

theorem ite_some_or (P : Prop) [Decidable P] (outcome : RefusalOutcome) (x y : Option RefusalOutcome) :
    (if P then some outcome else x).or y = if P then some outcome else x.or y := by
  split <;> rfl

/-- The model validates in the order of the statements' checks (R155). -/
theorem requestCheck_eq {s : State} (hwaits : waits s) : requestCheck s = refusalCode (s.validate s.requestRecord) := by
  have hcircuit : s.requestRecord.circuit = reqByte s 2 := rfl
  have hkind : s.requestRecord.kind = reqByte s 1 := rfl
  by_cases hcount : s.station.circuitCount ≤ (reqByte s 2).toNat
  · rw [requestCheck, if_pos hcount, State.validate, hcircuit, if_pos (Nat.not_lt.mpr hcount)]
    rfl
  have hnumber := Nat.lt_of_not_le hcount
  obtain ⟨hnone, hbad⟩ | ⟨kind, hsome, hcode⟩ := requestKindOf_cases (reqByte s 1)
  · rw [requestCheck, if_neg hcount, if_pos hbad, State.validate, hcircuit, if_neg (not_not.mpr hnumber), hkind, hnone]
    rfl
  rw [requestCheck, if_neg hcount, hcode, if_neg (requestKindCode_range kind), validate_eq_of_kind hnumber hsome]
  simp only [fieldsFit_eq_false_iff, stateRefusal_eq, peerFits_eq_false_iff, stateAdmits_eq_false_iff hwaits, eq_openR_iff,
    ite_some_or, Option.none_or, refusalCode_ite, ite_or]
  rfl

/-! ## The taking of a request that fails a check -/

theorem lowByte_eq (v : Half) : lowByte v = v.setWidth 8 := by simp [lowByte, BitVec.setWidth_eq_extractLsb']

/-- The last refusal record and the refusal count as the Request Unit holds them (R156, steps 1 and 2). -/
def withRefusal (s : State) (id circuit kind : Byte) (outcome : RefusalOutcome) : State :=
  { s with
    requests.refusal := ⟨id, circuit, kind, outcome.code⟩
    requests.refusalCount := s.requests.refusalCount + 1 }

/-- Their bytes, which lie side by side in the Station Block (R133). -/
def refusalBytes (s : State) (id circuit kind : Byte) (outcome : RefusalOutcome) : List Byte :=
  [id, circuit, kind, outcome.code, lowByte (s.requests.refusalCount + 1), highByte (s.requests.refusalCount + 1)]

theorem writeRefusal_eq_pokeBytes (s : State) (id circuit kind : Byte) (outcome : RefusalOutcome) :
    s.writeRefusal id circuit kind outcome =
      (withRefusal s id circuit kind outcome).pokeBytes 0x2A (refusalBytes s id circuit kind outcome) := rfl

theorem writeRefusal_eq (s : State) (id circuit kind : Byte) (outcome : RefusalOutcome) :
    s.writeRefusal id circuit kind outcome =
      { withRefusal s id circuit kind outcome with window := (s.writeRefusal id circuit kind outcome).window } := by
  rw [writeRefusal_eq_pokeBytes]
  exact pokeBytes_eq _ _ _

theorem writeRefusal_sameWindow (s : State) (id circuit kind : Byte) (outcome : RefusalOutcome) :
    sameWindow s (s.writeRefusal id circuit kind outcome) (bytesFrom 0x2A 6) := by
  intro x hx hout
  rw [mem_bytesFrom] at hout
  rw [writeRefusal_eq_pokeBytes]
  exact peek_pokeBytes_ne _ _ _ x (by simp [refusalBytes]) hx (by simp only [refusalBytes, List.length]; omega)

theorem writeRefusal_wf {s : State} (hwf : s.window.wf = true) (id circuit kind : Byte) (outcome : RefusalOutcome) :
    (s.writeRefusal id circuit kind outcome).window.wf = true := by
  rw [writeRefusal_eq_pokeBytes]
  exact pokeBytes_wf _ _ _ hwf

theorem peek_writeRefusal {s : State} (hwf : s.window.wf = true) (id circuit kind : Byte) (outcome : RefusalOutcome) {i : Nat}
    (hi : i < 6) : (s.writeRefusal id circuit kind outcome).peek (0x2A + i) =
      (refusalBytes s id circuit kind outcome).getD i 0 := by
  have hwf' : (withRefusal s id circuit kind outcome).window.wf = true := hwf
  rw [writeRefusal_eq_pokeBytes]
  exact peek_pokeBytes_same (refusalBytes s id circuit kind outcome) hwf' 0x2A i (by simp [refusalBytes]) hi

theorem advanceTake_wf {u : State} (hwf : u.window.wf = true) : u.advanceTake.window.wf = true := poke_wf _ _ _ hwf

theorem advanceTake_sameWindow (u : State) : sameWindow u u.advanceTake [0x0D] := poke_sameWindow _ (by decide) _

theorem peek_advanceTake {u : State} (hwf : u.window.wf = true) : u.advanceTake.peek 0x0D = u.requests.take + 1 :=
  peek_poke_same _ _ _ hwf (by decide)

/-- The refusal record of the request at the take index, and the take index after it (R154, R156). -/
def refusalNoted (s : State) (outcome : RefusalOutcome) : State :=
  (s.writeRefusal (reqByte s 0) (reqByte s 2) (reqByte s 1) outcome).advanceTake

/-- The request at the take index refused, with REFUSED raised (R154, R156). -/
def refused (s : State) (outcome : RefusalOutcome) : State := (refusalNoted s outcome).raise (.station .refused)

/-- A refusal reaches the requests and the window before its raise. -/
theorem refusalNoted_eq (s : State) (outcome : RefusalOutcome) : refusalNoted s outcome = { s with
    requests := { s.requests with
      take := s.requests.take + 1
      refusal := ⟨reqByte s 0, reqByte s 2, reqByte s 1, outcome.code⟩
      refusalCount := s.requests.refusalCount + 1 }
    window := (refusalNoted s outcome).window } := by
  rw [refusalNoted, State.advanceTake, State.poke, writeRefusal_eq]
  rfl

theorem refusalNoted_wf {s : State} (hwf : s.window.wf = true) (outcome : RefusalOutcome) :
    (refusalNoted s outcome).window.wf = true :=
  advanceTake_wf (writeRefusal_wf hwf (reqByte s 0) (reqByte s 2) (reqByte s 1) outcome)

theorem refusalNoted_sameWindow (s : State) (outcome : RefusalOutcome) :
    sameWindow s (refusalNoted s outcome) (bytesFrom 0x2A 6 ++ [0x0D]) :=
  sameWindow_trans (writeRefusal_sameWindow s (reqByte s 0) (reqByte s 2) (reqByte s 1) outcome) (advanceTake_sameWindow _)

theorem refused_requests (s : State) (outcome : RefusalOutcome) : (refused s outcome).requests = { s.requests with
    take := s.requests.take + 1
    refusal := ⟨reqByte s 0, reqByte s 2, reqByte s 1, outcome.code⟩
    refusalCount := s.requests.refusalCount + 1 } := by
  rw [refused, (raise_only _ _).requests, refusalNoted_eq]

theorem refused_eq (s : State) (outcome : RefusalOutcome) : refused s outcome = { s with
    requests := (refused s outcome).requests, notice := (refused s outcome).notice, window := (refused s outcome).window } := by
  have hraise : NoticeOnly (refusalNoted s outcome) (refused s outcome) := raise_only _ _
  rw [hraise.requests, hraise.eq, refusalNoted_eq]

theorem refused_raisedIn {s : State} (hwf : s.window.wf = true) (outcome : RefusalOutcome) :
    raisedIn s (refused s outcome) (.station .refused) := by
  have hnotice : (refusalNoted s outcome).notice = s.notice := by rw [refusalNoted_eq]
  unfold refused
  exact raisedIn_congr hnotice (raise_raisedIn (refusalNoted_wf hwf outcome) _)

theorem refused_sameWindow (s : State) (outcome : RefusalOutcome) :
    sameWindow s (refused s outcome) ([0x0D] ++ bytesFrom 0x2A 6 ++ raiseBytes s 1) := by
  have hbytes : raiseBytes (refusalNoted s outcome) 1 = raiseBytes s 1 := by rw [refusalNoted_eq]; rfl
  have h := sameWindow_trans (refusalNoted_sameWindow s outcome) (raise_sameWindow (refusalNoted s outcome) (.station .refused))
  refine sameWindow_mono h ?_
  rw [hbytes]
  intro x hx
  simp only [List.mem_append] at hx ⊢
  tauto

theorem peek_refused_take {s : State} (hwf : s.window.wf = true) (outcome : RefusalOutcome) :
    (refused s outcome).peek 0x0D = s.requests.take + 1 :=
  calc (refused s outcome).peek 0x0D
    _ = (refusalNoted s outcome).peek 0x0D := peek_raise_ne _ _ _ (by decide) (.inl (by decide)) (.inl (by decide))
    _ = (s.writeRefusal (reqByte s 0) (reqByte s 2) (reqByte s 1) outcome).requests.take + 1 :=
      peek_advanceTake (writeRefusal_wf hwf _ _ _ _)
    _ = s.requests.take + 1 := by rw [writeRefusal_eq]; rfl

/-- The refusal record and count as the host reads them (R133, R156). -/
theorem peek_refused {s : State} (hwf : s.window.wf = true) (outcome : RefusalOutcome) {i : Nat} (hi : i < 6) :
    (refused s outcome).peek (0x2A + i) = (refusalBytes s (reqByte s 0) (reqByte s 2) (reqByte s 1) outcome).getD i 0 :=
  calc (refused s outcome).peek (0x2A + i)
    _ = (refusalNoted s outcome).peek (0x2A + i) :=
      peek_raise_ne _ _ _ (by omega) (.inl (by omega)) (.inr (by omega))
    _ = (s.writeRefusal (reqByte s 0) (reqByte s 2) (reqByte s 1) outcome).peek (0x2A + i) :=
      peek_poke_ne _ _ _ _ (by decide) (by omega) (by simp only [offRequestTake]; omega)
    _ = _ := peek_writeRefusal hwf _ _ _ outcome hi

/-- The row of a kind byte takes the request of that kind (R154). -/
theorem exec_requestRow (s : State) (b : Byte) : exec (requestRow b) s = .next (s.takeIf (requestKindOf b)) := by
  obtain ⟨hnone, hbad⟩ | ⟨kind, hsome, hcode⟩ := requestKindOf_cases b
  · have hne {v : Byte} (hv : 1 ≤ v.toNat ∧ v.toNat ≤ 4) : b ≠ v := by
      rintro rfl
      omega
    rw [hnone, requestRow, if_neg (hne (by decide)), if_neg (hne (by decide)), if_neg (hne (by decide)),
      if_neg (hne (by decide))]
    rfl
  · rw [hsome, hcode]
    cases kind <;> rfl

theorem requestWaiting_of_waits {s : State} (hwaits : waits s) : s.requestWaiting = true := by
  obtain ⟨hpost, hstate⟩ := hwaits
  rcases hstate with h | h | h | h <;> simp [State.requestWaiting, hpost, h, StationState.serves]

theorem exec_requestRow_refused {s : State} {outcome : RefusalOutcome} (hwaits : waits s)
    (hrefused : s.validate s.requestRecord = some outcome) :
    exec (requestRow (reqByte s 1)) s = .next (refused s outcome) := by
  have htake : s.takeIf (requestKindOf (reqByte s 1)) = s.takeRequest := if_pos ⟨requestWaiting_of_waits hwaits, rfl⟩
  rw [exec_requestRow, htake, State.takeRequest, hrefused]
  rfl

/-- A request that fails a check of the statements is refused with that outcome (R155). -/
theorem validate_of_requestCheck {s : State} (hwaits : waits s) (hcheck : requestCheck s ≠ 0) :
    ∃ outcome, s.validate s.requestRecord = some outcome ∧ outcome.code = requestCheck s := by
  rw [requestCheck_eq hwaits] at hcheck ⊢
  cases h : s.validate s.requestRecord with
  | none => exact absurd (by rw [h]; rfl) hcheck
  | some outcome => exact ⟨outcome, rfl, rfl⟩

/-- Settles O16: the model refuses with the outcome of the first failed check, and a refusal reaches the requests, the notices and
the window alone. -/
theorem refusedRequestLeavesItsCircuit : Obligations.RefusedRequestLeavesItsCircuit := by
  intro s hmem hwaits hcheck
  obtain ⟨outcome, hrefused, hcode⟩ := validate_of_requestCheck hwaits hcheck
  have hread (i : Nat) (hi : i < 6) := peek_refused hmem outcome hi
  have hcount : shows (refused s outcome) 0x2E (s.requests.refusalCount + 1) :=
    ⟨(hread 4 (by decide)).trans (lowByte_eq _), (hread 5 (by decide)).trans (highByte_eq _)⟩
  rw [← hcode]
  exact ⟨refused s outcome, exec_requestRow_refused hwaits hrefused, refused_eq s outcome, refused_requests s outcome,
    peek_refused_take hmem outcome, hread 0 (by decide), hread 1 (by decide), hread 2 (by decide), hread 3 (by decide), hcount,
    refused_raisedIn hmem outcome, refused_sameWindow s outcome⟩

end Sys2Proof.Proofs
end

section
/-! PROOFS. What every piece of the MT16's work keeps: the canonical form of the memory, the rings within the ring area, the orphan
list, the attention queue with IRQ, the request queue and the count of landed writes; and where in the window it writes. -/

namespace Sys2Proof.Proofs

open Sys2Proof Sys2Proof.Machine Sys2Proof.Claims Sys2Proof.Safety Sys2Proof.Laws

/-! ## What work keeps -/

/-- The rings of a circuit: where they lie and how many slots they have (R176). -/
def ringsOf (k : Circuit) : Half × Nat × Half × Nat := (k.txBase, k.txSize, k.rxBase, k.rxSize)

theorem ringAreaLaw_congr {k l : Circuit} (h : ringsOf l = ringsOf k) (hk : RingAreaLaw k) : RingAreaLaw l := by
  simp only [ringsOf, Prod.mk.injEq] at h
  obtain ⟨htb, hts, hrb, hrs⟩ := h
  simpa only [RingAreaLaw, htb, hts, hrb, hrs] using hk

/-- Work that keeps the laws of the memory, the rings, the orphan list, the attention queue and the request queue, and writes only
bytes that it may. -/
structure Work (may : Nat → Prop) (s t : State) : Prop where
  memory : MemoryLaw s → MemoryLaw t
  rings : (∀ c, RingAreaLaw (s.circuit c)) → ∀ c, RingAreaLaw (t.circuit c)
  orphans : OrphanLaw s → OrphanLaw t
  notices : AttentionLaw s ∧ IrqLaw s → AttentionLaw t ∧ IrqLaw t
  requests : RequestLaw s → RequestLaw t
  pending : t.pending = s.pending
  landed : LandedLaw s → LandedLaw t
  window : (∀ c, RingAreaLaw (s.circuit c)) → ∀ a, a < 65536 → ¬may a → t.peek a = s.peek a

theorem Work.refl {may : Nat → Prop} (s : State) : Work may s s := ⟨id, id, id, id, id, rfl, id, fun _ _ _ _ => rfl⟩

theorem Work.trans {may : Nat → Prop} {s t u : State} (h : Work may s t) (g : Work may t u) : Work may s u where
  memory := g.memory ∘ h.memory
  rings := g.rings ∘ h.rings
  orphans := g.orphans ∘ h.orphans
  notices := g.notices ∘ h.notices
  requests := g.requests ∘ h.requests
  pending := g.pending.trans h.pending
  landed := g.landed ∘ h.landed
  window := fun hr a ha hm => (g.window (h.rings hr) a ha hm).trans (h.window hr a ha hm)

theorem Work.mono {may may' : Nat → Prop} {s t : State} (h : Work may s t) (hsub : ∀ a, may a → may' a) : Work may' s t :=
  { h with window := fun hr a ha hm => h.window hr a ha fun hin => hm (hsub a hin) }

/-- The blocks that the laws speak of are untouched. -/
theorem Work.same {may : Nat → Prop} {s t : State} (hwindow : t.window = s.window) (hcircuits : t.circuits = s.circuits)
    (horphans : t.orphans.entries = s.orphans.entries) (hnotice : t.notice = s.notice) (hrequests : t.requests = s.requests)
    (hpending : t.pending = s.pending) (hlanded : t.landed = s.landed) : Work may s t where
  memory h := by rwa [MemoryLaw, hwindow]
  rings h c := by rw [State.circuit, hcircuits]; exact h c
  orphans h := by rwa [OrphanLaw, horphans]
  notices h := by rwa [AttentionLaw, IrqLaw, hnotice]
  requests h := by rwa [RequestLaw, hrequests]
  pending := hpending
  landed h := by rwa [LandedLaw, State.writesAhead, hpending, hlanded]
  window _ a _ _ := by rw [State.peek, hwindow]; rfl

/-- Nothing is done to the laws' blocks but to the circuits, whose rings stay. -/
theorem updCircuit_work {may : Nat → Prop} (s : State) (c : CircuitNo) (f : Circuit → Circuit)
    (hf : ringsOf (f (s.circuit c)) = ringsOf (s.circuit c)) : Work may s (s.updCircuit c f) where
  memory h := h
  rings h d := by
    by_cases hd : d = c
    · subst hd
      rw [circuit_updCircuit_same]
      exact ringAreaLaw_congr hf (h d)
    · rw [circuit_updCircuit_other s c d f hd]
      exact h d
  orphans h := h
  notices h := h
  requests h := h
  pending := rfl
  landed h := h
  window _ _ _ _ := rfl

/-! ## The bytes that work writes -/

/-- The bytes that the MT16 owns and writes by itself: in the Station Block and the records but for the host-owned ones, and the
attention queue (R131, R132). -/
def ownByte (a : Nat) : Prop := (a < 0x0500 ∧ a ∉ hostBytes) ∨ (0x0600 ≤ a ∧ a < 0x0800)

/-- Beside those, a received segment reaches the ring area. -/
def workByte (segment : Prop) (a : Nat) : Prop := ownByte a ∨ (segment ∧ 0x1000 ≤ a)

theorem ownByte.work {segment : Prop} {a : Nat} (h : ownByte a) : workByte segment a := .inl h

theorem mem_hostBytes {a : Nat} : a ∈ hostBytes ↔
    a ∈ [0x0A, 0x0B, 0x0C, 0x0E] ∨ ∃ c : CircuitNo, ∃ off ∈ [0x30, 0x31, 0x32], recordBase c + off = a := by
  have hall (c : CircuitNo) : c ∈ allCircuits := by revert c; decide
  simp [hostBytes, recordBytes, hall, or_assoc, eq_comm (b := a)]

/-- A field of the Station Block that the host does not own. -/
theorem ownByte_station {a : Nat} (ha : a < 0x0100) (hhost : a ∉ [0x0A, 0x0B, 0x0C, 0x0E]) : ownByte a := by
  refine .inl ⟨by omega, fun hmem => ?_⟩
  obtain h | ⟨c, off, -, h⟩ := mem_hostBytes.mp hmem
  · exact hhost h
  · have := recordBase_range c
    omega

/-- A field of a record that the host does not own. -/
theorem ownByte_record (c : CircuitNo) {off : Nat} (hoff : off < 0x30) : ownByte (recordBase c + off) := by
  have hc := recordBase_range c
  refine .inl ⟨by omega, fun hmem => ?_⟩
  obtain h | ⟨d, off', hoff', h⟩ := mem_hostBytes.mp hmem
  · simp only [List.mem_cons, List.not_mem_nil, or_false] at h
    omega
  · simp only [List.mem_cons, List.not_mem_nil, or_false] at hoff'
    unfold recordBase at h
    omega

theorem poke_work {may : Nat → Prop} (s : State) {a : Nat} (ha : a < 65536) (hmay : may a) (v : Byte) : Work may s (s.poke a v) where
  memory := poke_wf s a v
  rings h := h
  orphans h := h
  notices h := h
  requests h := h
  pending := rfl
  landed h := h
  window _ x hx hm := peek_poke_ne s a x v ha hx fun he => hm (he ▸ hmay)

theorem pokeHalf_work {may : Nat → Prop} (s : State) {a : Nat} (ha : a + 1 < 65536) (hmay : may a) (hmay' : may (a + 1)) (v : Half) :
    Work may s (s.pokeHalf a v) := (poke_work s (by omega) hmay _).trans (poke_work _ ha hmay' _)

theorem pokeBytes_work {may : Nat → Prop} (bytes : List Byte) (s : State) (a : Nat)
    (h : ∀ x, a ≤ x → x < a + bytes.length → x < 65536 ∧ may x) : Work may s (s.pokeBytes a bytes) := by
  induction bytes generalizing s a with
  | nil => exact .refl s
  | cons v rest ih =>
    simp only [List.length_cons] at h
    obtain ⟨ha, hmay⟩ := h a (by omega) (by omega)
    exact (poke_work s ha hmay v).trans (ih _ (a + 1) fun x hlo hhi => h x (by omega) (by omega))

theorem pokeRecord_work {segment : Prop} (s : State) (c : CircuitNo) {off : Nat} (hoff : off < 0x30) (v : Byte) :
    Work (workByte segment) s (s.pokeRecord c off v) :=
  poke_work s (by have := recordBase_range c; omega) (ownByte_record c hoff).work v

theorem pokeRecordHalf_work {segment : Prop} (s : State) (c : CircuitNo) {off : Nat} (hoff : off + 1 < 0x30) (v : Half) :
    Work (workByte segment) s (s.pokeRecordHalf c off v) :=
  pokeHalf_work s (by have := recordBase_range c; omega) (ownByte_record c (by omega)).work
    (ownByte_record c (off := off + 1) hoff).work v

theorem pokeStation_work {segment : Prop} (s : State) {a : Nat} (ha : a < 0x0100) (hhost : a ∉ [0x0A, 0x0B, 0x0C, 0x0E]) (v : Byte) :
    Work (workByte segment) s (s.poke a v) := poke_work s (by omega) (ownByte_station ha hhost).work v

theorem pokeStationHalf_work {segment : Prop} (s : State) {a : Nat} (ha : a + 1 < 0x0100)
    (hhost : a ∉ [0x0A, 0x0B, 0x0C, 0x0E] ∧ a + 1 ∉ [0x0A, 0x0B, 0x0C, 0x0E]) (v : Half) :
    Work (workByte segment) s (s.pokeHalf a v) :=
  pokeHalf_work s (by omega) (ownByte_station (by omega) hhost.1).work (ownByte_station ha hhost.2).work v

/-! ## The orphan list -/

theorem sameKey_comm (a b : Orphan) : a.sameKey b = b.sameKey a := by
  simp only [Orphan.sameKey, beq_eq_decide, eq_comm]

/-- An entry apart from its being in flight, which makes no difference to its duplicates (R75). -/
def unflown (o : Orphan) : Orphan := { o with inFlight := false }

theorem orphanLaw_congr {s t : State} (ht : t.orphans.entries.map unflown = s.orphans.entries.map unflown)
    (h : OrphanLaw s) : OrphanLaw t := by
  have hkeys (l : List Orphan) : (l.Pairwise fun a b => a.sameKey b = false) ↔
      (l.map unflown).Pairwise fun a b => a.sameKey b = false := by
    rw [List.pairwise_map]
    rfl
  have hlength := congrArg List.length ht
  simp only [List.length_map] at hlength
  obtain ⟨hroom, hdup⟩ := h
  exact ⟨hlength ▸ hroom, (hkeys _).mpr (ht ▸ (hkeys _).mp hdup)⟩

theorem orphanLaw_sublist {s t : State} (ht : t.orphans.entries.Sublist s.orphans.entries) (h : OrphanLaw s) : OrphanLaw t :=
  ⟨ht.length_le.trans h.1, h.2.sublist ht⟩

theorem addOrphan_orphanLaw (s : State) (peer : Address) (peerCircuit : CircuitNo) (reply : Reply) (h : OrphanLaw s) :
    OrphanLaw (s.addOrphan peer peerCircuit reply) := by
  obtain e | ⟨-, e⟩ | ⟨hroom, hnew, e⟩ := addOrphan_cases s peer peerCircuit reply <;> rw [e]
  · exact h
  · exact h
  · simp only [Config.orphanRoom] at hroom
    refine ⟨by simp only [List.length_append, List.length_singleton]; omega, ?_⟩
    refine List.pairwise_append.mpr ⟨h.2, List.pairwise_singleton _ _, fun a ha b hb => ?_⟩
    rw [List.mem_singleton.mp hb, sameKey_comm]
    exact Bool.eq_false_iff.mpr (List.any_eq_false.mp hnew a ha)

theorem addOrphan_work {segment : Prop} (s : State) (peer : Address) (peerCircuit : CircuitNo) (reply : Reply) :
    Work (workByte segment) s (s.addOrphan peer peerCircuit reply) where
  memory h := addOrphan_wf h peer peerCircuit reply
  rings h c := by rw [circuit_addOrphan]; exact h c
  orphans := addOrphan_orphanLaw s peer peerCircuit reply
  notices h := by rwa [AttentionLaw, IrqLaw, addOrphan_notice]
  requests h := by rwa [RequestLaw, (addOrphan_only 0 s peer peerCircuit reply).rest.requests]
  pending := (addOrphan_only 0 s peer peerCircuit reply).rest.pending
  landed h := by
    have hrest := (addOrphan_only 0 s peer peerCircuit reply).rest
    rwa [LandedLaw, State.writesAhead, hrest.pending, hrest.landed]
  window _ a ha hm := addOrphan_sameWindow s peer peerCircuit reply a ha fun hin =>
    hm (ownByte_station (by simp at hin; omega) (by simp at hin ⊢; omega)).work

end Sys2Proof.Proofs
end

section
namespace Sys2Proof.Proofs

open Sys2Proof Sys2Proof.Machine Sys2Proof.Claims Sys2Proof.Safety Sys2Proof.Laws

/-! ## The attention queue -/

/-- The attention queue and the pending set, but for the room that the queue may have while pairs are pending (R160, R161). -/
structure QueueOk (n : Notice) : Prop where
  count : n.held.length = n.count
  room : n.held.length ≤ 64
  held : n.held.Nodup
  waiting : n.waiting.Nodup
  apart : ∀ p ∈ n.waiting, p ∉ n.held

/-- No pair is pending while the queue has room (R161). -/
def Settled (n : Notice) : Prop := n.waiting ≠ [] → n.held.length = 64

theorem attentionLaw_iff (s : State) : AttentionLaw s ↔ QueueOk s.notice ∧ Settled s.notice :=
  ⟨fun ⟨h1, h2, h3, h4, h5, h6⟩ => ⟨⟨h1, h2, h3, h4, h5⟩, h6⟩, fun ⟨⟨h1, h2, h3, h4, h5⟩, h6⟩ => ⟨h1, h2, h3, h4, h5, h6⟩⟩

theorem nodup_insertPair {p : NoticePair} {l : List NoticePair} (hp : p ∉ l) (h : l.Nodup) : (insertPair p l).Nodup := by
  induction l with
  | nil => exact List.nodup_singleton p
  | cons q rest ih =>
    obtain ⟨hne, hrest⟩ := not_or.mp (mt List.mem_cons.mpr hp)
    obtain ⟨hq, hnodup⟩ := List.nodup_cons.mp h
    unfold insertPair
    rw [if_neg hne]
    split
    · exact List.nodup_cons.mpr ⟨hp, h⟩
    · refine List.nodup_cons.mpr ⟨fun hmem => ?_, ih hrest hnodup⟩
      obtain he | hin := mem_insertPair.mp hmem
      · exact hne he.symm
      · exact hq hin

/-- With room in the queue, one more entry is one more held. -/
theorem count_fill_succ {n : Notice} (h : n.count < 64) : span n.takeCopy (n.fill + 1) = n.count + 1 := by
  simp only [Notice.count, span] at h ⊢
  bv_omega

@[simp] theorem writeEntry_notice (s : State) (p : NoticePair) (detail : Byte) : (s.writeEntry p detail).notice = { s.notice with
    sequence := s.notice.sequence + 1
    fill := s.notice.fill + 1
    held := s.notice.held ++ [p]
    irq := s.notice.irqEnable && s.notice.fill + 1 != s.notice.takeCopy } := by
  simp [State.writeEntry, State.updateIrq]

/-- An entry written into the room there is keeps the queue in order, and sets IRQ afresh (R158, R163). -/
theorem writeEntry_queueOk {s : State} {p : NoticePair} {detail : Byte} (h : QueueOk s.notice) (hroom : s.notice.count < 64)
    (hheld : p ∉ s.notice.held) (hwaiting : p ∉ s.notice.waiting) :
    QueueOk (s.writeEntry p detail).notice ∧ IrqLaw (s.writeEntry p detail) := by
  obtain ⟨hcount, -, hnodup, hwait, hapart⟩ := h
  refine ⟨⟨?_, ?_, ?_, ?_, ?_⟩, by rw [IrqLaw, writeEntry_notice]⟩ <;> rw [writeEntry_notice]
  · exact (List.length_append.trans (congrArg (· + 1) hcount)).trans (count_fill_succ hroom).symm
  · simp only [List.length_append, List.length_singleton]
    omega
  · exact List.nodup_append.mpr ⟨hnodup, List.nodup_singleton p, fun a ha b hb => by rintro rfl; simp_all⟩
  · exact hwait
  · intro q hq hmem
    obtain hin | he := List.mem_append.mp hmem
    · exact hapart q hq hin
    · rw [List.mem_singleton.mp he] at hq
      exact hwaiting hq

theorem raiseWith_notices (s : State) (p : NoticePair) (detail : Byte) (h : AttentionLaw s ∧ IrqLaw s) :
    AttentionLaw (s.raiseWith p detail) ∧ IrqLaw (s.raiseWith p detail) := by
  obtain ⟨hlaw, hirq⟩ := h
  obtain ⟨hok, hsettled⟩ := (attentionLaw_iff s).mp hlaw
  have hcount := hok.count
  have hmost := hok.room
  rw [attentionLaw_iff]
  obtain ⟨-, e⟩ | ⟨-, -, -, e⟩ | ⟨hheld, hfull, hwaiting, e⟩ | ⟨hheld, hroom, e⟩ := raiseWith_cases s p detail <;> rw [e]
  · exact ⟨⟨hok, hsettled⟩, hirq⟩
  · exact ⟨⟨hok, hsettled⟩, hirq⟩
  · simp only [Config.attentionRoom] at hfull
    refine ⟨⟨⟨hok.count, hok.room, hok.held, nodup_insertPair hwaiting hok.waiting, fun q hq => ?_⟩, fun _ => ?_⟩, hirq⟩
    · obtain rfl | hin := mem_insertPair.mp hq
      · exact hheld
      · exact hok.apart q hin
    · exact Nat.le_antisymm hok.room (hcount ▸ hfull)
  · simp only [Config.attentionRoom] at hroom
    have hnone : s.notice.waiting = [] := by
      by_contra hsome
      have := hsettled hsome
      omega
    obtain ⟨hok', hirq'⟩ := writeEntry_queueOk (detail := detail) hok (by omega) hheld (by simp [hnone])
    exact ⟨⟨hok', fun hsome => absurd hnone (by rwa [writeEntry_notice] at hsome)⟩, hirq'⟩

theorem drainPairs_nil (s : State) : s.drainPairs [] = s := rfl

/-- A pair drains while the queue has room (R161). -/
theorem drainPairs_cons (s : State) (p : NoticePair) (rest : List NoticePair) : s.drainPairs (p :: rest) =
    if Config.attentionRoom ≤ s.notice.count then s
    else
      let s1 : State := ({ s with notice.waiting := rest } : State).showWaiting
      (s1.writeEntry p (s1.detailOf p)).drainPairs rest := rfl

/-- A drain keeps the queue in order and stops only at a full queue or with none pending (R161). -/
theorem drainPairs_queueOk (l : List NoticePair) {s : State} (hl : s.notice.waiting = l) (h : QueueOk s.notice) :
    QueueOk (s.drainPairs l).notice ∧ Settled (s.drainPairs l).notice := by
  induction l generalizing s with
  | nil => exact ⟨h, fun hsome => absurd hl hsome⟩
  | cons p rest ih =>
    rw [drainPairs_cons]
    split
    · next hfull => exact ⟨h, fun _ => Nat.le_antisymm h.room (h.count ▸ hfull)⟩
    · next hroom =>
      simp only [Config.attentionRoom] at hroom
      obtain ⟨hcount, hmost, hnodup, hwait, hapart⟩ := h
      rw [hl] at hwait hapart
      obtain ⟨hp, hrest⟩ := List.nodup_cons.mp hwait
      let s1 : State := ({ s with notice.waiting := rest } : State).showWaiting
      have hok : QueueOk s1.notice := ⟨hcount, hmost, hnodup, hrest, fun q hq => hapart q (List.mem_cons_of_mem p hq)⟩
      have hentry := writeEntry_queueOk (detail := s1.detailOf p) hok (Nat.lt_of_not_le hroom)
        (hapart p List.mem_cons_self) hp
      exact ih (by rw [writeEntry_notice]; rfl) hentry.1

theorem drainPairs_full (s : State) (l : List NoticePair) (h : l ≠ [] → 64 ≤ s.notice.count) : s.drainPairs l = s := by
  cases l with
  | nil => rfl
  | cons p rest => exact if_pos (h (List.cons_ne_nil p rest))

/-- Where no pair waits that has room, there is nothing to drain. -/
theorem drainWaiting_of_law {s : State} (h : AttentionLaw s) : s.drainWaiting = s := by
  obtain ⟨hok, hsettled⟩ := (attentionLaw_iff s).mp h
  exact drainPairs_full s _ fun hsome => (hok.count.symm.trans (hsettled hsome)).ge

/-- The pairs that a take passes leave the noted set, as many as the take copy moves on (R162). -/
theorem takeAttention_queueOk {n : Notice} {v : Byte} (h : QueueOk n) (hv : span n.takeCopy v ≤ n.count) :
    QueueOk { n with takeCopy := v, held := n.held.drop (span n.takeCopy v) } := by
  obtain ⟨hcount, hmost, hnodup, hwait, hapart⟩ := h
  refine ⟨?_, ?_, hnodup.sublist (List.drop_sublist _ _), hwait, fun p hp hmem => hapart p hp (List.mem_of_mem_drop hmem)⟩
  · rw [List.length_drop, hcount]
    simp only [Notice.count, span] at hv ⊢
    bv_omega
  · rw [List.length_drop]
    omega

theorem updateIrq_irqLaw (s : State) : IrqLaw s.updateIrq := rfl

theorem takeAttention_notices (s : State) (v : Byte) (h : AttentionLaw s ∧ IrqLaw s) :
    AttentionLaw (s.takeAttention v) ∧ IrqLaw (s.takeAttention v) := by
  obtain ⟨hok, -⟩ := (attentionLaw_iff s).mp h.1
  unfold State.takeAttention
  split
  · next hv =>
    refine ⟨(attentionLaw_iff _).mpr ?_, updateIrq_irqLaw _⟩
    obtain ⟨h1, h2⟩ := drainPairs_queueOk _ (s := { s with notice.takeCopy := v, notice.held := s.notice.held.drop _ }) rfl
      (takeAttention_queueOk hok hv)
    exact ⟨⟨h1.count, h1.room, h1.held, h1.waiting, h1.apart⟩, h2⟩
  · exact h

/-! ## The Notice Unit's work -/

/-- The entries of the attention queue, and the Notice Unit's fields. -/
theorem ownByte_attention {a : Nat} (h : (0x0600 ≤ a ∧ a < 0x0800) ∨ a ∈ [0x0F, 0x10, 0x11, 0x12]) : ownByte a := by
  obtain h | h := h
  · exact .inr h
  · simp only [List.mem_cons, List.not_mem_nil, or_false] at h
    exact ownByte_station (by omega) (by simp; omega)

/-- An operation of the Notice Unit that keeps the canonical form, the queue's laws and the window beside it. -/
theorem NoticeOnly.work {segment : Prop} {s t : State} (h : NoticeOnly s t) (hwf : s.window.wf = true → t.window.wf = true)
    (hlaws : AttentionLaw s ∧ IrqLaw s → AttentionLaw t ∧ IrqLaw t)
    (hwindow : ∀ x, x < 65536 → ¬ownByte x → t.peek x = s.peek x) : Work (workByte segment) s t where
  memory := hwf
  rings hr c := by rw [h.circuit]; exact hr c
  orphans ho := by rwa [OrphanLaw, h.orphans]
  notices := hlaws
  requests hr := by rwa [RequestLaw, h.requests]
  pending := h.pending
  landed hl := by rwa [LandedLaw, State.writesAhead, h.pending, h.landed]
  window _ a ha hm := hwindow a ha fun hown => hm hown.work

theorem raiseWith_work {segment : Prop} (s : State) (p : NoticePair) (detail : Byte) :
    Work (workByte segment) s (s.raiseWith p detail) := by
  refine NoticeOnly.work (raiseWith_only s p detail) (raiseWith_wf s p detail) (raiseWith_notices s p detail) fun x hx hown => ?_
  have hout := mt ownByte_attention hown
  simp only [List.mem_cons, List.not_mem_nil, or_false] at hout
  exact peek_raiseWith_ne s p detail x hx (by omega) (by omega)

theorem raise_work {segment : Prop} (s : State) (p : NoticePair) : Work (workByte segment) s (s.raise p) := raiseWith_work s p _

theorem raiseOption_work {segment : Prop} (s : State) (p : Option NoticePair) : Work (workByte segment) s (s.raiseOption p) := by
  cases p with
  | none => exact .refl s
  | some p => exact raise_work s p

/-- An entry is written in the attention queue, with the sequence and the fill index (R158). -/
theorem peek_writeEntry_ne (s : State) (p : NoticePair) (detail : Byte) {x : Nat} (hx : x < 65536) (hown : ¬ownByte x) :
    (s.writeEntry p detail).peek x = s.peek x := by
  have hout := mt ownByte_attention hown
  simp only [List.mem_cons, List.not_mem_nil, or_false] at hout
  have hr := entryOffset_range s.notice.fill
  have hl : ([s.notice.sequence, p.sourceByte, p.causeByte, detail] ++ s.snapshotOf p).length = 8 := by
    simp [snapshotOf_length]
  simp only [State.writeEntry, peek_updateIrq]
  rw [peek_poke_ne _ _ _ _ (by decide) hx (by simp only [offAttentionFill]; omega),
    peek_poke_ne _ _ _ _ (by decide) hx (by simp only [offAttentionSequence]; omega)]
  exact peek_pokeBytes_ne _ s _ x (by omega) hx (by omega)

theorem writeEntry_wf {s : State} (hwf : s.window.wf = true) (p : NoticePair) (detail : Byte) :
    (s.writeEntry p detail).window.wf = true :=
  poke_wf _ _ _ (poke_wf _ _ _ (pokeBytes_wf ([s.notice.sequence, p.sourceByte, p.causeByte, detail] ++ s.snapshotOf p) s
    (entryOffset s.notice.fill) hwf))

theorem showWaiting_wf {s : State} (hwf : s.window.wf = true) : s.showWaiting.window.wf = true := poke_wf _ _ _ (poke_wf _ _ _ hwf)

theorem drainPairs_wf (l : List NoticePair) {s : State} (hwf : s.window.wf = true) : (s.drainPairs l).window.wf = true := by
  induction l generalizing s with
  | nil => exact hwf
  | cons p rest ih =>
    rw [drainPairs_cons]
    split
    · exact hwf
    · exact ih (writeEntry_wf (showWaiting_wf (s := { s with notice.waiting := rest }) hwf) p _)

theorem peek_drainPairs_ne (l : List NoticePair) (s : State) {x : Nat} (hx : x < 65536) (hown : ¬ownByte x) :
    (s.drainPairs l).peek x = s.peek x := by
  induction l generalizing s with
  | nil => rfl
  | cons p rest ih =>
    rw [drainPairs_cons]
    split
    · rfl
    · rw [ih, peek_writeEntry_ne _ _ _ hx hown]
      exact showWaiting_sameWindow { s with notice.waiting := rest } x hx fun hin =>
        hown (ownByte_attention (.inr (by simp at hin ⊢; omega)))

theorem drainWaiting_work {segment : Prop} (s : State) : Work (workByte segment) s s.drainWaiting :=
  NoticeOnly.work (drainWaiting_only s) (drainPairs_wf _) (fun h => by rwa [drainWaiting_of_law h.1])
    fun _ hx hown => peek_drainPairs_ne _ s hx hown

theorem takeAttention_work {segment : Prop} (s : State) (v : Byte) : Work (workByte segment) s (s.takeAttention v) := by
  refine NoticeOnly.work (takeAttention_only s v) (fun hwf => ?_) (takeAttention_notices s v) fun x hx hown => ?_ <;>
    unfold State.takeAttention <;> split
  · exact drainPairs_wf _ (s := { s with notice.takeCopy := v, notice.held := _ }) hwf
  · exact hwf
  · exact peek_drainPairs_ne _ { s with notice.takeCopy := v, notice.held := s.notice.held.drop _ } hx hown
  · rfl

theorem takeInterruptEnable_work {segment : Prop} (s : State) (v : Byte) : Work (workByte segment) s (s.takeInterruptEnable v) :=
  NoticeOnly.work (takeInterruptEnable_only s v) (fun h => h) (fun h => ⟨h.1, rfl⟩) fun _ _ _ => rfl

end Sys2Proof.Proofs
end

section
namespace Sys2Proof.Proofs

open Sys2Proof Sys2Proof.Machine Sys2Proof.Claims Sys2Proof.Safety Sys2Proof.Laws Sys2Proof.Laws.FrameLength

section CircuitWork

variable {segment : Prop}

/-! ## The work of the Circuit Table's shared operations -/

theorem forget_work (s : State) (c : CircuitNo) (f : Discharged → Discharged) : Work (workByte segment) s (s.forget c f) :=
  .same rfl rfl rfl rfl rfl rfl rfl

theorem clearAckPoll_work (s : State) (c : CircuitNo) : Work (workByte segment) s (s.clearAckPoll c) :=
  (forget_work s c _).trans (updCircuit_work _ c _ rfl)

theorem clearControl_work (s : State) (c : CircuitNo) : Work (workByte segment) s (s.clearControl c) :=
  (forget_work s c _).trans (updCircuit_work _ c _ rfl)

theorem oweControl_work (s : State) (c : CircuitNo) (kind : ControlKind) : Work (workByte segment) s (s.oweControl c kind) :=
  updCircuit_work s c _ rfl

theorem oweAck_work (s : State) (c : CircuitNo) : Work (workByte segment) s (s.oweAck c) := updCircuit_work s c _ rfl

theorem setCircuitState_work (s : State) (c : CircuitNo) (st : CircuitState) : Work (workByte segment) s (s.setCircuitState c st) :=
  (updCircuit_work s c (fun k => { k with state := st }) rfl).trans (pokeRecord_work _ c (by decide) _)

theorem writeCompletion_work (s : State) (c : CircuitNo) (d : Completion) : Work (workByte segment) s (s.writeCompletion c d) := by
  have hbase := recordBase_range c
  rw [writeCompletion_eq_pokeBytes]
  refine (updCircuit_work s c _ rfl).trans (pokeBytes_work _ _ _ fun x hlo hhi => ⟨?_, ?_⟩)
  · simp only [completionBytes, List.length_cons, List.length_nil] at hhi
    omega
  · simp only [completionBytes, List.length_cons, List.length_nil] at hhi
    obtain ⟨off, rfl⟩ := Nat.exists_eq_add_of_le hlo
    rw [Nat.add_assoc]
    exact (ownByte_record c (by omega)).work

theorem writeCompletionOption_work (s : State) (c : CircuitNo) (d : Option Completion) :
    Work (workByte segment) s (s.writeCompletionOption c d) := by
  cases d with
  | none => exact .refl s
  | some d => exact writeCompletion_work s c d

theorem writeUnsent_work (s : State) (c : CircuitNo) : Work (workByte segment) s (s.writeUnsent c) :=
  (updCircuit_work s c (fun k => { k with unsentCount := (s.circuit c).postedCopy - (s.circuit c).txDone }) rfl).trans
    (pokeRecord_work _ c (by decide) _)

theorem releaseOwed_work (s : State) (c : CircuitNo) : Work (workByte segment) s (s.releaseOwed c) := by
  have hcleared : Work (workByte segment) s ((s.clearAckPoll c).updCircuit c fun k => { k with callOwed := false }) :=
    (clearAckPoll_work s c).trans (updCircuit_work _ c _ rfl)
  unfold State.releaseOwed
  refine .trans ?_ (clearControl_work _ c)
  split
  · exact hcleared.trans (addOrphan_work _ _ _ _)
  · exact hcleared

theorem goFree_work (s : State) (c : CircuitNo) (done : Option Completion) : Work (workByte segment) s (s.goFree c done) := by
  have hunsent : Work (workByte segment) s (if (s.circuit c).state.live then s.writeUnsent c else s) := by
    split
    · exact writeUnsent_work s c
    · exact .refl s
  exact (((hunsent.trans (releaseOwed_work _ c)).trans (updCircuit_work _ c _ rfl)).trans
    (writeCompletionOption_work _ c done)).trans (setCircuitState_work _ c .free)

theorem freeWith_work (s : State) (c : CircuitNo) (outcome : CompletionOutcome) : Work (workByte segment) s (s.freeWith c outcome) :=
  (goFree_work s c _).trans (raiseOption_work _ _)

theorem completeInto_work (s : State) (c : CircuitNo) (outcome : CompletionOutcome) (st : CircuitState) :
    Work (workByte segment) s (s.completeInto c outcome st) :=
  (((writeCompletionOption_work s c _).trans (updCircuit_work _ c _ rfl)).trans (setCircuitState_work _ c st)).trans
    (raiseOption_work _ _)

theorem enterEnded_work (s : State) (c : CircuitNo) (cause : EndCause) (confirm : Bool) :
    Work (workByte segment) s (s.enterEnded c cause confirm) := by
  have hcontrol : Work (workByte segment) s (if confirm then s.oweControl c .confirm else s.clearControl c) := by
    cases confirm
    · exact clearControl_work s c
    · exact oweControl_work s c .confirm
  exact (((((hcontrol.trans (clearAckPoll_work _ c)).trans (updCircuit_work _ c _ rfl)).trans (writeUnsent_work _ c)).trans
    (pokeRecord_work _ c (by decide) _)).trans (setCircuitState_work _ c .ended)).trans (raise_work _ _)

theorem lose_work (s : State) (c : CircuitNo) (cause : EndCause) : Work (workByte segment) s (s.lose c cause) := by
  unfold State.lose
  split
  · exact freeWith_work s c .lost
  · exact enterEnded_work s c cause false
  · exact freeWith_work s c .lost
  · exact freeWith_work s c .unconfirmed
  · split
    · exact freeWith_work s c .lost
    · exact .refl s
  · exact .refl s
  · exact .refl s

theorem testDrain_work (s : State) (c : CircuitNo) : Work (workByte segment) s (s.testDrain c) := by
  unfold State.testDrain
  split
  · exact (((clearAckPoll_work s c).trans (oweControl_work _ c .clear)).trans (updCircuit_work _ c _ rfl)).trans
      (setCircuitState_work _ c .clearing)
  · exact .refl s

theorem testStall_work (s : State) (c : CircuitNo) : Work (workByte segment) s (s.testStall c) := updCircuit_work s c _ rfl

theorem takeContext_work (s : State) (c : CircuitNo) (kind : RequestKind) (r : RequestRecord) :
    Work (workByte segment) s (s.takeContext c kind r) :=
  ((((((((updCircuit_work s c _ rfl).trans (pokeRecord_work _ c (by decide) _)).trans (pokeRecord_work _ c (by decide) _)).trans
    (pokeRecord_work _ c (by decide) _)).trans (pokeRecord_work _ c (by decide) _)).trans (pokeRecord_work _ c (by decide) _)).trans
    (pokeRecord_work _ c (by decide) _)).trans (pokeRecord_work _ c (by decide) _)).trans (pokeRecord_work _ c (by decide) _)

theorem ringsOf_startTransfer (k : Circuit) : ringsOf k.startTransfer = ringsOf k := by
  unfold Circuit.startTransfer
  cases k.mode <;> rfl

theorem startTransfer_work (s : State) (c : CircuitNo) : Work (workByte segment) s (s.startTransfer c) :=
  ((((((((updCircuit_work s c _ rfl).trans (pokeRecord_work _ c (by decide) _)).trans (pokeRecord_work _ c (by decide) _)).trans
    (updCircuit_work _ c _ (ringsOf_startTransfer _))).trans (pokeRecordHalf_work _ c (by decide) _)).trans
    (pokeRecordHalf_work _ c (by decide) _)).trans (pokeRecordHalf_work _ c (by decide) _)).trans
    (pokeRecordHalf_work _ c (by decide) _)).trans (pokeRecord_work _ c (by decide) _)

/-! ## The work of the Transfer Engine -/

theorem noticeFill_work (s : State) (c : CircuitNo) (endMark : Bool) : Work (workByte segment) s (s.noticeFill c endMark) := by
  unfold State.noticeFill
  split
  · exact (updCircuit_work s c _ rfl).trans (raise_work _ _)
  · exact updCircuit_work s c _ rfl

theorem noticeRelease_work (s : State) (c : CircuitNo) (before : Nat) : Work (workByte segment) s (s.noticeRelease c before) := by
  unfold State.noticeRelease
  split
  · exact raise_work s _
  · exact .refl s

/-- A slot of the receive ring lies in the ring area (R141). -/
theorem rxSlot_range {k : Circuit} (hk : RingAreaLaw k) (hsize : 0 < k.rxSize) : 0x1000 ≤ k.rxSlot ∧ k.rxSlot + 256 ≤ 65536 := by
  obtain ⟨-, hrx⟩ := hk
  obtain ⟨hlo, hhi⟩ := hrx hsize
  have hindex : k.rxFill.toNat % k.rxSize + 1 ≤ k.rxSize := Nat.mod_lt _ hsize
  simp only [Circuit.rxSlot, slotOffset]
  omega

theorem freeSlots_pos {k : Circuit} (h : k.freeSlots ≠ 0) : 0 < k.rxSize := by
  simp only [Circuit.freeSlots] at h
  omega

/-- A segment is written in a slot of the ring area, with its header before the payload (R140). -/
theorem peek_writeSlot_ne (s : State) (c : CircuitNo) (f : Frame) (gapped : Bool) (missing : Nat) {x : Nat}
    (hring : RingAreaLaw (s.circuit c)) (hfree : (s.circuit c).freeSlots ≠ 0) (hlength : f.payload.length ≤ 252) (hx : x < 65536)
    (hout : x < (s.circuit c).rxSlot ∨ (s.circuit c).rxSlot + 4 + f.payload.length ≤ x) :
    (s.writeSlot c f gapped missing).peek x = s.peek x := by
  have hslot := rxSlot_range hring (freeSlots_pos hfree)
  simp only [State.writeSlot]
  rw [peek_poke_ne _ _ _ _ (by omega) hx (by omega), peek_poke_ne _ _ _ _ (by omega) hx (by omega),
    peek_poke_ne _ _ _ _ (by omega) hx (by omega), peek_poke_ne _ _ _ _ (by omega) hx (by omega),
    peek_pokeBytes_ne _ _ _ _ (by omega) hx (by omega)]

theorem writeSlot_wf {s : State} (hwf : s.window.wf = true) (c : CircuitNo) (f : Frame) (gapped : Bool) (missing : Nat) :
    (s.writeSlot c f gapped missing).window.wf = true :=
  poke_wf _ _ _ (poke_wf _ _ _ (poke_wf _ _ _ (poke_wf _ _ _ (pokeBytes_wf _ s _ hwf))))

theorem writeSlot_eq (s : State) (c : CircuitNo) (f : Frame) (gapped : Bool) (missing : Nat) :
    s.writeSlot c f gapped missing = { s with window := (s.writeSlot c f gapped missing).window } := by
  simp only [State.writeSlot, State.poke]
  rw [pokeBytes_eq]

theorem writeSlot_work (s : State) (c : CircuitNo) (f : Frame) (gapped : Bool) (missing : Nat) (hfree : (s.circuit c).freeSlots ≠ 0)
    (hlength : f.payload.length ≤ 252) : Work (workByte True) s (s.writeSlot c f gapped missing) := by
  have hsame := writeSlot_eq s c f gapped missing
  exact {
    memory := fun hwf => writeSlot_wf hwf c f gapped missing
    rings := fun h d => by rw [hsame]; exact h d
    orphans := fun h => by rw [hsame]; exact h
    notices := fun h => by rw [hsame]; exact h
    requests := fun h => by rw [hsame]; exact h
    pending := by rw [hsame]
    landed := fun h => by rw [hsame]; exact h
    window := fun hr x hx hm => by
      have hslot := rxSlot_range (hr c) (freeSlots_pos hfree)
      have hlow : ¬0x1000 ≤ x := fun hring => hm (.inr ⟨trivial, hring⟩)
      exact peek_writeSlot_ne s c f gapped missing (hr c) hfree hlength hx (by omega) }

theorem advanceFill_work (s : State) (c : CircuitNo) (seq : Seq) : Work (workByte segment) s (s.advanceFill c seq) :=
  (updCircuit_work s c (fun k => { k with rxFill := k.rxFill + 1, expectedSeq := seq + 1 }) rfl).trans
    (pokeRecord_work _ c (by decide) _)

theorem markGap_work (s : State) (c : CircuitNo) : Work (workByte segment) s (s.markGap c) := by
  have hcounted : Work (workByte segment) s ((s.updCircuit c fun k => { k with gapCount := k.gapCount + 1 }).pokeRecordHalf c
      recGapCount ((s.circuit c).gapCount + 1)) := (updCircuit_work s c _ rfl).trans (pokeRecordHalf_work _ c (by decide) _)
  unfold State.markGap
  dsimp only
  split
  · exact hcounted
  · exact (hcounted.trans (updCircuit_work _ c _ rfl)).trans (pokeRecordHalf_work _ c (by decide) _)

theorem takeAssuredSegment_work (s : State) (c : CircuitNo) (f : Frame) (hlength : f.payload.length ≤ 252) :
    Work (workByte True) s (s.takeAssuredSegment c f) := by
  unfold State.takeAssuredSegment
  dsimp only
  split
  · exact oweAck_work s c
  · split
    · exact ((updCircuit_work s c _ rfl).trans (pokeRecordHalf_work _ c (by decide) _)).trans (oweAck_work _ c)
    · next hfree =>
      exact (((writeSlot_work s c f false 0 hfree hlength).trans (advanceFill_work _ c f.seq)).trans (oweAck_work _ c)).trans
        (noticeFill_work _ c f.endMark)

theorem takePlainSegment_work (s : State) (c : CircuitNo) (f : Frame) (hlength : f.payload.length ≤ 252) :
    Work (workByte True) s (s.takePlainSegment c f) := by
  unfold State.takePlainSegment
  dsimp only
  split
  · exact (updCircuit_work s c _ rfl).trans (pokeRecordHalf_work _ c (by decide) _)
  · next hfree =>
    split
    · exact ((writeSlot_work s c f false 0 hfree hlength).trans (advanceFill_work _ c f.seq)).trans (noticeFill_work _ c f.endMark)
    · exact ((((writeSlot_work s c f true _ hfree hlength).trans (markGap_work _ c)).trans (advanceFill_work _ c f.seq)).trans
        (raiseWith_work _ _ _)).trans (noticeFill_work _ c f.endMark)

theorem takeAck_work (s : State) (c : CircuitNo) (a credit : Seq) : Work (workByte segment) s (s.takeAck c a credit) := by
  unfold State.takeAck
  dsimp only
  split
  · exact ((((updCircuit_work s c (fun k => k.acknowledge a credit) rfl).trans (pokeRecord_work _ c (by decide) _)).trans
      (noticeRelease_work _ c _)).trans (testDrain_work _ c)).trans (testStall_work _ c)
  · split
    · exact (updCircuit_work s c _ rfl).trans (testStall_work _ c)
    · exact .refl s

theorem takeData_work (s : State) (c : CircuitNo) (f : Frame) (hlength : f.payload.length ≤ 252) :
    Work (workByte True) s (s.takeData c f) := by
  unfold State.takeData
  split
  · exact (takeAssuredSegment_work s c f hlength).trans (takeAck_work _ c _ _)
  · exact takePlainSegment_work s c f hlength

theorem takeAckFrame_work (s : State) (c : CircuitNo) (f : Frame) : Work (workByte segment) s (s.takeAckFrame c f) := by
  unfold State.takeAckFrame
  split
  · refine .trans ?_ (takeAck_work _ c _ _)
    split
    · exact oweAck_work s c
    · exact .refl s
  · exact .refl s

theorem recordFault_work (s : State) (c : CircuitNo) (kind : FaultKind) : Work (workByte segment) s (s.recordFault c kind) :=
  ((updCircuit_work s c (fun k => { k with faultKind := kind }) rfl).trans (pokeRecord_work _ c (by decide) _)).trans
    (raise_work _ _)

theorem takePost_work (s : State) (c : CircuitNo) (v : Byte) : Work (workByte segment) s (s.takePost c v) := by
  unfold State.takePost
  dsimp only
  split
  · exact .refl s
  · split
    · split
      · exact (updCircuit_work s c _ rfl).trans (testStall_work _ c)
      · exact updCircuit_work s c _ rfl
    · exact recordFault_work s c .postFault

theorem takeRelease_work (s : State) (c : CircuitNo) (v : Byte) : Work (workByte segment) s (s.takeRelease c v) := by
  unfold State.takeRelease
  dsimp only
  split
  · exact .refl s
  · split
    · split
      · exact (updCircuit_work s c _ rfl).trans (oweAck_work _ c)
      · exact updCircuit_work s c _ rfl
    · exact recordFault_work s c .releaseFault

theorem takeGapAck_work (s : State) (c : CircuitNo) : Work (workByte segment) s (s.takeGapAck c) :=
  (updCircuit_work s c (fun k => { k with firstGap := none }) rfl).trans (pokeRecordHalf_work _ c (by decide) _)

theorem dataRetryOut_work (s : State) (c : CircuitNo) : Work (workByte segment) s (s.dataRetryOut c) := by
  unfold State.dataRetryOut
  dsimp only
  split
  · exact (updCircuit_work s c _ rfl).trans (lose_work _ c _)
  · exact updCircuit_work s c _ rfl

theorem probeOut_work (s : State) (c : CircuitNo) : Work (workByte segment) s (s.probeOut c) :=
  (updCircuit_work s c _ rfl).trans (testStall_work _ c)

/-! ## The work on every circuit, and on a received frame -/

theorem eachCircuit_work {may : Nat → Prop} (f : CircuitNo → State → State) (hf : ∀ c s, Work may s (f c s)) (s : State) :
    Work may s (s.eachCircuit f) := by
  unfold State.eachCircuit
  induction allCircuits generalizing s with
  | nil => exact .refl s
  | cons c rest ih => exact (hf c s).trans (ih (f c s))

theorem clearAllOwed_work (s : State) : Work (workByte segment) s s.clearAllOwed :=
  (eachCircuit_work _ (fun c s => (clearAckPoll_work s c).trans (clearControl_work _ c)) s).trans (.same rfl rfl rfl rfl rfl rfl rfl)

theorem loseAll_work (s : State) (cause : EndCause) : Work (workByte segment) s (s.loseAll cause) :=
  eachCircuit_work _ (fun c s => lose_work s c cause) s

theorem loseAbsent_work (s : State) (a : Address) : Work (workByte segment) s (s.loseAbsent a) := by
  refine eachCircuit_work _ (fun c s => ?_) s
  split
  · exact lose_work s c .lostAbsent
  · exact .refl s

theorem strayFrame_work (s : State) (k : Kind) (f : Frame) : Work (workByte segment) s (s.strayFrame k f) := by
  unfold State.strayFrame
  split
  · exact addOrphan_work s _ _ _
  · exact .refl s

theorem ringsOf_withInitialLimit (k : Circuit) (credit : Seq) : ringsOf (k.withInitialLimit credit) = ringsOf k := by
  unfold Circuit.withInitialLimit
  cases k.mode <;> rfl

theorem acceptAnswer_work (s : State) (c : CircuitNo) (f : Frame) : Work (workByte segment) s (s.acceptAnswer c f) := by
  have hstale : Work (workByte segment) s (s.loseStaleOther c f) := by
    unfold State.loseStaleOther
    split
    · exact lose_work s _ _
    · exact .refl s
  exact ((hstale.trans (updCircuit_work _ c _ (ringsOf_withInitialLimit _ f.credit))).trans
    (pokeRecord_work _ c (by decide) _)).trans (completeInto_work _ c _ _)

theorem callingFrame_work (s : State) (k : Kind) (c : CircuitNo) (f : Frame) : Work (workByte segment) s (s.callingFrame k c f) := by
  unfold State.callingFrame
  split
  · split
    · exact acceptAnswer_work s c f
    · exact strayFrame_work s _ f
  · split
    · exact freeWith_work s c _
    · exact .refl s
  · exact .refl s

theorem clearedByPeer_work (s : State) (c : CircuitNo) (outcome : CompletionOutcome) :
    Work (workByte segment) s (s.clearedByPeer c outcome) := (oweControl_work s c .confirm).trans (freeWith_work _ c outcome)

/-- Only a DATA frame is a segment. -/
theorem takeData_segment_work {k : Kind} (hk : k = .data) (s : State) (c : CircuitNo) (f : Frame) (hlength : f.payload.length ≤ 252) :
    Work (workByte (k = .data)) s (s.takeData c f) :=
  (takeData_work s c f hlength).mono fun _ h => h.imp id fun ⟨_, hring⟩ => ⟨hk, hring⟩

theorem openFrame_work (s : State) (k : Kind) (c : CircuitNo) (f : Frame) (hlength : f.payload.length ≤ 252) :
    Work (workByte (k = .data)) s (s.openFrame k c f) := by
  unfold State.openFrame
  split
  · exact takeData_segment_work rfl s c f hlength
  · exact takeAckFrame_work s c f
  · exact enterEnded_work s c _ _
  · exact .refl s

theorem drainingFrame_work (s : State) (k : Kind) (c : CircuitNo) (f : Frame) (hlength : f.payload.length ≤ 252) :
    Work (workByte (k = .data)) s (s.drainingFrame k c f) := by
  unfold State.drainingFrame
  split
  · exact takeData_segment_work rfl s c f hlength
  · exact takeAckFrame_work s c f
  · exact clearedByPeer_work s c _
  · exact .refl s

theorem clearingFrame_work (s : State) (k : Kind) (c : CircuitNo) : Work (workByte segment) s (s.clearingFrame k c) := by
  unfold State.clearingFrame
  split
  · exact clearedByPeer_work s c _
  · exact freeWith_work s c _
  · exact .refl s

theorem endedFrame_work (s : State) (k : Kind) (c : CircuitNo) (f : Frame) : Work (workByte segment) s (s.endedFrame k c f) := by
  unfold State.endedFrame
  split
  · split
    · exact .refl s
    · exact addOrphan_work s _ _ _
  · split
    · exact oweControl_work s c _
    · exact .refl s
  · exact .refl s

theorem takeCircuitFrame_work (s : State) (k : Kind) (f : Frame) (hlength : f.payload.length ≤ 252) :
    Work (workByte (k = .data)) s (s.takeCircuitFrame k f) := by
  have stray := strayFrame_work (segment := k = .data) s k f
  unfold State.takeCircuitFrame
  dsimp only
  split
  · exact stray
  · split
    · exact stray
    · exact stray
    · split
      · exact callingFrame_work s k _ f
      · exact stray
    · split
      · exact openFrame_work s k _ f hlength
      · exact stray
    · split
      · exact drainingFrame_work s k _ f hlength
      · exact stray
    · split
      · exact clearingFrame_work s k _
      · exact stray
    · split
      · exact endedFrame_work s k _ f
      · exact stray

theorem acceptCall_work (s : State) (c : CircuitNo) (f : Frame) : Work (workByte segment) s (s.acceptCall c f) :=
  (((((updCircuit_work s c _ (ringsOf_withInitialLimit _ f.credit)).trans (pokeRecord_work _ c (by decide) _)).trans
    (pokeRecord_work _ c (by decide) _)).trans (pokeRecord_work _ c (by decide) _)).trans (oweControl_work _ c .answer)).trans
    (completeInto_work _ c _ _)

theorem matchListener_work (s : State) (f : Frame) : Work (workByte segment) s (s.matchListener f) := by
  unfold State.matchListener
  split
  · exact acceptCall_work s _ f
  · exact addOrphan_work s _ _ _

theorem takeCall_work (s : State) (f : Frame) : Work (workByte segment) s (s.takeCall f) := by
  unfold State.takeCall
  split
  · exact .refl s
  · unfold State.answerCall
    split
    · exact matchListener_work s f
    · split
      · split
        · exact oweControl_work s _ _
        · exact .refl s
      · exact (lose_work s _ _).trans (matchListener_work _ f)

theorem tableFrame_work (s : State) (k : Kind) (f : Frame) (hlength : f.payload.length ≤ 252) :
    Work (workByte (k = .data)) s (s.tableFrame k f) := by
  unfold State.tableFrame
  split
  · exact .refl s
  · split
    · exact .refl s
    · exact takeCall_work s f
    · exact takeCircuitFrame_work s _ f hlength

end CircuitWork

end Sys2Proof.Proofs
end

section
namespace Sys2Proof.Proofs

open Sys2Proof Sys2Proof.Machine Sys2Proof.Claims Sys2Proof.Safety Sys2Proof.Laws Sys2Proof.Laws.FrameLength

section StationWork

variable {segment : Prop}

/-! ## The work of the Request Unit -/

theorem writeRefusal_work (s : State) (id circuit kind : Byte) (outcome : RefusalOutcome) :
    Work (workByte segment) s (s.writeRefusal id circuit kind outcome) where
  memory hwf := writeRefusal_wf hwf id circuit kind outcome
  rings h d := by rw [writeRefusal_eq]; exact h d
  orphans h := by rw [writeRefusal_eq]; exact h
  notices h := by rw [writeRefusal_eq]; exact h
  requests h := by rw [writeRefusal_eq]; exact h
  pending := by rw [writeRefusal_eq]; rfl
  landed h := by rw [writeRefusal_eq]; exact h
  window _ a ha hm := writeRefusal_sameWindow s id circuit kind outcome a ha fun hin =>
    hm (ownByte_station (by rw [mem_bytesFrom] at hin; omega) (by rw [mem_bytesFrom] at hin; simp; omega)).work

theorem takeRequestPost_work (s : State) (v : Byte) : Work (workByte segment) s (s.takeRequestPost v) := by
  unfold State.takeRequestPost
  dsimp only
  split
  · next hfits => exact ⟨id, id, id, id, fun _ => hfits.1, rfl, id, fun _ _ _ _ => rfl⟩
  · exact (writeRefusal_work s v 0xFF 0 .queueFault).trans (raise_work _ _)

theorem placeCall_work (s : State) (c : CircuitNo) (r : RequestRecord) : Work (workByte segment) s (s.placeCall c r) :=
  ((((takeContext_work s c .openR r).trans (updCircuit_work _ c _ rfl)).trans (pokeRecord_work _ c (by decide) _)).trans
    (startTransfer_work _ c)).trans (setCircuitState_work _ c .calling)

theorem openTaken_work (s : State) (r : RequestRecord) : Work (workByte segment) s (s.openTaken r).1 := by
  unfold State.openTaken
  dsimp only
  split
  · exact placeCall_work s _ r
  · exact writeCompletion_work s _ _

theorem listenTaken_work (s : State) (r : RequestRecord) : Work (workByte segment) s (s.listenTaken r).1 :=
  ((takeContext_work s _ .listenR r).trans (startTransfer_work _ _)).trans (setCircuitState_work _ _ .listening)

theorem startDrain_work (s : State) (c : CircuitNo) (id : Byte) : Work (workByte segment) s (s.startDrain c id) :=
  (((updCircuit_work s c _ rfl).trans (setCircuitState_work _ c .draining)).trans (testDrain_work _ c)).trans (testStall_work _ c)

theorem closeTaken_work (s : State) (r : RequestRecord) : Work (workByte segment) s (s.closeTaken r).1 := by
  unfold State.closeTaken
  dsimp only
  split
  · exact goFree_work s _ _
  · exact startDrain_work s _ _

theorem abortReply_work (s : State) (c : CircuitNo) (k : Circuit) : Work (workByte segment) s (s.abortReply c k) := by
  unfold State.abortReply
  split
  · exact addOrphan_work s _ _ _
  · exact .refl s

theorem abortTaken_work (s : State) (r : RequestRecord) : Work (workByte segment) s (s.abortTaken r).1 := by
  unfold State.abortTaken
  dsimp only
  split
  · exact writeCompletion_work s _ _
  · exact (goFree_work s _ _).trans (abortReply_work _ _ _)

theorem actOn_work (s : State) (r : RequestRecord) : Work (workByte segment) s (s.actOn r).1 := by
  unfold State.actOn
  split
  · exact openTaken_work s r
  · exact listenTaken_work s r
  · exact closeTaken_work s r
  · exact abortTaken_work s r
  · exact .refl s

/-- A request that waits makes room in the queue as it is taken (R153, R154). -/
theorem advanceTake_requestLaw {s : State} (hwaits : s.requests.postCopy ≠ s.requests.take) (h : RequestLaw s) :
    RequestLaw s.advanceTake := by
  have hlaw : span s.requests.take s.requests.postCopy ≤ 16 := h
  show span (s.requests.take + 1) s.requests.postCopy ≤ 16
  simp only [span] at hlaw ⊢
  bv_omega

theorem advanceTake_work (s : State) (hwaits : s.requests.postCopy ≠ s.requests.take) :
    Work (workByte segment) s s.advanceTake :=
  { pokeStation_work (segment := segment) s (a := offRequestTake) (by decide) (by decide) (s.requests.take + 1) with
    requests := advanceTake_requestLaw hwaits }

theorem placeCall_only (s : State) (c : CircuitNo) (r : RequestRecord) : CircuitOnly c s (s.placeCall c r) :=
  ((((takeContext_only s c .openR r).trans (updCircuit_only _ c _)).trans (circuitOnly_pokeRecord c c _ _ _)).trans
    (startTransfer_only _ c)).trans (setCircuitState_only _ c .calling)

theorem startDrain_only (s : State) (c : CircuitNo) (id : Byte) : CircuitOnly c s (s.startDrain c id) :=
  (((updCircuit_only s c _).trans (setCircuitState_only _ c .draining)).trans (testDrain_only _ c)).trans (testStall_only _ c)

theorem abortReply_only (s : State) (c : CircuitNo) (k : Circuit) : CircuitOnly c s (s.abortReply c k) := by
  unfold State.abortReply
  split
  · exact addOrphan_only c s _ _ _
  · exact .refl c s

/-- A request that passes its checks reaches the circuit it names (R60, R61, R80, R89, R90). -/
theorem actOn_only (s : State) (r : RequestRecord) : CircuitOnly r.circuitNo s (s.actOn r).1 := by
  unfold State.actOn
  split
  · unfold State.openTaken
    dsimp only
    split
    · exact placeCall_only s _ r
    · exact writeCompletion_only s _ _
  · exact ((takeContext_only s _ .listenR r).trans (startTransfer_only _ _)).trans (setCircuitState_only _ _ .listening)
  · unfold State.closeTaken
    dsimp only
    split
    · exact goFree_only s _ _
    · exact startDrain_only s _ _
  · unfold State.abortTaken
    dsimp only
    split
    · exact writeCompletion_only s _ _
    · exact (goFree_only s _ _).trans (abortReply_only _ _ _)
  · exact .refl _ s

theorem takeRequest_work (s : State) (hwaits : s.requests.postCopy ≠ s.requests.take) : Work (workByte segment) s s.takeRequest := by
  unfold State.takeRequest
  dsimp only
  split
  · refine ((writeRefusal_work s _ _ _ _).trans (advanceTake_work _ ?_)).trans (raise_work _ _)
    rwa [writeRefusal_eq]
  · exact ((actOn_work s _).trans (advanceTake_work _ (by rwa [(actOn_only s _).rest.requests]))).trans (raiseOption_work _ _)

theorem takeIf_work (s : State) (kind : Option RequestKind) : Work (workByte segment) s (s.takeIf kind) := by
  unfold State.takeIf
  split
  · next h =>
    simp only [State.requestWaiting, Bool.and_eq_true, bne_iff_ne] at h
    exact takeRequest_work s h.1.1
  · exact .refl s

/-! ## The work of the Roster and the Quality Monitor -/

theorem writeMirror_work (s : State) (a : Address) : Work (workByte segment) s (s.writeMirror a) := by
  have hhalf : Work (workByte segment) s (if a.toNat < 16 then s.pokeHalf offPresentLow (s.roster.presentSet.extractLsb' 0 16)
      else s.pokeHalf offPresentHigh (s.roster.presentSet.extractLsb' 16 16)) := by
    split
    · exact pokeStationHalf_work s (by decide) (by decide) _
    · exact pokeStationHalf_work s (by decide) (by decide) _
  let counted (t : State) : State := { t with roster.changeCounter := s.roster.changeCounter + 1 }
  have hcounted (t : State) : Work (workByte segment) t (counted t) := .same rfl rfl rfl rfl rfl rfl rfl
  exact (hhalf.trans (hcounted _)).trans (pokeStationHalf_work _ (a := offChangeCounter) (by decide) (by decide) _)

theorem markPresent_work (s : State) (a : Address) : Work (workByte segment) s (s.markPresent a) := by
  have hentry : Work (workByte segment) s { s with roster := s.roster.setEntry a ⟨true, 0⟩ } := .same rfl rfl rfl rfl rfl rfl rfl
  exact (hentry.trans (writeMirror_work _ a)).trans (raise_work _ _)

theorem setFullNext_work (s : State) : Work (workByte segment) s s.setFullNext := .same rfl rfl rfl rfl rfl rfl rfl

theorem oweRoll_work (s : State) : Work (workByte segment) s s.oweRoll := .same rfl rfl rfl rfl rfl rfl rfl

theorem rosterSource_work (s : State) (a : Address) : Work (workByte segment) s (s.rosterSource a) := by
  unfold State.rosterSource
  split
  · exact .refl s
  · split
    · exact .same rfl rfl rfl rfl rfl rfl rfl
    · exact (setFullNext_work s).trans (markPresent_work _ a)

theorem examineRoll_work (s : State) (f : Frame) : Work (workByte segment) s (s.examineRoll f) := by
  unfold State.examineRoll
  split
  · exact oweRoll_work s
  · exact .refl s

theorem removePeer_work (s : State) (a : Address) : Work (workByte segment) s (s.removePeer a) := by
  have hentry : Work (workByte segment) s { s.setFullNext with roster := s.roster.setEntry a RosterEntry.absent } :=
    .same rfl rfl rfl rfl rfl rfl rfl
  exact ((hentry.trans (writeMirror_work _ a)).trans (raise_work _ _)).trans (loseAbsent_work _ a)

theorem emptyRoster_work (s : State) : Work (workByte segment) s s.emptyRoster := by
  have hentries : Work (workByte segment) s { s with
      roster.entries := Vector.replicate 31 RosterEntry.absent
      roster.silence := 0
      roster.changeCounter := s.roster.changeCounter + 1 } := .same rfl rfl rfl rfl rfl rfl rfl
  exact ((hentries.trans (pokeStationHalf_work _ (a := offPresentLow) (by decide) (by decide) _)).trans
    (pokeStationHalf_work _ (a := offPresentHigh) (by decide) (by decide) _)).trans
    (pokeStationHalf_work _ (a := offChangeCounter) (by decide) (by decide) _)

/-- The counts of the Quality Monitor change its own block and its own fields. -/
theorem quality_work (s : State) (q : Quality) : Work (workByte segment) s { s with quality := q } := .same rfl rfl rfl rfl rfl rfl rfl

theorem countGood_work (s : State) : Work (workByte segment) s s.countGood :=
  (quality_work s _).trans (pokeStationHalf_work _ (a := offGoodHeard) (by decide) (by decide) _)

theorem countMalformed_work (s : State) : Work (workByte segment) s s.countMalformed :=
  (quality_work s _).trans (pokeStationHalf_work _ (a := offMalformed) (by decide) (by decide) _)

theorem countDamaged_work (s : State) : Work (workByte segment) s s.countDamaged :=
  ((quality_work s _).trans (pokeStationHalf_work _ (a := offDamagedHeard) (by decide) (by decide) _)).trans
    (pokeStationHalf_work _ (a := offWindowD) (by decide) (by decide) _)

theorem countSent_work (s : State) : Work (workByte segment) s s.countSent :=
  (quality_work s _).trans (pokeStationHalf_work _ (a := offFramesSent) (by decide) (by decide) _)

theorem countCollision_work (s : State) : Work (workByte segment) s s.countCollision :=
  ((quality_work s _).trans (pokeStationHalf_work _ (a := offOwnCollisions) (by decide) (by decide) _)).trans
    (pokeStationHalf_work _ (a := offWindowK) (by decide) (by decide) _)

theorem clearWindowCounts_work (s : State) : Work (workByte segment) s s.clearWindowCounts :=
  ((quality_work s _).trans (pokeStationHalf_work _ (a := offWindowD) (by decide) (by decide) _)).trans
    (pokeStationHalf_work _ (a := offWindowK) (by decide) (by decide) _)

theorem showSticky_work (s : State) : Work (workByte segment) s s.showSticky :=
  pokeStationHalf_work s (a := offSticky) (by decide) (by decide) _

theorem changeLevel_work (s : State) (level : Level) : Work (workByte segment) s (s.changeLevel level) := by
  have hlevel : Work (workByte segment) s (({ s with quality.level := level } : State).poke offLevel level.code) :=
    (quality_work s _).trans (pokeStation_work _ (a := offLevel) (by decide) (by decide) _)
  unfold State.changeLevel
  cases level
  · exact ((hlevel.trans (quality_work _ _)).trans (showSticky_work _)).trans (raise_work _ _)
  · exact ((hlevel.trans (quality_work _ _)).trans (showSticky_work _)).trans (raise_work _ _)

theorem endWindow_work (s : State) (p : QualityParams) : Work (workByte segment) s (s.endWindow p) := by
  unfold State.endWindow
  dsimp only
  split
  · exact (quality_work s _).trans (clearWindowCounts_work _)
  · exact ((changeLevel_work s _).trans (quality_work _ _)).trans (clearWindowCounts_work _)

/-! ## The work of the Turn Arbiter and the Transmit Selector -/

theorem beginRound_work (s : State) : Work (workByte segment) s s.beginRound := .same rfl rfl rfl rfl rfl rfl rfl

theorem frameEnd_work (s : State) (source : Option Address) : Work (workByte segment) s (s.frameEnd source) := by
  rw [frameEnd_eq]
  exact .same rfl rfl rfl rfl rfl rfl rfl

theorem slotFault_work (s : State) (c : CircuitNo) : Work (workByte segment) s (s.slotFault c) :=
  ((recordFault_work s c .slotFault).trans (lose_work _ c .slotFault)).trans (addOrphan_work _ _ _ _)

/-- What a search for a DATA does, circuit by circuit: it passes over a circuit that wants none, loses one whose slot is too long, and
stops at any other (R102). -/
theorem scanData_cons (s : State) (wants : Circuit → Option Seq) (use : Seq → FrameUse) (c : CircuitNo) (rest : List CircuitNo) :
    (wants (s.circuit c) = none ∧ s.scanData wants use (c :: rest) = s.scanData wants use rest) ∨
    (∃ seq, wants (s.circuit c) = some seq ∧ 252 < (s.peek ((s.circuit c).txSlot seq)).toNat ∧
      s.scanData wants use (c :: rest) = (s.slotFault c).scanData wants use rest) ∨
    (∃ seq, wants (s.circuit c) = some seq ∧ (s.peek ((s.circuit c).txSlot seq)).toNat ≤ 252 ∧
      s.scanData wants use (c :: rest) = (s, some (s.dataFrame c seq (use seq) ((s.circuit c).txSlot seq)))) := by
  cases hw : wants (s.circuit c) with
  | none => exact .inl ⟨rfl, by rw [State.scanData, hw]⟩
  | some seq =>
    by_cases hlong : 252 < (s.peek ((s.circuit c).txSlot seq)).toNat
    · refine .inr (.inl ⟨seq, rfl, hlong, ?_⟩)
      rw [State.scanData, hw]
      exact if_pos hlong
    · refine .inr (.inr ⟨seq, rfl, by omega, ?_⟩)
      rw [State.scanData, hw]
      exact if_neg hlong

theorem scanData_work (wants : Circuit → Option Seq) (use : Seq → FrameUse) (l : List CircuitNo) (s : State) :
    Work (workByte segment) s (s.scanData wants use l).1 := by
  induction l generalizing s with
  | nil => exact .refl s
  | cons c rest ih =>
    obtain ⟨-, h⟩ | ⟨seq, -, -, h⟩ | ⟨seq, -, -, h⟩ := scanData_cons s wants use c rest <;> rw [h]
    · exact ih s
    · exact (slotFault_work s c).trans (ih _)
    · exact .refl s

/-- The choice of a frame is a scan for resends, then one for new segments, unless nothing is searched at all (R50). -/
theorem choose_work (s : State) : Work (workByte segment) s s.choose.1 := by
  have hresend := scanData_work (segment := segment) Circuit.wantsResend .resend allCircuits s
  have hdata : Work (workByte segment) s s.chooseData.1 := by
    unfold State.chooseData
    split
    · next h => rwa [h] at hresend
    · next s1 h =>
      rw [h] at hresend
      have hnew := scanData_work (segment := segment) Circuit.wantsNew (fun _ => .newData) s1.rotationOrder s1
      split
      · next h' => exact hresend.trans (by rwa [h'] at hnew)
      · next h' => exact hresend.trans (by rwa [h'] at hnew)
  unfold State.choose
  split
  · exact .refl s
  · split
    · exact .refl s
    · exact hdata
  all_goals exact .refl s

end StationWork

end Sys2Proof.Proofs
end

section
namespace Sys2Proof.Proofs

open Sys2Proof Sys2Proof.Machine Sys2Proof.Claims Sys2Proof.Safety Sys2Proof.Laws Sys2Proof.Laws.FrameLength

section TurnWork

variable {segment : Prop}

/-! ## The work of a turn and of the reports -/

/-- The orphan entries may go in and out of flight. -/
theorem orphans_work {s : State} {l : List Orphan} (h : OrphanLaw s → OrphanLaw { s with orphans.entries := l }) :
    Work (workByte segment) s { s with orphans.entries := l } :=
  ⟨id, id, h, id, id, rfl, id, fun _ _ _ _ => rfl⟩

theorem unflown_markOldest (l : List Orphan) : (markOldest l).map unflown = l.map unflown := by
  cases l <;> rfl

theorem unflown_map_unflown (l : List Orphan) : (l.map unflown).map unflown = l.map unflown := List.map_map

/-- The start of a frame of a circuit clears owed flags and no ring (R52). -/
theorem discharge_work (s : State) (f : FlightFrame) : Work (workByte segment) s (s.discharge f) := by
  unfold State.discharge
  split
  · exact .refl s
  · exact orphans_work (orphanLaw_congr (unflown_markOldest _))
  · exact updCircuit_work s _ _ (by split <;> rfl)

theorem lineBusyToArbiter_work (s : State) : Work (workByte segment) s s.lineBusyToArbiter := by
  unfold State.lineBusyToArbiter
  split
  · exact .same rfl rfl rfl rfl rfl rfl rfl
  · exact .refl s

theorem startFrame_work (s : State) (f : FlightFrame) : Work (workByte segment) s (s.startFrame f) := by
  unfold State.startFrame
  dsimp only
  split
  · refine .trans ?_ (lineBusyToArbiter_work _)
    exact (discharge_work s f).trans (.same rfl rfl rfl rfl rfl rfl rfl)
  · exact .refl s

theorem makeTurn_work (s : State) : Work (workByte segment) s s.makeTurn := by
  have hmade : Work (workByte segment) s { s with arbiter.turnMade := true } := .same rfl rfl rfl rfl rfl rfl rfl
  unfold State.makeTurn
  dsimp only
  split
  · have hchoice := hmade.trans (choose_work _)
    split
    · next h => exact .trans (by rwa [h] at hchoice) (startFrame_work _ _)
    · next h => rwa [h] at hchoice
  · exact hmade

theorem plainDataSent_work (s : State) (c : CircuitNo) : Work (workByte segment) s (s.plainDataSent c) :=
  (((updCircuit_work s c (fun k => { k with nextSeq := k.nextSeq + 1, txDone := k.txDone + 1 }) rfl).trans
    (pokeRecord_work _ c (by decide) _)).trans (noticeRelease_work _ c _)).trans (testDrain_work _ c)

theorem circuitSent_work (s : State) (c : CircuitNo) (f : FlightFrame) : Work (workByte segment) s (s.circuitSent c f) := by
  unfold State.circuitSent
  dsimp only
  split
  · split
    · exact updCircuit_work s c _ rfl
    · exact .refl s
  · exact .refl s
  · exact .refl s
  · split
    · exact updCircuit_work s c _ rfl
    · exact .refl s
  · split
    · split
      · exact (updCircuit_work s c _ rfl).trans (testStall_work _ c)
      · exact plainDataSent_work s c
    · exact .refl s
  · split
    · exact updCircuit_work s c _ rfl
    · exact .refl s
  · split
    · exact updCircuit_work s c _ rfl
    · exact .refl s
  · exact .refl s
  · exact .refl s

/-- The data rotation pointer moves at the report of a new DATA (R51). -/
def pointerMoved (s : State) (c : CircuitNo) (f : FlightFrame) : State :=
  if f.use = .newData then { s with selector.pointer := s.pointerAfter c } else s

theorem pointerMoved_eq (s : State) (c : CircuitNo) (f : FlightFrame) : pointerMoved s c f =
    { s with selector.pointer := if f.use = .newData then s.pointerAfter c else s.selector.pointer } := by
  unfold pointerMoved
  split <;> rfl

theorem ownerSent_circuit (s : State) {f : FlightFrame} {c : CircuitNo} {life : Nat} (h : f.owner = .circuit c life) :
    s.ownerSent f = if s.pastLifetime c life then pointerMoved s c f else (pointerMoved s c f).circuitSent c f := by
  have hpast : (pointerMoved s c f).pastLifetime c life = s.pastLifetime c life := by rw [pointerMoved_eq]; rfl
  rw [State.ownerSent, h, ← hpast]
  rfl

theorem ownerSent_work (s : State) (f : FlightFrame) : Work (workByte segment) s (s.ownerSent f) := by
  cases h : f.owner with
  | roster => rw [State.ownerSent, h]; exact .refl s
  | orphanList => rw [State.ownerSent, h]; exact orphans_work (orphanLaw_sublist List.filter_sublist)
  | circuit c life =>
    have hpointer : Work (workByte segment) s (pointerMoved s c f) := by
      rw [pointerMoved_eq]
      exact .same rfl rfl rfl rfl rfl rfl rfl
    rw [ownerSent_circuit s h]
    split
    · exact hpointer
    · exact hpointer.trans (circuitSent_work _ c f)

/-- A classed frame that is good has a payload of at most 252 bytes (R8). -/
theorem classify_good {truncated : Bool} {bytes : List Byte} {k : Kind} {f : Frame} (h : classify truncated bytes = .good k f) :
    truncated = false ∧ k = kindOf bytes ∧ f = parseFrame bytes ∧ keepsRules k f = true := by
  unfold classify at h
  split at h
  · cases h
  · next hfit =>
    split at h
    · next hrules =>
      cases h
      simp only [Bool.or_eq_true, not_or, Bool.not_eq_true, Bool.and_eq_true] at hfit hrules
      exact ⟨hfit.1, rfl, rfl, hrules.2⟩
    · cases h

theorem payload_le_of_keepsRules {k : Kind} {f : Frame} (h : keepsRules k f = true) : f.payload.length ≤ 252 := by
  simp only [keepsRules, Bool.and_eq_true] at h
  obtain ⟨⟨-, hlength⟩, -⟩ := h
  exact lengthFits_le k _ hlength

theorem loopedCopy_work (s : State) (bytes : List Byte) : Work (workByte True) s (s.loopedCopy bytes) := by
  have hline : Work (workByte True) s { s with
      line.rxBuffer := bytes.take Config.frameRoom
      line.rxCount := bytes.length
      line.rxCheck := checkOf (bytes.take (bytes.length - 2)) } := .same rfl rfl rfl rfl rfl rfl rfl
  unfold State.loopedCopy
  dsimp only
  split
  · next k f hgood =>
    obtain ⟨-, -, -, hrules⟩ := classify_good hgood
    exact (hline.trans (countGood_work _)).trans
      ((tableFrame_work _ k f (payload_le_of_keepsRules hrules)).mono fun _ h => h.imp id fun h => ⟨trivial, h.2⟩)
  · exact hline.trans (countMalformed_work _)
  · exact hline.trans (countDamaged_work _)

theorem station_work (s : State) (st : Station) : Work (workByte segment) s { s with station := st } := .same rfl rfl rfl rfl rfl rfl rfl

theorem enterState_work (s : State) (st : StationState) : Work (workByte segment) s (s.enterState st) :=
  ((station_work s _).trans (pokeStation_work _ (a := offStationState) (by decide) (by decide) _)).trans (raise_work _ _)

theorem enterActive_work (s : State) : Work (workByte segment) s s.enterActive := by
  have hcleared : Work (workByte segment) s { s with arbiter.collisions := 0, station.joinTimer := none } := .same rfl rfl rfl rfl rfl rfl rfl
  exact hcleared.trans (enterState_work _ .active)

theorem reportSent_work (s : State) (f : FlightFrame) : Work (workByte segment) s (s.reportSent f) := by
  have hline : Work (workByte segment) s { s with
      line := s.line.afterOwnFrame s.quietAfterSent
      selector.inFlight := none
      arbiter.collisions := 0 } := .same rfl rfl rfl rfl rfl rfl rfl
  have hroll (t : State) : Work (workByte segment) t t.ownFrameSent := .same rfl rfl rfl rfl rfl rfl rfl
  unfold State.reportSent
  dsimp only
  refine .trans (.trans (((hline.trans (countSent_work _)).trans (hroll _)).trans (ownerSent_work _ f)) ?_) (frameEnd_work _ _)
  split
  · exact enterActive_work _
  · exact .refl _

theorem frameSent_work (s : State) : Work (workByte True) s s.frameSent := by
  unfold State.frameSent
  split
  · dsimp only
    split
    · exact (reportSent_work s _).trans (loopedCopy_work _ _)
    · exact reportSent_work s _
  · exact .refl s

theorem collisionDetected_work (s : State) : Work (workByte segment) s s.collisionDetected := by
  unfold State.collisionDetected
  split
  · exact .same rfl rfl rfl rfl rfl rfl rfl
  · exact .refl s

theorem ownerCollided_work (s : State) (f : FlightFrame) : Work (workByte segment) s (s.ownerCollided f) := by
  unfold State.ownerCollided
  split
  · exact .refl s
  · exact orphans_work (orphanLaw_congr (unflown_map_unflown _))
  · split
    · exact .refl s
    · exact updCircuit_work s _ _ rfl

theorem noOrphans_work (s : State) : Work (workByte segment) s { s with orphans.entries := [] } :=
  orphans_work fun _ => ⟨by simp, List.Pairwise.nil⟩

/-- Nothing is owed any more and the orphan list is empty: the first steps of the entries to MUTED and HALTED (R179, R180). -/
def disowned (s : State) : State := { s.clearAllOwed with orphans.entries := [] }

theorem disowned_work (s : State) : Work (workByte segment) s (disowned s) := (clearAllOwed_work s).trans (noOrphans_work _)

/-- The station on its way to MUTED, with every engaged circuit lost (R179). -/
def mutedCircuits (s : State) : State :=
  (disowned { s with line.txEnable := false, line.txen := false }).loseAll .lostMuted

theorem enterMutedState_eq (s : State) : s.enterMutedState = ({ (mutedCircuits s).setMutedSeen with
      station.muteTimer := some 0
      arbiter.collisions := 0
      roster.silence := 0 } : State).enterState .muted := by
  simp only [State.enterMutedState, mutedCircuits, disowned]

theorem mutedCircuits_work (s : State) : Work (workByte segment) s (mutedCircuits s) := by
  have hline : Work (workByte segment) s { s with line.txEnable := false, line.txen := false } := .same rfl rfl rfl rfl rfl rfl rfl
  exact (hline.trans (disowned_work _)).trans (loseAll_work _ .lostMuted)

theorem setMutedSeen_work (s : State) : Work (workByte segment) s s.setMutedSeen := (quality_work s _).trans (showSticky_work _)

theorem enterMutedState_work (s : State) : Work (workByte segment) s s.enterMutedState := by
  have htimers (t : State) : Work (workByte segment) t { t with
      station.muteTimer := some 0
      arbiter.collisions := 0
      roster.silence := 0 } := .same rfl rfl rfl rfl rfl rfl rfl
  rw [enterMutedState_eq]
  exact (((mutedCircuits_work s).trans (setMutedSeen_work _)).trans (htimers _)).trans (enterState_work _ .muted)

/-- The station on its way to HALTED, with every circuit FREE or ENDED (R180). -/
def haltedCircuits (s : State) : State :=
  (disowned { s with line := s.line.off, selector.inFlight := none }).loseAll .lostHalted

/-- The blocks as HALTED leaves them, before the station's own fields (R180). -/
def haltedBlocks (s : State) : State :=
  ({ (haltedCircuits s).emptyRoster with
    arbiter.state := .off
    arbiter.base := s.station.address
    arbiter.fullNext := false
    arbiter.mode := .compressed
    arbiter.roundTimer := 0
    arbiter.collisions := 0
    quality.windowTimer := none } : State).clearWindowCounts

theorem enterHaltedState_eq (s : State) : s.enterHaltedState = (({ haltedBlocks s with
      station.joinTimer := none
      station.muteTimer := none
      station.haltCause := .duplicateAddress } : State).poke offHaltCause HaltCause.duplicateAddress.code).enterState .halted := by
  simp only [State.enterHaltedState, haltedBlocks, haltedCircuits, disowned]

theorem haltedCircuits_work (s : State) : Work (workByte segment) s (haltedCircuits s) := by
  have hline : Work (workByte segment) s { s with line := s.line.off, selector.inFlight := none } := .same rfl rfl rfl rfl rfl rfl rfl
  exact (hline.trans (disowned_work _)).trans (loseAll_work _ .lostHalted)

theorem haltedBlocks_work (s : State) : Work (workByte segment) s (haltedBlocks s) := by
  have harbiter (t : State) : Work (workByte segment) t { t with
      arbiter.state := .off
      arbiter.base := s.station.address
      arbiter.fullNext := false
      arbiter.mode := .compressed
      arbiter.roundTimer := 0
      arbiter.collisions := 0
      quality.windowTimer := none } := .same rfl rfl rfl rfl rfl rfl rfl
  exact (((haltedCircuits_work s).trans (emptyRoster_work _)).trans (harbiter _)).trans (clearWindowCounts_work _)

theorem enterHaltedState_work (s : State) : Work (workByte segment) s s.enterHaltedState := by
  rw [enterHaltedState_eq]
  exact (((haltedBlocks_work s).trans (station_work _ _)).trans
    (pokeStation_work _ (a := offHaltCause) (by decide) (by decide) _)).trans (enterState_work _ .halted)

theorem muteIfDue_work (s : State) : Work (workByte segment) s s.muteIfDue := by
  unfold State.muteIfDue
  split
  · exact enterMutedState_work s
  · exact .refl s

theorem frameCollided_work (s : State) : Work (workByte segment) s s.frameCollided := by
  have hline : Work (workByte segment) s { s with
      line := s.line.afterOwnFrame s.quietAfterCollision
      selector.inFlight := none
      arbiter.collisions := min Config.muteCollisions (s.arbiter.collisions + 1) } := .same rfl rfl rfl rfl rfl rfl rfl
  unfold State.frameCollided
  split
  · exact ((((hline.trans (countCollision_work _)).trans (ownerCollided_work _ _)).trans (setFullNext_work _)).trans
      (frameEnd_work _ none)).trans (muteIfDue_work _)
  · exact .refl s

/-! ## The work of a received frame -/

theorem malformedEnd_work (s : State) (source : Address) : Work (workByte segment) s (s.malformedEnd source) := by
  unfold State.malformedEnd
  dsimp only
  split
  · exact ((countMalformed_work s).trans (frameEnd_work _ _)).trans (enterHaltedState_work _)
  · exact ((countMalformed_work s).trans (rosterSource_work _ _)).trans (frameEnd_work _ _)

theorem duplicateEnd_work (s : State) (k : Kind) (f : Frame) (hlength : f.payload.length ≤ 252) :
    Work (workByte (k = .data)) s (s.duplicateEnd k f) := by
  have hdrawn : Work (workByte (k = .data)) s { s.frameEnd (some f.src) with choices := s.choices + 1 } :=
    (frameEnd_work s (some f.src)).trans (.same rfl rfl rfl rfl rfl rfl rfl)
  unfold State.duplicateEnd
  dsimp only
  split
  · exact (hdrawn.trans (tableFrame_work _ k f hlength)).trans (enterHaltedState_work _)
  · exact (hdrawn.trans (enterHaltedState_work _)).trans (tableFrame_work _ k f hlength)

theorem goodEnd_work (s : State) (k : Kind) (f : Frame) (hlength : f.payload.length ≤ 252) :
    Work (workByte (k = .data)) s (s.goodEnd k f) := by
  unfold State.goodEnd
  dsimp only
  split
  · exact (countGood_work s).trans (duplicateEnd_work _ k f hlength)
  · refine .trans (.trans ?_ (tableFrame_work _ k f hlength)) (frameEnd_work _ _)
    split
    · exact ((countGood_work s).trans (rosterSource_work _ _)).trans (examineRoll_work _ f)
    · exact (countGood_work s).trans (rosterSource_work _ _)

/-- A frame that ends does not reach the ring area unless it is a good DATA. -/
theorem hear_work (s : State) (truncated : Bool) (bytes : List Byte) :
    Work (workByte (∃ f, classify truncated bytes = .good .data f)) s (s.hear truncated bytes) := by
  unfold State.hear
  split
  · have hline : Work (workByte (∃ f, classify truncated bytes = .good .data f)) s { s with
        line.state := .idle
        line.quiet := if truncated then Config.quietTime else 0
        line.rxBuffer := bytes.take Config.frameRoom
        line.rxCount := bytes.length
        line.rxCheck := checkOf (bytes.take (bytes.length - 2)) } := .same rfl rfl rfl rfl rfl rfl rfl
    dsimp only
    split
    · exact ((hline.trans (countDamaged_work _)).trans (setFullNext_work _)).trans (frameEnd_work _ none)
    · exact hline.trans (malformedEnd_work _ _)
    · next k f hgood =>
      obtain ⟨-, -, -, hrules⟩ := classify_good hgood
      exact hline.trans ((goodEnd_work _ k f (payload_le_of_keepsRules hrules)).mono fun _ h =>
        h.imp id fun ⟨hk, hring⟩ => ⟨⟨f, by rw [hgood, hk]⟩, hring⟩)
  · exact .refl s

theorem lineBusy_work (s : State) : Work (workByte segment) s s.lineBusy := by
  have hquiet : Work (workByte segment) s { s with line.quiet := 0 } := .same rfl rfl rfl rfl rfl rfl rfl
  unfold State.lineBusy
  split
  · exact .refl s
  · split
    · refine .trans ?_ (lineBusyToArbiter_work _)
      exact .same rfl rfl rfl rfl rfl rfl rfl
    · exact .refl s
    all_goals exact hquiet

theorem lineSettled_work (s : State) : Work (workByte segment) s s.lineSettled := by
  have hidle : Work (workByte segment) s { s with line.state := .idle } := .same rfl rfl rfl rfl rfl rfl rfl
  unfold State.lineSettled
  dsimp only
  split
  · split
    · exact hidle.trans (beginRound_work _)
    · exact hidle
  · exact .refl s

end TurnWork

end Sys2Proof.Proofs
end

section
namespace Sys2Proof.Proofs

open Sys2Proof Sys2Proof.Machine Sys2Proof.Claims Sys2Proof.Safety Sys2Proof.Laws Sys2Proof.Laws.FrameLength

section ControlWork

variable {segment : Prop}

/-! ## The work of GO -/

/-- A ring size that the Start Block may give: 1 to 32 slots (R175). -/
theorem ringSize_range {code : Nat} (h : code ≤ 5) : 1 ≤ ringSize code ∧ ringSize code ≤ 32 :=
  ⟨Nat.one_le_two_pow, Nat.pow_le_pow_right (by decide) h⟩

/-- A Start Block that passes its checks (R175). -/
structure StartFits (s : State) : Prop where
  count : 1 ≤ s.startCount ∧ s.startCount ≤ 16
  codes : ∀ c ∈ circuitsBelow s.startCount, s.startTxCode c ≤ 5 ∧ s.startRxCode c ≤ 5
  total : s.ringTotal s.startCount ≤ 240
  step : 1 ≤ s.startStep ∧ s.startStep ≤ 8
  exponent : s.startExponent ≤ 3
  thresholds : s.startLow < s.startHigh

theorem startFits_of_ok {s : State} (h : s.checkStartBlock = .ok) : StartFits s := by
  unfold State.checkStartBlock at h
  split_ifs at h with h1 h2 h3 h4 h5 h6
  simp only [List.all_eq_true, Bool.and_eq_true, decide_eq_true_eq, Config.ringSlots] at h1 h2 h3 h4 h5 h6
  exact ⟨h1, h2, by omega, h4, by omega, h6⟩

/-- The slots of the rings of these circuits (R175, check 3). -/
def slotsOf (codes : State) (l : List CircuitNo) : Nat :=
  (l.map fun c => ringSize (codes.startTxCode c) + ringSize (codes.startRxCode c)).sum

theorem ringTotal_eq_slotsOf (s : State) (n : Nat) : s.ringTotal n = slotsOf s (circuitsBelow n) := by
  have hfold (l : List CircuitNo) (sum : Nat) :
      l.foldl (fun sum c => sum + ringSize (s.startTxCode c) + ringSize (s.startRxCode c)) sum = sum + slotsOf s l := by
    induction l generalizing sum with
    | nil => rfl
    | cons c rest ih =>
      rw [List.foldl_cons, ih, slotsOf, slotsOf, List.map_cons, List.sum_cons]
      omega
  exact (hfold _ 0).trans (Nat.zero_add _)

/-- The circuit's two rings side by side from a base (R176). -/
abbrev laidOut (k : Circuit) (base : Half) (tx rx : Nat) : Circuit :=
  { k with txBase := base, txSize := tx, rxBase := base + BitVec.ofNat 16 (256 * tx), rxSize := rx }

theorem layRings_circuit (s : State) (c : CircuitNo) (base : Half) (tx rx : Nat) :
    (s.layRings c base tx rx).circuit c = laidOut (s.circuit c) base tx rx := by
  simp [State.layRings]

theorem layRings_only (s : State) (c : CircuitNo) (base : Half) (tx rx : Nat) : CircuitOnly c s (s.layRings c base tx rx) :=
  ((((updCircuit_only s c _).trans (circuitOnly_pokeRecordHalf c c _ _ _)).trans (circuitOnly_pokeRecord c c _ _ _)).trans
    (circuitOnly_pokeRecordHalf c c _ _ _)).trans (circuitOnly_pokeRecord c c _ _ _)

/-- Two rings that end within the window (R131, R176). -/
theorem laidOut_ringAreaLaw (k : Circuit) {base : Half} {tx rx : Nat} (htx : tx ≤ 32) (hbase : 0x1000 ≤ base.toNat)
    (hend : base.toNat + 256 * (tx + rx) ≤ 65536) : RingAreaLaw (laidOut k base tx rx) := by
  refine ⟨fun _ => ⟨hbase, ?_⟩, fun hrx => ?_⟩
  · show base.toNat + 256 * tx ≤ 65536
    omega
  · have hnext : (base + BitVec.ofNat 16 (256 * tx)).toNat = base.toNat + 256 * tx := by
      change 0 < rx at hrx
      rw [BitVec.toNat_add, BitVec.toNat_ofNat, Nat.mod_eq_of_lt (a := 256 * tx) (by omega), Nat.mod_eq_of_lt (by omega)]
    show 0x1000 ≤ (base + BitVec.ofNat 16 (256 * tx)).toNat ∧ (base + BitVec.ofNat 16 (256 * tx)).toNat + 256 * rx ≤ 65536
    rw [hnext]
    omega

/-- The rings of one circuit are laid out, as the update of its context and four writes of its record. -/
theorem layRings_work (s : State) (c : CircuitNo) {base : Half} {tx rx : Nat} (htx : tx ≤ 32) (hbase : 0x1000 ≤ base.toNat)
    (hend : base.toNat + 256 * (tx + rx) ≤ 65536) : Work (workByte segment) s (s.layRings c base tx rx) := by
  have hlaid : Work (workByte segment) s (s.updCircuit c fun k => laidOut k base tx rx) := by
    refine ⟨id, fun h d => ?_, id, id, id, rfl, id, fun _ _ _ _ => rfl⟩
    by_cases hd : d = c
    · subst hd
      rw [circuit_updCircuit_same]
      exact laidOut_ringAreaLaw _ htx hbase hend
    · rw [circuit_updCircuit_other _ _ _ _ hd]
      exact h d
  exact (((hlaid.trans (pokeRecordHalf_work _ c (off := recTxBase) (by decide) _)).trans
    (pokeRecord_work _ c (off := recTxSize) (by decide) _)).trans (pokeRecordHalf_work _ c (off := recRxBase) (by decide) _)).trans
    (pokeRecord_work _ c (off := recRxSize) (by decide) _)

/-- The base of the next circuit's rings. -/
theorem nextBase_toNat {base : Half} {n : Nat} (h : base.toNat + 256 * n < 65536) :
    (base + BitVec.ofNat 16 (256 * n)).toNat = base.toNat + 256 * n := by
  rw [BitVec.toNat_add, BitVec.toNat_ofNat, Nat.mod_eq_of_lt (a := 256 * n) (by omega), Nat.mod_eq_of_lt h]

theorem layAllRings_cons (s codes : State) (base : Half) (c : CircuitNo) (rest : List CircuitNo) :
    s.layAllRings codes base (c :: rest) =
      (s.layRings c base (ringSize (codes.startTxCode c)) (ringSize (codes.startRxCode c))).layAllRings codes
        (base + BitVec.ofNat 16 (256 * (ringSize (codes.startTxCode c) + ringSize (codes.startRxCode c)))) rest := by
  conv => lhs; unfold State.layAllRings

theorem layAllRings_work (l : List CircuitNo) (codes s : State) {base : Half}
    (hcodes : ∀ c ∈ l, codes.startTxCode c ≤ 5 ∧ codes.startRxCode c ≤ 5) (hbase : 0x1000 ≤ base.toNat)
    (hend : base.toNat + 256 * slotsOf codes l ≤ 65536) : Work (workByte segment) s (s.layAllRings codes base l) := by
  induction l generalizing s base with
  | nil => exact .refl s
  | cons c rest ih =>
    obtain ⟨htx, hrx⟩ := hcodes c List.mem_cons_self
    have htx := ringSize_range htx
    have hrx := ringSize_range hrx
    simp only [slotsOf, List.map_cons, List.sum_cons] at hend
    rw [layAllRings_cons]
    refine (layRings_work s c (rx := ringSize (codes.startRxCode c)) htx.2 hbase (by omega)).trans ?_
    cases rest with
    | nil => exact .refl _
    | cons d rest =>
      have hpos : 0 < slotsOf codes (d :: rest) := by
        obtain ⟨htx, -⟩ := hcodes d (by simp)
        have := ringSize_range htx
        simp only [slotsOf, List.map_cons, List.sum_cons]
        omega
      have hnext := nextBase_toNat (base := base) (n := ringSize (codes.startTxCode c) + ringSize (codes.startRxCode c))
        (by simp only [slotsOf] at hpos; omega)
      refine ih _ (fun e he => hcodes e (List.mem_cons_of_mem c he)) ?_ ?_ <;> rw [hnext]
      · omega
      · simp only [slotsOf]
        omega

theorem enterJoiningFromConfig_work (s : State) : Work (workByte segment) s s.enterJoiningFromConfig := by
  have hline : Work (workByte segment) s { s with
      line.state := .settling
      line.quiet := 0
      line.rxBuffer := []
      line.rxCount := 0
      line.rxEnable := true
      line.txEnable := true
      line.txen := false
      roster.silence := 0
      selector.rollOwed := false
      selector.pointer := 0
      selector.inFlight := none } := .same rfl rfl rfl rfl rfl rfl rfl
  have harbiter (t : State) : Work (workByte segment) t { t with
      arbiter.state := .waiting
      arbiter.base := s.station.address
      arbiter.fullNext := true
      arbiter.mode := .full
      arbiter.roundTimer := 0
      arbiter.collisions := 0
      quality.windowTimer := some 0
      station.joinTimer := some 0 } := .same rfl rfl rfl rfl rfl rfl rfl
  exact ((hline.trans (markPresent_work _ _)).trans (harbiter _)).trans (enterState_work _ .joining)

theorem setStartStatus_work (s : State) (st : StartStatus) : Work (workByte segment) s (s.setStartStatus st) :=
  (station_work s _).trans (pokeStation_work _ (a := offStartStatus) (by decide) (by decide) _)

theorem acceptGo_work (s : State) (h : StartFits s) : Work (workByte segment) s s.acceptGo := by
  have hrings : Work (workByte segment) s (s.layAllRings s ringArea (circuitsBelow s.startCount)) :=
    layAllRings_work _ s s h.codes (by decide) (by
      have hbase : ringArea.toNat = 0x1000 := rfl
      have := h.total
      rw [ringTotal_eq_slotsOf] at this
      omega)
  have hcount (t : State) : Work (workByte segment) t
      (({ t with station.circuitCount := s.startCount } : State).poke offCircuitCount (BitVec.ofNat 8 s.startCount)) :=
    (station_work t _).trans (pokeStation_work _ (a := offCircuitCount) (by decide) (by decide) _)
  have hparams (t : State) : Work (workByte segment) t { t with
      station.creditStep := some s.startStep
      quality.params := some ⟨s.startExponent, s.startLow, s.startHigh⟩ } := .same rfl rfl rfl rfl rfl rfl rfl
  exact (((hrings.trans (hcount _)).trans (setStartStatus_work _ .ok)).trans (hparams _)).trans (enterJoiningFromConfig_work _)

theorem takeGo_work (s : State) : Work (workByte segment) s s.takeGo := by
  unfold State.takeGo
  split
  · next h => exact acceptGo_work s (startFits_of_ok h)
  · exact setStartStatus_work s _

end ControlWork

end Sys2Proof.Proofs
end

section
namespace Sys2Proof.Proofs

open Sys2Proof Sys2Proof.Machine Sys2Proof.Claims Sys2Proof.Safety Sys2Proof.Laws Sys2Proof.Laws.FrameLength

/-! ## The work of the resets -/

/-- The bytes of one field write. -/
def fieldBytes : FieldWrite → List Nat
  | .byte off _ => [off]
  | .half off _ => [off, off + 1]

theorem writeField_work {may : Nat → Prop} (s : State) (w : FieldWrite) (h : ∀ a ∈ fieldBytes w, a < 65536 ∧ may a) :
    Work may s (s.writeField w) := by
  cases w with
  | byte off v =>
    obtain ⟨ha, hmay⟩ := h off (by simp [fieldBytes])
    exact poke_work s ha hmay v
  | half off v =>
    obtain ⟨-, hmay⟩ := h off (by simp [fieldBytes])
    obtain ⟨ha, hmay'⟩ := h (off + 1) (by simp [fieldBytes])
    exact pokeHalf_work s ha hmay hmay' v

theorem writeFields_work {may : Nat → Prop} (ws : List FieldWrite) (s : State)
    (h : ∀ w ∈ ws, ∀ a ∈ fieldBytes w, a < 65536 ∧ may a) : Work may s (s.writeFields ws) := by
  unfold State.writeFields
  induction ws generalizing s with
  | nil => exact .refl s
  | cons w rest ih =>
    exact (writeField_work s w (h w List.mem_cons_self)).trans (ih _ fun w' hw => h w' (List.mem_cons_of_mem w hw))

/-- The start pass writes the Station Block and the records (R174). -/
theorem startPassWrites_below {address : Address} {rate : BitVec 2} {loop : Bool} {w : FieldWrite}
    (hw : w ∈ startPassWrites address rate loop) : ∀ a ∈ fieldBytes w, a < 0x0500 := by
  simp only [startPassWrites, List.mem_append, List.mem_cons, List.not_mem_nil, or_false, List.mem_map, List.mem_range] at hw
  intro a ha
  rcases hw with (((h | ⟨i, hi, rfl⟩) | ⟨i, hi, rfl⟩) | ⟨i, hi, rfl⟩)
  · rcases h with rfl | rfl | rfl | rfl | rfl | rfl | rfl <;> simp only [fieldBytes, List.mem_cons, List.not_mem_nil, or_false] at ha
    all_goals
      simp only [offStationState, offPartCode, offRevision, offHaltCause, offOwnAddress, offRate, offLoop] at ha
      omega
  all_goals
    simp only [fieldBytes, List.mem_cons, List.not_mem_nil, or_false, offStartStatus, offPresentLow] at ha
    omega

theorem startPass_work (s : State) (n : Nat) : Work (· < 0x0500) s (s.writeFields (s.startPassRest n)) :=
  writeFields_work _ s fun _ hw a ha => by
    have := startPassWrites_below (List.mem_of_mem_drop hw) a ha
    exact ⟨by omega, this⟩

theorem finishStartPass_work (s : State) : Work (· < 0x0500) s s.finishStartPass := by
  have hstation (st : Station) : Work (· < 0x0500) s { s with station := st } := .same rfl rfl rfl rfl rfl rfl rfl
  unfold State.finishStartPass
  split
  · exact ((hstation _).trans (poke_work _ (a := offHaltCause) (by decide) (by decide) _)).trans
      (poke_work _ (a := offStationState) (by decide) (by decide) _)
  · exact (hstation _).trans (poke_work _ (a := offStationState) (by decide) (by decide) _)

/-- The rings of a circuit with none. -/
theorem noRings_ringAreaLaw {k : Circuit} (htx : k.txSize = 0) (hrx : k.rxSize = 0) : RingAreaLaw k :=
  ⟨fun h => absurd h (by omega), fun h => absurd h (by omega)⟩

theorem noticeReset_laws {t : State} {enable : Bool} (h : t.notice = Notice.reset enable) : AttentionLaw t ∧ IrqLaw t := by
  simp [AttentionLaw, IrqLaw, h, Notice.reset, Notice.count, span]

theorem circuits_replicate (k : Circuit) (c : CircuitNo) : (Vector.replicate 16 k).get c = k := by
  simp [Vector.get_eq_getElem]

theorem circuits_map (v : Vector Circuit 16) (f : Circuit → Circuit) (c : CircuitNo) : (v.map f).get c = f (v.get c) := by
  simp [Vector.get_eq_getElem]

/-- Every block at its reset values, over a window that stays. -/
theorem reset_work {may : Nat → Prop} {s t : State} {enable : Bool} (hwindow : t.window = s.window)
    (hcircuits : ∀ c, (t.circuit c).txSize = 0 ∧ (t.circuit c).rxSize = 0) (horphans : t.orphans = Orphans.reset)
    (hnotice : t.notice = Notice.reset enable) (hrequests : t.requests = Requests.reset)
    (hpending : t.pending = s.pending) (hlanded : t.landed = s.landed) : Work may s t where
  memory h := by rwa [MemoryLaw, hwindow]
  rings _ c := noRings_ringAreaLaw (hcircuits c).1 (hcircuits c).2
  orphans _ := by rw [OrphanLaw, horphans]; exact ⟨by decide, List.Pairwise.nil⟩
  notices _ := noticeReset_laws hnotice
  requests _ := by rw [RequestLaw, hrequests]; decide
  pending := hpending
  landed h := by rwa [LandedLaw, State.writesAhead, hpending, hlanded]
  window _ a _ _ := by rw [State.peek, hwindow]; rfl

theorem pinReset_work {may : Nat → Prop} (s : State) : Work may s s.pinReset :=
  reset_work (enable := false) rfl (fun c => by
    have : s.pinReset.circuit c = Circuit.reset := circuits_replicate _ c
    rw [this]
    exact ⟨rfl, rfl⟩) rfl rfl rfl rfl rfl

/-- The Station Block's fields that a restart writes are the MT16's own (R181). -/
theorem restartWrites_own {w : FieldWrite} (hw : w ∈ restartWrites) {a : Nat} (ha : a ∈ fieldBytes w) :
    a < 0x0100 ∧ a ∉ [0x0A, 0x0B, 0x0C, 0x0E] := by
  simp only [restartWrites, List.mem_append, List.mem_cons, List.not_mem_nil, or_false, List.mem_map, List.mem_range] at hw
  obtain h | ⟨i, hi, rfl⟩ := hw
  · rcases h with rfl | rfl | rfl | rfl | rfl | rfl | rfl | rfl <;>
      (rw [fieldBytes, List.mem_singleton] at ha; subst ha; decide)
  · simp only [fieldBytes, List.mem_cons, List.not_mem_nil, or_false, offPresentLow] at ha ⊢
    omega

section ControlWork

variable {segment : Prop}

theorem showAllFree_work (s : State) : Work (workByte segment) s s.showAllFree := by
  refine eachCircuit_work _ (fun c s => ?_) s
  split
  · exact pokeRecord_work s c (off := recState) (by decide) _
  · exact .refl s

/-- The blocks at their restart values, at a station of this address (R181). -/
def restartBlocks (u : State) (a : Address) : State := { u with
  station.state := restartState a
  station.haltCause := restartCause a
  station.startStatus := .noStatus
  station.circuitCount := 0
  station.creditStep := none
  station.joinTimer := none
  station.muteTimer := none
  line := u.line.off
  arbiter := Arbiter.reset (resetBase a)
  selector := Selector.reset
  roster := Roster.reset
  orphans := Orphans.reset
  circuits := u.circuits.map Circuit.restarted
  requests := Requests.reset
  notice := Notice.reset u.notice.irqEnable
  quality := Quality.reset }

theorem takeRestart_eq (s : State) : s.takeRestart =
    ((restartBlocks (s.showAllFree.writeFields restartWrites) s.station.address).poke offHaltCause
      (restartCause s.station.address).code).poke offStationState (restartState s.station.address).code := by
  simp only [State.takeRestart, restartBlocks]

theorem restartBlocks_circuit (u : State) (a : Address) (c : CircuitNo) :
    (restartBlocks u a).circuit c = (u.circuit c).restarted := circuits_map _ _ c

theorem restartBlocks_work (u : State) (a : Address) : Work (workByte segment) u (restartBlocks u a) :=
  reset_work rfl (fun c => by rw [restartBlocks_circuit]; exact ⟨rfl, rfl⟩) rfl rfl rfl rfl rfl

theorem takeRestart_work (s : State) : Work (workByte segment) s s.takeRestart := by
  have hfields : Work (workByte segment) s (s.showAllFree.writeFields restartWrites) :=
    (showAllFree_work s).trans (writeFields_work _ _ fun w hw a ha => by
      obtain ⟨hlow, hown⟩ := restartWrites_own hw ha
      exact ⟨by omega, (ownByte_station hlow hown).work⟩)
  rw [takeRestart_eq]
  exact ((hfields.trans (restartBlocks_work _ _)).trans (pokeStation_work _ (a := offHaltCause) (by decide) (by decide) _)).trans
    (pokeStation_work _ (a := offStationState) (by decide) (by decide) _)

end ControlWork

/-! ## The work of the host's accesses -/

/-- Bytes written anywhere reach the window alone. -/
theorem pokeEach_work {may : Nat → Prop} (bytes : List (Nat × Byte)) (s : State) (h : ∀ b ∈ bytes, may (b.1 % 65536)) :
    Work may s (s.pokeEach bytes) := by
  have hpoke (s : State) (a : Nat) (v : Byte) (ha : may (a % 65536)) : Work may s (s.poke a v) :=
    ⟨poke_wf s a v, id, id, id, id, rfl, id, fun _ x hx hm => peek_poke_other s a x v (by
      rw [Nat.mod_eq_of_lt hx]
      rintro rfl
      exact hm ha)⟩
  unfold State.pokeEach
  induction bytes generalizing s with
  | nil => exact .refl s
  | cons b rest ih =>
    exact (hpoke s b.1 b.2 (h b List.mem_cons_self)).trans (ih _ fun b' hb => h b' (List.mem_cons_of_mem b hb))

theorem arrive_work {may : Nat → Prop} (bytes : List (Nat × Byte)) (s : State) (h : ∀ b ∈ bytes, may (b.1 % 65536)) :
    Work may s (s.arrive bytes) := by
  obtain ⟨-, e⟩ | ⟨-, e⟩ := arrive_cases s bytes <;> rw [e]
  · exact pokeEach_work bytes s h
  · refine { Work.refl (may := may) s with landed := fun hlaw => ?_ }
    have hlaw' : s.landed ≤ s.writesAhead.length := hlaw
    show s.landed - 1 ≤ s.writesAhead.length
    omega

/-- Later writes that land are among those that wait (R145). -/
theorem landLater_work (s : State) : Work (fun _ => True) s s.landLater := by
  have hall (l : List (List (Nat × Byte))) (s : State) : Work (fun _ => True) s (l.foldl State.pokeEach s) := by
    induction l generalizing s with
    | nil => exact .refl s
    | cons bytes rest ih => exact (pokeEach_work bytes s fun _ _ => trivial).trans (ih _)
  obtain ⟨-, e⟩ | ⟨now, hnow, e⟩ := landLater_cases s <;> rw [e]
  · exact .refl s
  · have hwork := hall now s
    refine { hwork with landed := fun hlaw => ?_ }
    have hlaw' : s.landed ≤ s.writesAhead.length := hlaw
    have hlength := hnow.length_le
    rw [List.length_drop] at hlength
    have hahead : (now.foldl State.pokeEach s).writesAhead = s.writesAhead := by
      rw [State.writesAhead, hwork.pending]
      rfl
    show s.landed + now.length ≤ (now.foldl State.pokeEach s).writesAhead.length
    rw [hahead]
    omega

/-- A value of CONTROL reaches the MT16's own bytes, CONTROL, and what the later writes that have landed reach (R145). -/
theorem takeControl_work {may : Nat → Prop} (s : State) (v : Byte) (hown : ∀ a, ownByte a → may a) (hcontrol : may 0x0A)
    (hland : Work may s s.landLater) : Work may s (s.takeControl v) := by
  have hwork {s t : State} (h : Work (workByte False) s t) : Work may s t := h.mono fun a ha => hown a (by simpa [workByte] using ha)
  have hback (s : State) : Work may s s.writeBackControl := by
    obtain ⟨-, e⟩ | ⟨-, e⟩ := writeBackControl_cases s <;> rw [e]
    · exact .refl s
    · exact poke_work s (by decide) hcontrol 0
  unfold State.takeControl
  split
  · exact .refl s
  · dsimp only
    refine .trans (hland.trans ?_) (hback _)
    split
    · exact hwork (takeGo_work _)
    · split
      · exact hwork (takeRestart_work _)
      · exact .refl _

theorem takeField_work {may : Nat → Prop} (s : State) (w : WatchedField) (v : Byte) (hown : ∀ a, ownByte a → may a)
    (hcontrol : w = .control → may 0x0A ∧ Work may s s.landLater) : Work may s (s.takeField w v) := by
  have hwork {t : State} (h : Work (workByte False) s t) : Work may s t := h.mono fun a ha => hown a (by simpa [workByte] using ha)
  unfold State.takeField
  cases w with
  | control => exact takeControl_work s v hown (hcontrol rfl).1 (hcontrol rfl).2
  | interruptEnable =>
    dsimp only
    split
    · exact .refl s
    · exact hwork (takeInterruptEnable_work s v)
  | requestPost =>
    dsimp only
    split
    · exact .refl s
    · exact hwork (takeRequestPost_work s v)
  | attentionTake =>
    dsimp only
    split
    · exact .refl s
    · exact hwork (takeAttention_work s v)
  | txPost c =>
    dsimp only
    split
    · exact hwork (takePost_work s c v)
    · exact .refl s
  | rxRelease c =>
    dsimp only
    split
    · exact hwork (takeRelease_work s c v)
    · exact .refl s
  | gapAck c =>
    dsimp only
    split
    · exact hwork (takeGapAck_work s c)
    · exact .refl s

theorem takeLane_work (s : State) (on : Bool) (off : Nat) (v : Byte) : Work (fun _ => True) s (s.takeLane on off v) := by
  unfold State.takeLane
  split
  · exact takeField_work s _ v (fun _ _ => trivial) fun _ => ⟨trivial, landLater_work s⟩
  · exact .refl s

theorem hostWrite_work (s : State) (word : BitVec 15) (be1 be0 : Bool) (data : Half) :
    Work (fun _ => True) s (s.hostWrite word be1 be0 data) := by
  have harrive : Work (fun _ => True) s (s.arrive (wordBytes word be1 be0 data)) := arrive_work _ s fun _ _ => trivial
  have hdrawn (s : State) : Work (fun _ => True) s { s with choices := s.choices + 1 } := .same rfl rfl rfl rfl rfl rfl rfl
  unfold State.hostWrite
  dsimp only
  split
  · split
    · exact ((harrive.trans (hdrawn _)).trans (takeLane_work _ _ _ _)).trans (takeLane_work _ _ _ _)
    · exact ((harrive.trans (hdrawn _)).trans (takeLane_work _ _ _ _)).trans (takeLane_work _ _ _ _)
  · exact (harrive.trans (takeLane_work _ _ _ _)).trans (takeLane_work _ _ _ _)

theorem stickyRead_work {segment : Prop} (s : State) (be1 be0 : Bool) : Work (workByte segment) s (s.stickyRead be1 be0) := by
  have hbus (b : HostBus) : Work (workByte segment) s { s with bus := b } := .same rfl rfl rfl rfl rfl rfl rfl
  unfold State.stickyRead
  split
  · exact hbus _
  · dsimp only
    split
    · exact (hbus _).trans ((quality_work _ _).trans (showSticky_work _))
    · exact hbus _

/-- A watched field is host-owned (R132, R144). -/
theorem watched_mem_hostBytes (w : WatchedField) : w.offset ∈ hostBytes := by
  rw [mem_hostBytes]
  cases w with
  | txPost c => exact .inr ⟨c, 0x30, by decide, rfl⟩
  | rxRelease c => exact .inr ⟨c, 0x31, by decide, rfl⟩
  | gapAck c => exact .inr ⟨c, 0x32, by decide, rfl⟩
  | _ => exact .inl (by decide)

theorem hostBytes_below {a : Nat} (h : a ∈ hostBytes) : a < 0x0500 := by
  obtain h | ⟨c, off, hoff, rfl⟩ := mem_hostBytes.mp h
  · simp only [List.mem_cons, List.not_mem_nil, or_false] at h
    omega
  · have := recordBase_range c
    simp only [List.mem_cons, List.not_mem_nil, or_false] at hoff
    omega

theorem arrive_watched_work {may : Nat → Prop} (s : State) (w : WatchedField) (v : Byte) (hmay : may w.offset) :
    Work may s (s.arrive [(w.offset, v)]) := by
  refine arrive_work _ s fun b hb => ?_
  have hlow := hostBytes_below (watched_mem_hostBytes w)
  rw [List.mem_singleton.mp hb, Nat.mod_eq_of_lt (by simpa using by omega)]
  exact hmay

/-- A watched write other than of CONTROL reaches the MT16's own bytes and host-owned ones. -/
theorem writeWatched_work (s : State) (w : WatchedField) (v : Byte) (hw : w ≠ .control) :
    Work (fun a => ownByte a ∨ a ∈ hostBytes) s (s.writeWatched w v) :=
  (arrive_watched_work s w v (.inr (watched_mem_hostBytes w))).trans
    (takeField_work _ w v (fun _ => .inl) fun h => absurd h hw)

theorem writeControl_work (s : State) (v : Byte) : Work (fun _ => True) s (s.writeWatched .control v) :=
  (arrive_watched_work s .control v trivial).trans
    (takeField_work _ .control v (fun _ _ => trivial) fun _ => ⟨trivial, landLater_work _⟩)

end Sys2Proof.Proofs
end

section
namespace Sys2Proof.Proofs

open Sys2Proof Sys2Proof.Machine Sys2Proof.Claims Sys2Proof.Safety Sys2Proof.Laws Sys2Proof.Laws.FrameLength

/-! ## The work of the timers -/

section TimerWork

variable {segment : Prop}

theorem peerAgedOut_work (s : State) (a : Address) : Work (workByte segment) s (if s.agedOut a then s.removePeer a else s) := by
  split
  · exact removePeer_work s a
  · exact .refl s

theorem enterJoiningFromMuted_work (s : State) : Work (workByte segment) s s.enterJoiningFromMuted := by
  have hblocks : Work (workByte segment) s { s.setFullNext with
      line.txEnable := true
      arbiter.collisions := 0
      station.muteTimer := none
      station.joinTimer := some 0 } := .same rfl rfl rfl rfl rfl rfl rfl
  exact hblocks.trans (enterState_work _ .joining)

/-- A retry of a CALL or a CLEAR: it is owed again, or its circuit goes FREE (R64, R83). -/
theorem retry_work (s : State) (c : CircuitNo) (again : State → State) (outcome : CompletionOutcome) (due : Prop) [Decidable due]
    (hagain : ∀ t, Work (workByte segment) t (again t)) : Work (workByte segment) s (if due then
      (if (s.circuit c).sendCount < Config.maxSends then again (s.updCircuit c fun k => { k with retryTimer := none })
      else (s.updCircuit c fun k => { k with retryTimer := none }).freeWith c outcome)
    else s) := by
  have hstopped : Work (workByte segment) s (s.updCircuit c fun k => { k with retryTimer := none }) := updCircuit_work s c _ rfl
  split
  · split
    · exact hstopped.trans (hagain _)
    · exact hstopped.trans (freeWith_work _ c outcome)
  · exact .refl s

theorem rxIdleExpiry_work (s : State) (c : CircuitNo) : ∃ t, exec (.rxIdleExpiry c) s = .next t ∧ Work (workByte segment) s t := by
  refine ⟨_, rfl, ?_⟩
  have hstopped : Work (workByte segment) s (s.updCircuit c fun k => { k with rxIdleTimer := none }) := updCircuit_work s c _ rfl
  split
  · dsimp only
    split
    · exact hstopped.trans (raise_work _ _)
    · exact hstopped
  · exact .refl s

/-! ## The work of every command -/

/-- The bytes that a command may write. -/
def mayWrite : Instr → Nat → Prop
  | .hostWrite _ _ _ _ | .go | .restart | .controlOtherValue _ => fun _ => True
  | .requestPostIndexWrite _ | .attentionTakeIndexWrite _ | .interruptEnableWrite _ | .txPostIndexWrite _ _ |
    .rxReleaseIndexWrite _ _ | .gapAck _ _ => fun a => ownByte a ∨ a ∈ hostBytes
  | .startPassEnd => fun a => a < 0x0500
  | .frameSent => workByte True
  | .frameTruncated bytes => workByte (∃ f, classify true bytes = .good .data f)
  | .damagedFrame bytes => workByte (∃ f, classify false bytes = .good .data f)
  | .malformedFrame bytes => workByte (∃ f, classify false bytes = .good .data f)
  | .dataReceived f => workByte (∃ g, classify false (frameBytes .data f) = .good .data g)
  | .ackReceived f => workByte (∃ g, classify false (frameBytes .ack f) = .good .data g)
  | .callReceived f => workByte (∃ g, classify false (frameBytes .call f) = .good .data g)
  | .answerReceived f => workByte (∃ g, classify false (frameBytes .answer f) = .good .data g)
  | .refuseReceived f => workByte (∃ g, classify false (frameBytes .refuse f) = .good .data g)
  | .clearReceived f => workByte (∃ g, classify false (frameBytes .clear f) = .good .data g)
  | .confirmReceived f => workByte (∃ g, classify false (frameBytes .confirm f) = .good .data g)
  | .rollReceived f => workByte (∃ g, classify false (frameBytes .roll f) = .good .data g)
  | _ => workByte False

/-- Every command answers a next state, and its work keeps the laws of the memory, the rings and the queues (log 28). -/
theorem exec_work (i : Instr) (s : State) : ∃ t, exec i s = .next t ∧ Work (mayWrite i) s t := by
  cases i with
  | resetPinLow => exact ⟨_, rfl, pinReset_work s⟩
  | resetRelease address rate loop =>
    refine ⟨_, rfl, ?_⟩
    split
    · exact .same rfl rfl rfl rfl rfl rfl rfl
    · exact .refl s
  | startPassEnd =>
    refine ⟨_, rfl, ?_⟩
    split
    · exact (startPass_work s _).trans (finishStartPass_work _)
    · exact .refl s
  | go => exact ⟨_, rfl, writeControl_work s _⟩
  | restart => exact ⟨_, rfl, writeControl_work s _⟩
  | controlOtherValue v => exact ⟨_, rfl, writeControl_work s v⟩
  | requestPostIndexWrite v => exact ⟨_, rfl, writeWatched_work s .requestPost v (by decide)⟩
  | openRequest => exact ⟨_, rfl, takeIf_work s _⟩
  | listenRequest => exact ⟨_, rfl, takeIf_work s _⟩
  | closeRequest => exact ⟨_, rfl, takeIf_work s _⟩
  | abortRequest => exact ⟨_, rfl, takeIf_work s _⟩
  | badKindRequest => exact ⟨_, rfl, takeIf_work s _⟩
  | attentionTakeIndexWrite v => exact ⟨_, rfl, writeWatched_work s .attentionTake v (by decide)⟩
  | pendingSetDrain => exact ⟨_, rfl, drainWaiting_work s⟩
  | interruptEnableWrite v => exact ⟨_, rfl, writeWatched_work s .interruptEnable v (by decide)⟩
  | txPostIndexWrite c v => exact ⟨_, rfl, writeWatched_work s (.txPost c) v (by simp)⟩
  | rxReleaseIndexWrite c v => exact ⟨_, rfl, writeWatched_work s (.rxRelease c) v (by simp)⟩
  | gapAck c v => exact ⟨_, rfl, writeWatched_work s (.gapAck c) v (by simp)⟩
  | stickyQualityFlagsRead be1 be0 => exact ⟨_, rfl, stickyRead_work s be1 be0⟩
  | hostWrite word be1 be0 data => exact ⟨_, rfl, hostWrite_work s word be1 be0 data⟩
  | lineSettled => exact ⟨_, rfl, lineSettled_work s⟩
  | lineBusy => exact ⟨_, rfl, lineBusy_work s⟩
  | frameTruncated bytes => exact ⟨_, rfl, hear_work s true bytes⟩
  | damagedFrame bytes => exact ⟨_, rfl, hear_work s false bytes⟩
  | malformedFrame bytes => exact ⟨_, rfl, hear_work s false bytes⟩
  | dataReceived f => exact ⟨_, rfl, hear_work s false _⟩
  | ackReceived f => exact ⟨_, rfl, hear_work s false _⟩
  | callReceived f => exact ⟨_, rfl, hear_work s false _⟩
  | answerReceived f => exact ⟨_, rfl, hear_work s false _⟩
  | refuseReceived f => exact ⟨_, rfl, hear_work s false _⟩
  | clearReceived f => exact ⟨_, rfl, hear_work s false _⟩
  | confirmReceived f => exact ⟨_, rfl, hear_work s false _⟩
  | rollReceived f => exact ⟨_, rfl, hear_work s false _⟩
  | drainComplete c => exact ⟨_, rfl, testDrain_work s c⟩
  | silentRoundEnd =>
    refine ⟨_, rfl, ?_⟩
    split
    · exact beginRound_work s
    · exact .refl s
  | turn =>
    refine ⟨_, rfl, ?_⟩
    split
    · exact makeTurn_work s
    · exact .refl s
  | collisionDetected => exact ⟨_, rfl, collisionDetected_work s⟩
  | frameSent => exact ⟨_, rfl, frameSent_work s⟩
  | frameCollided => exact ⟨_, rfl, frameCollided_work s⟩
  | enterMuted => exact ⟨_, rfl, muteIfDue_work s⟩
  | peerAgedOut a => exact ⟨_, rfl, peerAgedOut_work s a⟩
  | silenceTimerExpiry =>
    refine ⟨_, rfl, ?_⟩
    split
    · exact oweRoll_work s
    · exact .refl s
  | joinTimerExpiry =>
    refine ⟨_, rfl, ?_⟩
    split
    · exact .same rfl rfl rfl rfl rfl rfl rfl
    · exact .refl s
  | muteTimerExpiry =>
    refine ⟨_, rfl, ?_⟩
    split
    · exact enterJoiningFromMuted_work s
    · exact .refl s
  | callRetryExpiry c =>
    exact ⟨_, rfl, retry_work s c (fun t => t.updCircuit c fun k => { k with callOwed := true }) _ _
      fun t => updCircuit_work t c _ rfl⟩
  | clearRetryExpiry c => exact ⟨_, rfl, retry_work s c (fun t => t.oweControl c .clear) _ _ fun t => oweControl_work t c .clear⟩
  | dataRetryExpiry c =>
    refine ⟨_, rfl, ?_⟩
    split
    · exact dataRetryOut_work s c
    · exact .refl s
  | probeExpiry c =>
    refine ⟨_, rfl, ?_⟩
    split
    · exact probeOut_work s c
    · exact .refl s
  | rxIdleExpiry c => exact rxIdleExpiry_work s c
  | qualityWindowEnd =>
    refine ⟨_, rfl, ?_⟩
    split
    · split
      · exact endWindow_work s _
      · exact .refl s
    · exact .refl s

end TimerWork

/-- A bit time writes at most one field of the start pass (R174). -/
theorem tickStartPass_work (s : State) : Work (· < 0x0500) s s.tickStartPass := by
  unfold State.tickStartPass
  split
  · exact .refl s
  · next n _ =>
    split
    · exact .refl s
    · next w rest hrest =>
      have hstation : Work (· < 0x0500) s { s with station.startPass := some (n + 1) } := .same rfl rfl rfl rfl rfl rfl rfl
      have hw : w ∈ startPassWrites s.station.address s.station.rate s.station.loop :=
        List.mem_of_mem_drop (hrest ▸ List.mem_cons_self : w ∈ s.startPassRest n)
      refine hstation.trans (writeField_work _ w fun a ha => ?_)
      have := startPassWrites_below hw a ha
      exact ⟨by omega, this⟩

/-- The timers of a bit time leave the rings, the window and the queues alone. -/
theorem tickTimers_work {may : Nat → Prop} (s : State) : Work may s s.tickTimers where
  memory h := h
  rings h c := by
    have : s.tickTimers.circuit c = (s.circuit c).tick := circuits_map _ _ c
    rw [this]
    exact ringAreaLaw_congr rfl (h c)
  orphans h := h
  notices h := h
  requests h := h
  pending := rfl
  landed h := h
  window _ _ _ _ := rfl

/-- A bit time up to the happenings that fall due in it. -/
theorem tick_work (s : State) : Work (· < 0x0500) s s.tickStartPass.tickTimers := (tickStartPass_work s).trans (tickTimers_work _)

/-- What a step is: with an empty queue one bit time, whose happenings join the queue, and otherwise the command at the front. -/
theorem step_cases {s t : State} (h : step s = .next t) :
    (s.pending = [] ∧ ∃ u, u = s.tickStartPass.tickTimers ∧ t = { u with pending := u.pending ++ dueBetween s u }) ∨
    (∃ i rest, s.pending = i :: rest ∧ exec i { s with pending := rest } = .next t) := by
  unfold step at h
  split at h
  · next hempty =>
    cases h
    exact .inl ⟨hempty, _, rfl, rfl⟩
  · next i rest hfront => exact .inr ⟨i, rest, hfront, h⟩

/-- The laws that speak of neither the queue nor the count of landed writes are those of the work in a step. -/
theorem step_work {s t : State} (h : step s = .next t) :
    ∃ u v, Work (fun _ => True) u v ∧ u = { s with pending := u.pending } ∧ t = { v with pending := t.pending } := by
  obtain ⟨-, u, rfl, rfl⟩ | ⟨i, rest, -, hexec⟩ := step_cases h
  · exact ⟨s, _, (tick_work s).mono fun _ _ => trivial, rfl, rfl⟩
  · obtain ⟨v, hv, hwork⟩ := exec_work i { s with pending := rest }
    rw [hv] at hexec
    cases hexec
    exact ⟨_, _, hwork.mono fun _ _ => trivial, rfl, rfl⟩

/-- Settles O55: all work keeps the canonical form, and every ring within the ring area. -/
theorem stepsKeepMemoryAndRings : Obligations.StepsKeepMemoryAndRings := by
  intro s t hmem hrings h
  obtain ⟨u, v, hwork, hu, ht⟩ := step_work h
  rw [hu] at hwork
  rw [ht]
  exact ⟨hwork.memory hmem, hwork.rings hrings⟩

/-! ## The count of landed writes -/

/-- A host write's command is the arrival of its bytes and work from there (R130, R144). -/
theorem exec_access_work {i : Instr} {bytes : List (Nat × Byte)} (h : accessBytes i = some bytes) (s : State) :
    ∃ t, exec i s = .next t ∧ Work (fun _ => True) (s.arrive bytes) t := by
  have hfield (w : WatchedField) (v : Byte) :
      Work (fun _ => True) (s.arrive [(w.offset, v)]) (s.writeWatched w v) :=
    takeField_work _ w v (fun _ _ => trivial) fun _ => ⟨trivial, landLater_work _⟩
  cases i <;> cases h
  case hostWrite word be1 be0 data =>
    refine ⟨_, rfl, ?_⟩
    have hdrawn (s : State) : Work (fun _ => True) s { s with choices := s.choices + 1 } := .same rfl rfl rfl rfl rfl rfl rfl
    unfold State.hostWrite
    dsimp only
    split
    · split
      · exact ((hdrawn _).trans (takeLane_work _ _ _ _)).trans (takeLane_work _ _ _ _)
      · exact ((hdrawn _).trans (takeLane_work _ _ _ _)).trans (takeLane_work _ _ _ _)
    · exact (takeLane_work _ _ _ _).trans (takeLane_work _ _ _ _)
  all_goals exact ⟨_, rfl, hfield _ _⟩

theorem writesAhead_cons {s : State} {i : Instr} {rest : List Instr} (h : s.pending = i :: rest) : s.writesAhead =
    if holdsBack i then [] else
      (accessBytes i).toList ++ ({ s with pending := rest } : State).writesAhead := by
  rw [State.writesAhead, h]
  cases hi : holdsBack i with
  | true => simp [hi]
  | false => cases hb : accessBytes i <;> simp [hi, hb, State.writesAhead]

theorem accessBytes_of_holdsBack {i : Instr} (h : holdsBack i = true) : accessBytes i = none := by
  cases i <;> first | rfl | cases h

/-- A step keeps the count of landed writes within those that wait: a write that comes to its turn gives up its place (log 11). -/
theorem step_landedLaw {s t : State} (hlaw : LandedLaw s) (h : step s = .next t) : LandedLaw t := by
  obtain ⟨hempty, u, rfl, rfl⟩ | ⟨i, rest, hfront, hexec⟩ := step_cases h
  · have hnone : s.writesAhead = [] := by rw [State.writesAhead, hempty]; rfl
    have hlanded : s.tickStartPass.tickTimers.landed = s.landed := tickStartPass_landed s
    rw [LandedLaw, hnone] at hlaw
    show s.tickStartPass.tickTimers.landed ≤ _
    simp only [List.length_nil] at hlaw
    omega
  · have hahead := writesAhead_cons hfront
    have hlaw' : s.landed ≤ s.writesAhead.length := hlaw
    cases hbytes : accessBytes i with
    | none =>
      obtain ⟨v, hv, hwork⟩ := exec_work i { s with pending := rest }
      rw [hv] at hexec
      cases hexec
      refine hwork.landed ?_
      show s.landed ≤ _
      rw [hahead, hbytes] at hlaw'
      split at hlaw'
      · simp only [List.length_nil] at hlaw'
        omega
      · simpa using hlaw'
    | some bytes =>
      obtain ⟨v, hv, hwork⟩ := exec_access_work hbytes { s with pending := rest }
      rw [hv] at hexec
      cases hexec
      refine hwork.landed ?_
      have hpending : (({ s with pending := rest } : State).arrive bytes).writesAhead =
          ({ s with pending := rest } : State).writesAhead := by rw [arrive_eq]; rfl
      have hcount : (({ s with pending := rest } : State).arrive bytes).landed = s.landed - 1 := by rw [arrive_eq]
      rw [LandedLaw, hpending, hcount]
      rw [hahead, hbytes, if_neg fun hholds => by rw [accessBytes_of_holdsBack hholds] at hbytes; cases hbytes] at hlaw'
      simp only [Option.toList_some, List.singleton_append, List.length_cons] at hlaw'
      omega
where
  tickStartPass_landed (s : State) : s.tickStartPass.landed = s.landed := by
    unfold State.tickStartPass
    split
    · rfl
    · split
      · rfl
      · next w _ _ => cases w <;> rfl

/-- Settles O56: all work keeps the orphan list and the queues in order, and a host write leaves those that have landed as its bytes
arrive. -/
theorem stepsKeepTheQueues : Obligations.StepsKeepTheQueues := by
  refine ⟨fun s t horphans hrequests h => ?_, fun s t hattention hirq h => ?_, fun s t hlaw h => step_landedLaw hlaw h⟩ <;>
    obtain ⟨u, v, hwork, hu, ht⟩ := step_work h <;> rw [hu] at hwork <;> rw [ht]
  · exact ⟨hwork.orphans horphans, hwork.requests hrequests⟩
  · exact hwork.notices ⟨hattention, hirq⟩

end Sys2Proof.Proofs
end

section
namespace Sys2Proof.Proofs

open Sys2Proof Sys2Proof.Machine Sys2Proof.Claims Sys2Proof.Safety Sys2Proof.Laws Sys2Proof.Laws.FrameLength

/-! ## The host writes that wait -/

theorem wordBytes_eq (word : BitVec 15) (be1 be0 : Bool) (data : Half) : wordBytes word be1 be0 data =
    (if be0 then [(2 * word.toNat, data.setWidth 8)] else []) ++
      if be1 then [(2 * word.toNat + 1, (data >>> 8).setWidth 8)] else [] := by
  rw [wordBytes, lowByte_eq, highByte_eq]
  rfl

theorem accessBytes_eq_hostAccess (i : Instr) : accessBytes i = hostAccess i := by
  cases i with
  | hostWrite word be1 be0 data => exact congrArg some (wordBytes_eq word be1 be0 data)
  | _ => rfl

theorem holdsBack_eq (i : Instr) : (!holdsBack i) = (match i with
    | .stickyQualityFlagsRead _ _ | .resetPinLow => false
    | _ => true) := by cases i <;> rfl

/-- The accesses of the writes that wait, as the model and the statements list them (R130, log 11). -/
theorem writesAhead_eq (s : State) : s.writesAhead = (writesWaiting s).map fun i => (hostAccess i).getD [] := by
  have hlist (l : List Instr) : l.filterMap accessBytes =
      (l.filter fun i => (hostAccess i).isSome).map fun i => (hostAccess i).getD [] := by
    induction l with
    | nil => rfl
    | cons i rest ih =>
      rw [List.filterMap_cons, List.filter_cons, accessBytes_eq_hostAccess]
      cases h : hostAccess i <;> simp [ih, h]
  have htake : s.pending.takeWhile (fun i => !holdsBack i) = s.pending.takeWhile fun i => match i with
      | .stickyQualityFlagsRead _ _ | .resetPinLow => false
      | _ => true := congrArg (fun p => s.pending.takeWhile p) (funext holdsBack_eq)
  exact (hlist _).trans (congrArg (fun l : List Instr =>
    (l.filter fun i => (hostAccess i).isSome).map fun i => (hostAccess i).getD []) htake)

theorem writesControl_eq (i : Instr) : writesControl i = touchesControl ((hostAccess i).getD []) := by
  simp only [writesControl, touchesControl, offControl, beq_eq_decide]

theorem arrive_writesAhead (s : State) (bytes : List (Nat × Byte)) : (s.arrive bytes).writesAhead = s.writesAhead := by
  rw [arrive_eq]
  rfl

theorem arrive_landed (s : State) (bytes : List (Nat × Byte)) : (s.arrive bytes).landed = s.landed - 1 := by
  rw [arrive_eq]

/-- Of the writes behind a host write in hand, one of CONTROL that has not landed (R145, log 11). -/
theorem openWrites_eq (s : State) (bytes : List (Nat × Byte)) : openWrites s =
    ((s.arrive bytes).writesAhead.drop (s.arrive bytes).landed).any touchesControl := by
  rw [arrive_writesAhead, arrive_landed, writesAhead_eq, ← List.map_drop, List.any_map, openWrites, writesToLand]
  exact congrArg _ (funext fun i => writesControl_eq i)

/-- With no later write of CONTROL open, nothing lands as one is taken (R145). -/
theorem landLater_of_openWrites {s : State} {bytes : List (Nat × Byte)} (h : openWrites s = false) :
    (s.arrive bytes).landLater = s.arrive bytes := by
  rw [openWrites_eq s bytes] at h
  rw [State.landLater]
  exact if_neg (by rw [h]; decide)

/-! ## What the MT16's own work leaves alone -/

/-- A write of CONTROL reaches no other host-owned byte while no later write of it is open. -/
theorem writeControl_work_of_openWrites {s : State} (v : Byte) (h : openWrites s = false) :
    Work (fun a => ownByte a ∨ a = 0x0A) s (s.writeWatched .control v) := by
  refine (arrive_watched_work s .control v (.inr rfl)).trans (takeField_work _ .control v (fun _ => .inl) fun _ => ⟨.inr rfl, ?_⟩)
  rw [landLater_of_openWrites h]
  exact .refl _

/-- Work that leaves the request queue, the Start Block and the host scratch alone. -/
abbrev sparesHostMemory (may : Nat → Prop) : Prop := ∀ a, may a → a < 0x0500 ∨ (0x0600 ≤ a ∧ a < 0x0800) ∨ 0x1000 ≤ a

theorem ownByte_below {a : Nat} (h : ownByte a) : a < 0x0500 ∨ (0x0600 ≤ a ∧ a < 0x0800) := by
  obtain ⟨h, -⟩ | h := h
  · exact .inl h
  · exact .inr h

theorem ownByte_not_host {a : Nat} (h : ownByte a) : a ∉ hostBytes := by
  obtain ⟨-, h⟩ | h := h
  · exact h
  · intro hmem
    have := hostBytes_below hmem
    omega

theorem workByte_spares (segment : Prop) : sparesHostMemory (workByte segment) := by
  rintro a (h | ⟨-, h⟩)
  · have := ownByte_below h
    omega
  · exact .inr (.inr h)

/-- The bytes that a command may write, unless the host writes by it a word or CONTROL. -/
theorem mayWrite_spares {i : Instr} (hword : ∀ w be1 be0 data, i ≠ .hostWrite w be1 be0 data) (hcontrol : isControlRow i = false) :
    sparesHostMemory (mayWrite i) := by
  have hwatched : sparesHostMemory fun a => ownByte a ∨ a ∈ hostBytes := by
    rintro a (h | h)
    · have := ownByte_below h
      omega
    · exact .inl (hostBytes_below h)
  cases i with
  | hostWrite w be1 be0 data => exact absurd rfl (hword w be1 be0 data)
  | go | restart | controlOtherValue => cases hcontrol
  | requestPostIndexWrite | attentionTakeIndexWrite | interruptEnableWrite | txPostIndexWrite | rxReleaseIndexWrite | gapAck =>
    exact hwatched
  | startPassEnd => exact fun a h => .inl h
  | _ => exact workByte_spares _

/-- A frame of another kind than DATA is not classed as one. -/
theorem not_good_data {truncated : Bool} {bytes : List Byte} (h : kindOf bytes ≠ .data) :
    ¬∃ f, classify truncated bytes = .good .data f := by
  rintro ⟨f, hgood⟩
  obtain ⟨-, hkind, -, -⟩ := classify_good hgood
  exact h hkind.symm

/-- Only a good DATA and a sent report, which may bring a looped DATA, reach the ring area. -/
theorem mayWrite_below_rings {i : Instr} (hword : ∀ w be1 be0 data, i ≠ .hostWrite w be1 be0 data)
    (hcontrol : isControlRow i = false) (hwf : i.wellFormed = true) (hdata : ∀ f, i ≠ .dataReceived f) (hsent : i ≠ .frameSent)
    {a : Nat} (h : mayWrite i a) : a < 0x1000 := by
  have hnone {segment : Prop} (hseg : ¬segment) (h : workByte segment a) : a < 0x1000 := by
    obtain h | ⟨hs, -⟩ := h
    · have := ownByte_below h
      omega
    · exact absurd hs hseg
  have hkind {k : Kind} {f : Frame} (hk : k ≠ .data) (h : workByte (∃ g, classify false (frameBytes k f) = .good .data g) a) :
      a < 0x1000 := hnone (not_good_data (by rwa [kindOf_frameBytes])) h
  have hwatched (h : ownByte a ∨ a ∈ hostBytes) : a < 0x1000 := by
    obtain h | h := h
    · have := ownByte_below h
      omega
    · have := hostBytes_below h
      omega
  cases i with
  | hostWrite w be1 be0 data => exact absurd rfl (hword w be1 be0 data)
  | go | restart | controlOtherValue => cases hcontrol
  | requestPostIndexWrite | attentionTakeIndexWrite | interruptEnableWrite | txPostIndexWrite | rxReleaseIndexWrite | gapAck =>
    exact hwatched h
  | startPassEnd => exact Nat.lt_trans (show a < 0x0500 from h) (by decide)
  | frameSent => exact absurd rfl hsent
  | dataReceived f => exact absurd rfl (hdata f)
  | frameTruncated bytes => exact hnone (fun ⟨f, hgood⟩ => absurd (classify_good hgood).1 (by decide)) h
  | damagedFrame bytes =>
    refine hnone (fun ⟨f, hgood⟩ => ?_) h
    rw [Instr.wellFormed, hgood] at hwf
    cases hwf
  | malformedFrame bytes =>
    refine hnone (fun ⟨f, hgood⟩ => ?_) h
    rw [Instr.wellFormed, hgood] at hwf
    cases hwf
  | ackReceived | callReceived | answerReceived | refuseReceived | clearReceived | confirmReceived | rollReceived =>
    exact hkind (by decide) h
  | _ => exact hnone id h

/-- Work that is neither the host's nor the start pass's leaves the host-owned bytes alone. -/
theorem mayWrite_not_host {i : Instr} (hhost : isHostWrite i = false) (hpass : i ≠ .startPassEnd) {a : Nat} (h : mayWrite i a) :
    a ∉ hostBytes := by
  have hwork {segment : Prop} (h : workByte segment a) : a ∉ hostBytes := by
    obtain h | ⟨-, h⟩ := h
    · exact ownByte_not_host h
    · intro hmem
      have := hostBytes_below hmem
      omega
  cases i with
  | hostWrite | go | restart | controlOtherValue | requestPostIndexWrite | attentionTakeIndexWrite | interruptEnableWrite |
    txPostIndexWrite | rxReleaseIndexWrite | gapAck => cases hhost
  | startPassEnd => exact absurd rfl hpass
  | _ => exact hwork h

/-- What a piece of work leaves alone, from the bytes that it may write. -/
theorem Work.sameRange {may : Nat → Prop} {s t : State} (h : Work may s t) (hrings : ∀ c, RingAreaLaw (s.circuit c)) {lo hi : Nat}
    (hhi : hi ≤ 65536) (hout : ∀ a, lo ≤ a → a < hi → ¬may a) : sameRange s t lo hi :=
  fun a hlo ha => h.window hrings a (by omega) (hout a hlo ha)

/-- Settles O53: from the bytes that each command may write. -/
theorem workLeavesHostMemoryAlone : Obligations.WorkLeavesHostMemoryAlone := by
  intro s i hrings hwf hword hopen
  cases hcontrol : isControlRow i with
  | true =>
    have hvalue : ∃ v, exec i s = .next (s.writeWatched .control v) := by
      cases i <;> first | exact ⟨_, rfl⟩ | cases hcontrol
    obtain ⟨v, hexec⟩ := hvalue
    have hwork := writeControl_work_of_openWrites v (hopen hcontrol)
    have hbelow {a : Nat} (h : ownByte a ∨ a = 0x0A) : a < 0x0500 ∨ (0x0600 ≤ a ∧ a < 0x0800) := by
      obtain h | h := h
      · exact ownByte_below h
      · omega
    refine ⟨_, hexec, hwork.sameRange hrings (by decide) ?_, hwork.sameRange hrings (by decide) ?_,
      fun _ _ => hwork.sameRange hrings (by decide) ?_, fun hhost => ?_⟩
    · exact fun a hlo hhi h => by have := hbelow h; omega
    · exact fun a hlo hhi h => by have := hbelow h; omega
    · exact fun a hlo hhi h => by have := hbelow h; omega
    · have hrow : isHostWrite i = true := by
        cases i <;> first | rfl | cases hcontrol
      rw [hrow] at hhost
      cases hhost
  | false =>
    obtain ⟨t, hexec, hwork⟩ := exec_work i s
    have hspares := mayWrite_spares hword hcontrol
    refine ⟨t, hexec, hwork.sameRange hrings (by decide) ?_, hwork.sameRange hrings (by decide) ?_, fun hdata hsent => ?_,
      fun hhost hpass a ha => ?_⟩
    · exact fun a hlo hhi h => by have := hspares a h; omega
    · exact fun a hlo hhi h => by have := hspares a h; omega
    · refine hwork.sameRange hrings (by decide) fun a hlo hhi h => ?_
      have := mayWrite_below_rings hword hcontrol hwf hdata hsent h
      omega
    · exact hwork.window hrings a (by have := hostBytes_below ha; omega) fun h => mayWrite_not_host hhost hpass h ha

end Sys2Proof.Proofs
end

section
namespace Sys2Proof.Proofs

open Sys2Proof Sys2Proof.Machine Sys2Proof.Claims Sys2Proof.Safety Sys2Proof.Laws

/-! ## What each operation makes of its circuit -/

/-- The Notice Unit changes no circuit. -/
@[simp] theorem circuit_raiseWith (s : State) (p : NoticePair) (detail : Byte) (d : CircuitNo) :
    (s.raiseWith p detail).circuit d = s.circuit d := (raiseWith_only s p detail).circuit d

@[simp] theorem circuit_raise (s : State) (p : NoticePair) (d : CircuitNo) : (s.raise p).circuit d = s.circuit d :=
  (raise_only s p).circuit d

@[simp] theorem circuit_raiseOption (s : State) (p : Option NoticePair) (d : CircuitNo) :
    (s.raiseOption p).circuit d = s.circuit d := (raiseOption_only s p).circuit d

theorem clearAckPoll_circuit (s : State) (c : CircuitNo) :
    (s.clearAckPoll c).circuit c = { s.circuit c with ackOwed := false, pollOwed := false } := by
  simp [State.clearAckPoll]

theorem clearControl_circuit (s : State) (c : CircuitNo) :
    (s.clearControl c).circuit c = { s.circuit c with controlOwed := none } := by
  simp [State.clearControl]

theorem oweControl_circuit (s : State) (c : CircuitNo) (kind : ControlKind) :
    (s.oweControl c kind).circuit c = { s.circuit c with controlOwed := some kind } := circuit_updCircuit_same _ _ _

theorem setCircuitState_circuit (s : State) (c : CircuitNo) (st : CircuitState) :
    (s.setCircuitState c st).circuit c = { s.circuit c with state := st } := by
  simp [State.setCircuitState]

theorem completes_eq (k : Circuit) (outcome : CompletionOutcome) : k.completes outcome = completedWith k outcome := by
  cases h : k.inFlight <;> simp [Circuit.completes, completedWith, h]

theorem writeCompletionOption_circuit (s : State) (c : CircuitNo) (done : Option Completion) :
    (s.writeCompletionOption c done).circuit c = { s.circuit c with
      completion := done.or (s.circuit c).completion
      inFlight := if done.isSome then none else (s.circuit c).inFlight } := by
  cases done <;> simp [State.writeCompletionOption, writeCompletion_circuit]

theorem goFree_option_eq (s : State) (c : CircuitNo) (done : Option Completion) :
    s.goFree c done = ((quieted s c).writeCompletionOption c done).setCircuitState c .free := rfl

theorem goFree_option_circuit (s : State) (c : CircuitNo) (done : Option Completion) :
    (s.goFree c done).circuit c = freed (s.circuit c) done := by
  cases done with
  | some d => exact goFree_circuit s c d
  | none =>
    simp [goFree_option_eq, State.writeCompletionOption, setCircuitState_circuit, quieted, releaseOwed_circuit, withUnsent_circuit,
      freed, live_iff]

theorem goFree_option_orphans (s : State) (c : CircuitNo) (done : Option Completion) :
    (s.goFree c done).orphans = movedConfirm s c := by
  cases done with
  | some d => exact goFree_orphans s c d
  | none => exact quieted_orphans s c

theorem goFree_option_selector (s : State) (c : CircuitNo) (done : Option Completion) :
    (s.goFree c done).selector = flightForgets s c true := by
  cases done with
  | some d => exact goFree_selector s c d
  | none => exact quieted_selector s c

theorem freeWith_circuit (s : State) (c : CircuitNo) (outcome : CompletionOutcome) :
    (s.freeWith c outcome).circuit c = freed (s.circuit c) (completedWith (s.circuit c) outcome) := by
  rw [State.freeWith, circuit_raiseOption, goFree_option_circuit, completes_eq]

theorem freeWith_orphans (s : State) (c : CircuitNo) (outcome : CompletionOutcome) :
    (s.freeWith c outcome).orphans = movedConfirm s c := by
  rw [State.freeWith, (raiseOption_only _ _).orphans, goFree_option_orphans]

theorem freeWith_selector (s : State) (c : CircuitNo) (outcome : CompletionOutcome) :
    (s.freeWith c outcome).selector = flightForgets s c true := by
  rw [State.freeWith, (raiseOption_only _ _).selector, goFree_option_selector]

theorem completeInto_circuit (s : State) (c : CircuitNo) (outcome : CompletionOutcome) (st : CircuitState) :
    (s.completeInto c outcome st).circuit c = { s.circuit c with
      state := st
      completion := (completedWith (s.circuit c) outcome).or (s.circuit c).completion
      inFlight := none } := by
  simp [State.completeInto, setCircuitState_circuit, writeCompletionOption_circuit, completes_eq]

theorem writeCompletionOption_orphans (s : State) (c : CircuitNo) (done : Option Completion) :
    (s.writeCompletionOption c done).orphans = s.orphans := by
  cases done with
  | none => rfl
  | some d => exact writeCompletion_orphans s c d

theorem writeCompletionOption_selector (s : State) (c : CircuitNo) (done : Option Completion) :
    (s.writeCompletionOption c done).selector = s.selector := by
  cases done with
  | none => rfl
  | some d => exact writeCompletion_selector s c d

theorem completeInto_orphans (s : State) (c : CircuitNo) (outcome : CompletionOutcome) (st : CircuitState) :
    (s.completeInto c outcome st).orphans = s.orphans :=
  (raiseOption_only _ _).orphans.trans (writeCompletionOption_orphans s c _)

theorem completeInto_selector (s : State) (c : CircuitNo) (outcome : CompletionOutcome) (st : CircuitState) :
    (s.completeInto c outcome st).selector = s.selector :=
  (raiseOption_only _ _).selector.trans (writeCompletionOption_selector s c _)

theorem enterEnded_circuit (s : State) (c : CircuitNo) (cause : EndCause) (confirm : Bool) :
    (s.enterEnded c cause confirm).circuit c = endedWith (s.circuit c) cause (if confirm then some .confirm else none) := by
  cases confirm <;>
    simp [State.enterEnded, setCircuitState_circuit, State.writeUnsent, clearAckPoll_circuit, oweControl_circuit,
      clearControl_circuit, endedWith]

theorem enterEnded_orphans (s : State) (c : CircuitNo) (cause : EndCause) (confirm : Bool) :
    (s.enterEnded c cause confirm).orphans = s.orphans := by
  rw [State.enterEnded, (raise_only _ _).orphans]
  cases confirm <;>
    simp [State.setCircuitState, State.writeUnsent, State.clearAckPoll, State.oweControl, State.clearControl]

/-- ACK and POLL owed are cleared, in a state whose frame in flight is that of `s`. -/
theorem clearAckPoll_selector (s : State) (c : CircuitNo) : (s.clearAckPoll c).selector = flightForgets s c false := by
  simp only [flightForgets, State.clearAckPoll, updCircuit_selector, State.forget]
  congr 2
  funext frame
  by_cases h : frame.owner = .circuit c (s.circuit c).lifetime <;> simp [FlightFrame.isOf, h]

theorem enterEnded_selector (s : State) (c : CircuitNo) (cause : EndCause) (confirm : Bool) :
    (s.enterEnded c cause confirm).selector = flightForgets s c !confirm := by
  have hlast (u : State) : ((((u.clearAckPoll c).updCircuit c fun k =>
      { k with dataRetryTimer := none, probeTimer := none, retryTimer := none, endCause := cause }).writeUnsent c).pokeRecord c
        recEndCause cause.code |>.setCircuitState c .ended).selector = (u.clearAckPoll c).selector := by
    simp [State.setCircuitState, State.writeUnsent]
  rw [State.enterEnded, (raise_only _ _).selector, hlast, clearAckPoll_selector]
  cases confirm with
  | true =>
    rw [if_pos rfl, flightForgets, oweControl_circuit]
    rfl
  | false =>
    rw [if_neg (by decide), flightForgets, clearControl_circuit]
    simp only [flightForgets, State.clearControl, updCircuit_selector, State.forget, Option.map_map]
    congr 2
    funext frame
    by_cases h : frame.owner = .circuit c (s.circuit c).lifetime <;> simp [FlightFrame.isOf, h]

theorem lose_circuit (s : State) (c : CircuitNo) (cause : EndCause) :
    (s.lose c cause).circuit c = lostWith (s.circuit c) cause := by
  cases h : (s.circuit c).state <;> simp only [State.lose, lostWith, h, freeWith_circuit, enterEnded_circuit]
  case listening => split <;> simp only [freeWith_circuit]
  rfl

theorem enterClearing_circuit (s : State) (c : CircuitNo) : (s.enterClearing c).circuit c = clearingFrom (s.circuit c) := by
  simp [State.enterClearing, setCircuitState_circuit, oweControl_circuit, clearAckPoll_circuit, clearingFrom]

theorem enterClearing_selector (s : State) (c : CircuitNo) : (s.enterClearing c).selector = flightForgets s c false :=
  clearAckPoll_selector s c

theorem drained_iff (k : Circuit) : k.drained = true ↔ k.state = .draining ∧ k.txDone = k.drainTarget := by
  simp [Circuit.drained]

theorem testDrain_of_drained {s : State} {c : CircuitNo}
    (h : (s.circuit c).state = .draining ∧ (s.circuit c).txDone = (s.circuit c).drainTarget) : s.testDrain c = s.enterClearing c :=
  if_pos ((drained_iff _).mpr h)

theorem testDrain_of_not {s : State} {c : CircuitNo}
    (h : ¬((s.circuit c).state = .draining ∧ (s.circuit c).txDone = (s.circuit c).drainTarget)) : s.testDrain c = s :=
  if_neg (mt (drained_iff _).mp h)

theorem testDrain_circuit (s : State) (c : CircuitNo) : (s.testDrain c).circuit c =
    if (s.circuit c).state = .draining ∧ (s.circuit c).txDone = (s.circuit c).drainTarget then clearingFrom (s.circuit c)
    else s.circuit c := by
  split
  · next h => rw [testDrain_of_drained h, enterClearing_circuit]
  · next h => rw [testDrain_of_not h]

theorem testStall_circuit (s : State) (c : CircuitNo) :
    (s.testStall c).circuit c = { s.circuit c with probeTimer := probeOf (s.circuit c) } := by
  have hprobe (k : Circuit) : (if k.stalled then (match k.probeTimer with | none => some 0 | some t => some t) else none) =
      probeOf k := by
    cases h : k.probeTimer <;> simp [probeOf, h]
  rw [State.testStall, circuit_updCircuit_same]
  exact congrArg (fun timer => ({ s.circuit c with probeTimer := timer } : Circuit)) (hprobe _)

/-- A circuit that has entered CLEARING does not stall. -/
theorem stalled_clearingFrom (k : Circuit) : (clearingFrom k).stalled = false := by
  simp [Circuit.stalled, CircuitState.transfers]

theorem noticeFill_circuit (s : State) (c : CircuitNo) (endMark : Bool) : (s.noticeFill c endMark).circuit c =
    { s.circuit c with
      rxIdleTimer := if endMark = true ∨ (s.circuit c).rxNotice.toNat ≤ (s.circuit c).filledSpan then none else some 0 } := by
  simp only [State.noticeFill, Bool.or_eq_true, decide_eq_true_eq]
  split <;> simp

@[simp] theorem circuit_noticeRelease (s : State) (c : CircuitNo) (n : Nat) (d : CircuitNo) :
    (s.noticeRelease c n).circuit d = s.circuit d := by
  unfold State.noticeRelease
  split <;> simp

@[simp] theorem circuit_writeSlot (s : State) (c : CircuitNo) (f : Frame) (gapped : Bool) (missing : Nat) (d : CircuitNo) :
    (s.writeSlot c f gapped missing).circuit d = s.circuit d := by
  rw [writeSlot_eq]
  rfl

theorem advanceFill_circuit (s : State) (c : CircuitNo) (seq : Seq) : (s.advanceFill c seq).circuit c =
    { s.circuit c with rxFill := (s.circuit c).rxFill + 1, expectedSeq := seq + 1 } := by
  simp [State.advanceFill]

theorem freeSlots_eq_zero_iff (k : Circuit) : k.freeSlots = 0 ↔ ¬hasRoom k := by
  simp only [Circuit.freeSlots, Circuit.filledSpan, hasRoom]
  omega

theorem takeAssuredSegment_circuit (s : State) (c : CircuitNo) (f : Frame) :
    (s.takeAssuredSegment c f).circuit c = segmentTaken (s.circuit c) f := by
  unfold State.takeAssuredSegment segmentTaken
  dsimp only
  by_cases hseq : f.seq ≠ (s.circuit c).expectedSeq
  · rw [if_pos hseq, if_pos hseq]
    simp [State.oweAck]
  · rw [if_neg hseq, if_neg hseq]
    by_cases hfull : (s.circuit c).freeSlots = 0
    · rw [if_pos hfull, if_pos ((freeSlots_eq_zero_iff _).mp hfull)]
      simp [State.oweAck]
    · rw [if_neg hfull, if_neg (mt (freeSlots_eq_zero_iff _).mpr hfull)]
      rw [noticeFill_circuit, State.oweAck, circuit_updCircuit_same, advanceFill_circuit, circuit_writeSlot]
      rw [not_not.mp hseq]
      rfl

theorem markGap_circuit (s : State) (c : CircuitNo) : (s.markGap c).circuit c =
    { s.circuit c with
      gapCount := (s.circuit c).gapCount + 1
      firstGap := some ((s.circuit c).firstGap.getD (s.circuit c).rxFill) } := by
  unfold State.markGap
  dsimp only
  split
  · next p h =>
    have hkept : (s.circuit c).firstGap = some ((s.circuit c).firstGap.getD (s.circuit c).rxFill) := by simp [h]
    rw [circuit_pokeRecordHalf, circuit_updCircuit_same, ← hkept]
  · next h => simp [h]

theorem distance_eq_zero_iff {a b : Seq} : distance a b = 0 ↔ b = a := by
  simp only [distance]
  constructor
  · intro h
    bv_omega
  · rintro rfl
    simp

theorem takePlainSegment_circuit (s : State) (c : CircuitNo) (f : Frame) :
    (s.takePlainSegment c f).circuit c = plainTaken (s.circuit c) f := by
  unfold State.takePlainSegment plainTaken
  dsimp only
  by_cases hfull : (s.circuit c).freeSlots = 0
  · rw [if_pos hfull, if_pos ((freeSlots_eq_zero_iff _).mp hfull)]
    simp
  · rw [if_neg hfull, if_neg (mt (freeSlots_eq_zero_iff _).mpr hfull)]
    by_cases hseq : f.seq = (s.circuit c).expectedSeq
    · rw [if_pos (distance_eq_zero_iff.mpr hseq), noticeFill_circuit, advanceFill_circuit, circuit_writeSlot]
      simp only [hseq, if_true]
      rfl
    · rw [if_neg (mt distance_eq_zero_iff.mp hseq), noticeFill_circuit, circuit_raiseWith, advanceFill_circuit, markGap_circuit,
        circuit_writeSlot]
      simp only [hseq, if_false]
      rfl

theorem progress_iff (k : Circuit) (a : Seq) : k.progress a = true ↔ bringsProgress k a := by
  rw [Circuit.progress, Bool.and_eq_true, decide_eq_true_iff, decide_eq_true_iff]
  rfl

theorem acknowledge_eq_progressed (k : Circuit) (a credit : Seq) : k.acknowledge a credit = progressed k a credit := by
  have hresend : resendAfter k.resendPoint k.oldestSeq a k.nextSeq = match k.resendPoint with
      | none => none
      | some r =>
        let moved := if r = k.oldestSeq ∨ before r a = true then a else r
        if moved = k.nextSeq then none else some moved := by
    cases k.resendPoint with
    | none => rfl
    | some r => simp [resendAfter, or_comm]
  rw [Circuit.acknowledge, hresend]
  rfl

theorem takeAck_circuit (s : State) (c : CircuitNo) (a credit : Seq) :
    (s.takeAck c a credit).circuit c = ackTaken (s.circuit c) a credit := by
  unfold State.takeAck ackTaken
  dsimp only
  by_cases hprogress : bringsProgress (s.circuit c) a
  · rw [if_pos ((progress_iff _ a).mpr hprogress), if_pos hprogress, testStall_circuit, testDrain_circuit, circuit_noticeRelease,
      circuit_pokeRecord, circuit_updCircuit_same, acknowledge_eq_progressed]
    split
    · next hdrained => rw [probeOf, stalled_clearingFrom]; rfl
    · rfl
  · rw [if_neg (mt (progress_iff _ a).mp hprogress), if_neg hprogress]
    split
    · rw [testStall_circuit, circuit_updCircuit_same]
    · rfl

theorem recordFault_circuit (s : State) (c : CircuitNo) (kind : FaultKind) :
    (s.recordFault c kind).circuit c = { s.circuit c with faultKind := kind } := by
  simp [State.recordFault]

end Sys2Proof.Proofs
end

section
namespace Sys2Proof.Proofs

open Sys2Proof Sys2Proof.Machine Sys2Proof.Claims Sys2Proof.Safety Sys2Proof.Laws

/-! ## What work on circuits keeps of the laws -/

/-- The frame in flight but for the flags that a collision may restore, which alone the work on circuits changes (R54). -/
def undischarged (f : FlightFrame) : FlightFrame := { f with discharged := Discharged.nothing }

def flight (s : State) : Option FlightFrame := s.selector.inFlight.map undischarged

theorem flight_of_inFlight {s t : State} (h : t.selector.inFlight = s.selector.inFlight) : flight t = flight s := by
  rw [flight, flight, h]

theorem flight_of_forgets {s t : State} {c : CircuitNo} {control : Bool} (h : t.selector = flightForgets s c control) :
    flight t = flight s := by
  rw [flight, flight, h, flightForgets, Option.map_map]
  congr 1
  funext f
  by_cases hf : f.owner = .circuit c (s.circuit c).lifetime <;> simp [undischarged, hf]

theorem flight_forget (s : State) (c : CircuitNo) (f : Discharged → Discharged) : flight (s.forget c f) = flight s := by
  rw [flight, flight, State.forget, Option.map_map]
  congr 1
  funext g
  by_cases hg : g.isOf c (s.circuit c).lifetime = true <;> simp [undischarged, hg]

/-- What is known where a piece of work is done: addresses that are present, whether no two live circuits are on one pair, whether a
new DATA that it reports as sent had its room, whether a frame is in flight, and whether a request is being taken. -/
structure Terms where
  known : Address → Prop
  paired : Prop
  room : Prop
  busy : Prop
  taking : Prop

/-- Circuit `c` of `s` may become `l`: what its own laws and the pairs of the live circuits say of it holds after as before. -/
structure Becomes (w : Terms) (s : State) (c : CircuitNo) (l : Circuit) : Prop where
  fits : requestFits (s.circuit c) = true → requestFits l = true
  ring : w.room → RingLaw (s.circuit c) → RingLaw l
  lifetime : (s.circuit c).lifetime ≤ l.lifetime
  room : w.busy → l.lifetime = (s.circuit c).lifetime → newDataRoom (s.circuit c) = true → newDataRoom l = true
  pair : w.paired → l.state.live = true →
    ((s.circuit c).state.live = true ∧ l.peer = (s.circuit c).peer ∧ l.peerCircuit = (s.circuit c).peerCircuit) ∨
    (l.peerCircuit.isSome = true ∧ ∀ d, d ≠ c → (s.circuit d).state.live = true → (s.circuit d).peer = l.peer →
      (s.circuit d).peerCircuit ≠ l.peerCircuit)
  engaged : engaged l.state = true →
    (Safety.engaged (s.circuit c).state = true ∧ l.peer = (s.circuit c).peer) ∨ w.known l.peer
  free : (s.circuit c).state = .free → l.state = .free ∨ w.taking

/-- The fields of a circuit that its laws speak of. -/
def core (k : Circuit) : Circuit :=
  { Circuit.reset with
    state := k.state
    mode := k.mode
    peer := k.peer
    peerCircuit := k.peerCircuit
    inFlight := k.inFlight
    lifetime := k.lifetime
    txSize := k.txSize
    rxSize := k.rxSize
    nextSeq := k.nextSeq
    oldestSeq := k.oldestSeq
    txDone := k.txDone
    postedCopy := k.postedCopy
    rxFill := k.rxFill
    releaseCopy := k.releaseCopy }

theorem Becomes.congr {w : Terms} {s : State} {c : CircuitNo} {k l : Circuit} (h : Becomes w s c (core k)) (hl : core l = core k) :
    Becomes w s c l := by
  rw [← hl] at h
  exact ⟨h.fits, h.ring, h.lifetime, h.room, h.pair, h.engaged, h.free⟩

theorem Becomes.of_core {w : Terms} {s : State} {c : CircuitNo} {l : Circuit} (h : core l = core (s.circuit c)) :
    Becomes w s c l := by
  refine Becomes.congr (k := s.circuit c) ⟨id, fun _ => id, le_rfl, fun _ _ => id, fun _ hlive => .inl ⟨hlive, rfl, rfl⟩,
    fun hengaged => .inl ⟨hengaged, rfl⟩, .inl⟩ h

/-- Work that keeps the circuits' laws and the frame in flight. -/
structure Served (w : Terms) (s t : State) : Prop where
  flight : flight t = flight s
  requests : InFlightLaw s → InFlightLaw t
  pairs : w.paired → PairLaw s → PairLaw t
  rings : w.room → (∀ c, RingLaw (s.circuit c)) → ∀ c, RingLaw (t.circuit c)
  lifetime : ∀ c, (s.circuit c).lifetime ≤ (t.circuit c).lifetime
  room : w.busy → ∀ c, (t.circuit c).lifetime = (s.circuit c).lifetime → newDataRoom (s.circuit c) = true →
    newDataRoom (t.circuit c) = true
  engaged : ∀ c, engaged (t.circuit c).state = true →
    (Safety.engaged (s.circuit c).state = true ∧ (t.circuit c).peer = (s.circuit c).peer) ∨ w.known (t.circuit c).peer
  free : ∀ c, (s.circuit c).state = .free → (t.circuit c).state = .free ∨ w.taking

variable {w : Terms}

theorem Served.refl (s : State) : Served w s s :=
  ⟨rfl, id, fun _ => id, fun _ => id, fun _ => le_rfl, fun _ _ _ => id, fun _ h => .inl ⟨h, rfl⟩, fun _ => .inl⟩

theorem Served.trans {s t u : State} (h : Served w s t) (g : Served w t u) : Served w s u where
  flight := g.flight.trans h.flight
  requests := g.requests ∘ h.requests
  pairs hpaired := g.pairs hpaired ∘ h.pairs hpaired
  rings hroom := g.rings hroom ∘ h.rings hroom
  lifetime c := (h.lifetime c).trans (g.lifetime c)
  room hbusy c hlife hnew := by
    have hst := h.lifetime c
    have htu := g.lifetime c
    exact g.room hbusy c (by omega) (h.room hbusy c (by omega) hnew)
  engaged c hc := by
    obtain ⟨ht, hpeer⟩ | hknown := g.engaged c hc
    · obtain ⟨hs, hpeer'⟩ | hknown := h.engaged c ht
      · exact .inl ⟨hs, hpeer.trans hpeer'⟩
      · exact .inr (by rwa [hpeer])
    · exact .inr hknown
  free c hc := (h.free c hc).elim (g.free c) .inr

/-- Nothing is done to the circuits, nor to the frame in flight. -/
theorem Served.same {s t : State} (hcircuits : t.circuits = s.circuits) (hflight : Proofs.flight t = Proofs.flight s) : Served w s t := by
  have hc (c : CircuitNo) : t.circuit c = s.circuit c := congrArg (Vector.get · c) hcircuits
  exact {
    flight := hflight
    requests := fun h c => by rw [hc]; exact h c
    pairs := fun _ ⟨hpeers, hunique⟩ => ⟨fun c => by rw [hc]; exact hpeers c, fun c d => by rw [hc, hc]; exact hunique c d⟩
    rings := fun _ h c => by rw [hc]; exact h c
    lifetime := fun c => by rw [hc]
    room := fun _ c _ h => by rwa [hc]
    engaged := fun c h => .inl ⟨by rwa [hc] at h, by rw [hc]⟩
    free := fun c h => .inl (by rwa [hc]) }

/-- One circuit becomes what it may. -/
theorem Served.of_becomes {s t : State} {c : CircuitNo} (hothers : ∀ d, d ≠ c → t.circuit d = s.circuit d)
    (hflight : Proofs.flight t = Proofs.flight s) (h : Becomes w s c (t.circuit c)) : Served w s t := by
  have hcase {p : CircuitNo → Circuit → Prop} (hc : p c (t.circuit c)) (hd : ∀ d, d ≠ c → p d (s.circuit d)) :
      ∀ d, p d (t.circuit d) := by
    intro d
    by_cases hdc : d = c
    · rw [hdc]
      exact hc
    · rw [hothers d hdc]
      exact hd d hdc
  refine ⟨hflight, fun hlaw => ?_, fun hpaired hlaw => ?_, fun hroom hlaw => ?_, ?_, fun hbusy => ?_, ?_, ?_⟩
  · exact hcase (p := fun _ k => requestFits k = true) (h.fits (hlaw c)) fun d _ => hlaw d
  · obtain ⟨hpeers, hunique⟩ := hlaw
    have hnew (d : CircuitNo) (hd : d ≠ c) (hlive : (t.circuit c).state.live = true) (hdlive : (s.circuit d).state.live = true)
        (hpeer : (s.circuit d).peer = (t.circuit c).peer) : (s.circuit d).peerCircuit ≠ (t.circuit c).peerCircuit := by
      obtain ⟨hlive', hpeer', hpc⟩ | ⟨-, hnone⟩ := h.pair hpaired hlive
      · rw [hpc]
        exact fun heq => hd (hunique d c hdlive hlive' (hpeer.trans hpeer') heq)
      · exact hnone d hd hdlive hpeer
    refine ⟨hcase (p := fun _ k => k.state.live = true → k.peerCircuit.isSome = true) (fun hlive => ?_) fun d _ => hpeers d,
      fun d e hd he hpeer hpc => ?_⟩
    · obtain ⟨hlive', -, hpc⟩ | ⟨hsome, -⟩ := h.pair hpaired hlive
      · rw [hpc]
        exact hpeers c hlive'
      · exact hsome
    · by_cases hdc : d = c <;> by_cases hec : e = c
      · rw [hdc, hec]
      · rw [hdc] at hd hpeer hpc
        rw [hothers e hec] at he hpeer hpc
        exact absurd hpc.symm (hnew e hec hd he hpeer.symm)
      · rw [hec] at he hpeer hpc
        rw [hothers d hdc] at hd hpeer hpc
        exact absurd hpc (hnew d hdc he hd hpeer)
      · rw [hothers d hdc] at hd hpeer hpc
        rw [hothers e hec] at he hpeer hpc
        exact hunique d e hd he hpeer hpc
  · exact hcase (p := fun _ k => RingLaw k) (h.ring hroom (hlaw c)) fun d _ => hlaw d
  · exact hcase (p := fun d k => (s.circuit d).lifetime ≤ k.lifetime) h.lifetime fun _ _ => le_rfl
  · exact hcase (p := fun d k => k.lifetime = (s.circuit d).lifetime → newDataRoom (s.circuit d) = true → newDataRoom k = true)
      (h.room hbusy) fun _ _ _ => id
  · exact hcase (p := fun d k => Safety.engaged k.state = true →
      (Safety.engaged (s.circuit d).state = true ∧ k.peer = (s.circuit d).peer) ∨ w.known k.peer) h.engaged
      fun _ _ hd => .inl ⟨hd, rfl⟩
  · exact hcase (p := fun d k => (s.circuit d).state = .free → k.state = .free ∨ w.taking) h.free fun _ _ => .inl

theorem served_of_noticeOnly {s t : State} (h : NoticeOnly s t) : Served w s t :=
  .same h.circuits (flight_of_inFlight (by rw [h.selector]))

theorem updCircuit_served (s : State) (c : CircuitNo) (f : Circuit → Circuit) (h : Becomes w s c (f (s.circuit c))) :
    Served w s (s.updCircuit c f) :=
  .of_becomes (circuit_updCircuit_other s c · f) rfl (by rwa [circuit_updCircuit_same])

theorem updCircuit_served_core (s : State) (c : CircuitNo) (f : Circuit → Circuit) (h : core (f (s.circuit c)) = core (s.circuit c)) :
    Served w s (s.updCircuit c f) := updCircuit_served s c f (.of_core h)

theorem pokeRecord_served (s : State) (c : CircuitNo) (off : Nat) (v : Byte) : Served w s (s.pokeRecord c off v) := .same rfl rfl

theorem pokeRecordHalf_served (s : State) (c : CircuitNo) (off : Nat) (v : Half) : Served w s (s.pokeRecordHalf c off v) := .same rfl rfl

theorem forget_served (s : State) (c : CircuitNo) (f : Discharged → Discharged) : Served w s (s.forget c f) :=
  .same rfl (flight_forget s c f)

theorem clearAckPoll_served (s : State) (c : CircuitNo) : Served w s (s.clearAckPoll c) :=
  (forget_served s c _).trans (updCircuit_served_core _ c _ rfl)

theorem clearControl_served (s : State) (c : CircuitNo) : Served w s (s.clearControl c) :=
  (forget_served s c _).trans (updCircuit_served_core _ c _ rfl)

theorem oweControl_served (s : State) (c : CircuitNo) (kind : ControlKind) : Served w s (s.oweControl c kind) :=
  updCircuit_served_core s c _ rfl

theorem oweAck_served (s : State) (c : CircuitNo) : Served w s (s.oweAck c) := updCircuit_served_core s c _ rfl

theorem raise_served (s : State) (p : NoticePair) : Served w s (s.raise p) := served_of_noticeOnly (raise_only s p)

theorem raiseWith_served (s : State) (p : NoticePair) (detail : Byte) : Served w s (s.raiseWith p detail) :=
  served_of_noticeOnly (raiseWith_only s p detail)

theorem addOrphan_served (s : State) (peer : Address) (peerCircuit : CircuitNo) (reply : Reply) :
    Served w s (s.addOrphan peer peerCircuit reply) := by
  rw [addOrphan_eq]
  exact .same rfl rfl

theorem writeCompletion_served (s : State) (c : CircuitNo) (d : Completion) (hfree : (s.circuit c).state = .free) :
    Served w s (s.writeCompletion c d) := by
  refine .of_becomes (writeCompletion_only s c d).others (flight_of_inFlight (by rw [writeCompletion_selector])) ?_
  rw [writeCompletion_circuit]
  exact ⟨fun _ => by simp [requestFits, hfree], fun _ h => h, le_rfl, fun _ _ h => h, fun _ h => .inl ⟨h, rfl, rfl⟩,
    fun h => .inl ⟨h, rfl⟩, .inl⟩

/-! ## Going FREE, ENDED, CLEARING and loss -/

/-- A circuit that goes FREE has every law of a circuit (R79). -/
theorem freed_becomes (s : State) (c : CircuitNo) (done : Option Completion) : Becomes w s c (freed (s.circuit c) done) where
  fits _ := rfl
  ring _ := fun ⟨htx, hrx, _, _⟩ => ⟨htx, hrx, fun h => absurd rfl h, fun h => absurd rfl h⟩
  lifetime := le_rfl
  room _ _ _ := rfl
  pair _ h := absurd h (by simp [CircuitState.live])
  engaged h := absurd h (by simp [Safety.engaged])
  free _ := .inl rfl

theorem goFree_served (s : State) (c : CircuitNo) (done : Option Completion) : Served w s (s.goFree c done) :=
  .of_becomes (goFree_only s c done).others (flight_of_forgets (goFree_option_selector s c done))
    (by rw [goFree_option_circuit]; exact freed_becomes s c done)

theorem raiseOption_served (s : State) (p : Option NoticePair) : Served w s (s.raiseOption p) := served_of_noticeOnly (raiseOption_only s p)

theorem freeWith_served (s : State) (c : CircuitNo) (outcome : CompletionOutcome) : Served w s (s.freeWith c outcome) :=
  (goFree_served s c _).trans (raiseOption_served _ _)

/-- An OPEN circuit has no request in flight, and so has an ENDED one (R85, R157). -/
theorem enterEnded_served (s : State) (c : CircuitNo) (cause : EndCause) (confirm : Bool) (hopen : (s.circuit c).state = .opened) :
    Served w s (s.enterEnded c cause confirm) := by
  refine .of_becomes (enterEnded_only s c cause confirm).others (flight_of_forgets (enterEnded_selector s c cause confirm)) ?_
  rw [enterEnded_circuit]
  exact {
    fits := fun h => by cases hr : (s.circuit c).inFlight <;> simp_all [requestFits]
    ring := fun _ ⟨htx, hrx, hspans, hwindow⟩ =>
      ⟨htx, hrx, fun _ => hspans (by simp [hopen]), fun _ => hwindow (by simp [hopen])⟩
    lifetime := le_rfl
    room := fun _ _ _ => rfl
    pair := fun _ h => absurd h (by simp [CircuitState.live])
    engaged := fun h => absurd h (by simp [Safety.engaged])
    free := fun h => absurd h (by simp [hopen]) }

theorem lose_served (s : State) (c : CircuitNo) (cause : EndCause) : Served w s (s.lose c cause) := by
  unfold State.lose
  split
  · exact freeWith_served s c .lost
  · next h => exact enterEnded_served s c cause false h
  · exact freeWith_served s c .lost
  · exact freeWith_served s c .unconfirmed
  · split
    · exact freeWith_served s c .lost
    · exact .refl s
  · exact .refl s
  · exact .refl s

/-- A DRAINING circuit has its CLOSE in flight, and so has a CLEARING one (R81, R157). -/
theorem enterClearing_served (s : State) (c : CircuitNo) (hdrain : (s.circuit c).state = .draining) :
    Served w s (s.enterClearing c) := by
  have hothers : CircuitOnly c s (s.enterClearing c) := (((clearAckPoll_only s c).trans (oweControl_only _ c .clear)).trans
    (updCircuit_only _ c _)).trans (setCircuitState_only _ c .clearing)
  refine .of_becomes hothers.others (flight_of_forgets (enterClearing_selector s c)) ?_
  rw [enterClearing_circuit]
  exact {
    fits := fun h => by rcases hr : (s.circuit c).inFlight with _ | ⟨_ | _ | _ | _, id⟩ <;> simp_all [requestFits]
    ring := fun _ ⟨htx, hrx, hspans, hwindow⟩ =>
      ⟨htx, hrx, fun _ => hspans (by simp [hdrain]), fun _ => hwindow (by simp [hdrain])⟩
    lifetime := le_rfl
    room := fun _ _ _ => rfl
    pair := fun _ _ => .inl ⟨by simp [hdrain, CircuitState.live], rfl, rfl⟩
    engaged := fun _ => .inl ⟨by simp [hdrain, Safety.engaged], rfl⟩
    free := fun h => absurd h (by simp [hdrain]) }

theorem testDrain_served (s : State) (c : CircuitNo) : Served w s (s.testDrain c) := by
  unfold State.testDrain
  split
  · next h => exact enterClearing_served s c ((drained_iff _).mp h).1
  · exact .refl s

theorem testStall_served (s : State) (c : CircuitNo) : Served w s (s.testStall c) := updCircuit_served_core s c _ rfl

/-! ## The Transfer Engine -/

theorem noticeFill_served (s : State) (c : CircuitNo) (endMark : Bool) : Served w s (s.noticeFill c endMark) := by
  unfold State.noticeFill
  split
  · exact (updCircuit_served_core s c _ rfl).trans (raise_served _ _)
  · exact updCircuit_served_core s c _ rfl

theorem noticeRelease_served (s : State) (c : CircuitNo) (n : Nat) : Served w s (s.noticeRelease c n) := by
  unfold State.noticeRelease
  split
  · exact raise_served _ _
  · exact .refl s

theorem writeSlot_served (s : State) (c : CircuitNo) (f : Frame) (gapped : Bool) (missing : Nat) :
    Served w s (s.writeSlot c f gapped missing) := by
  rw [writeSlot_eq]
  exact .same rfl rfl

theorem filledSpan_succ {k : Circuit} (h : k.filledSpan < 255) :
    span k.releaseCopy (k.rxFill + 1) = k.filledSpan + 1 := by
  simp only [Circuit.filledSpan, span] at h ⊢
  bv_omega

/-- A fill into a free slot stays within the receive ring (R113, R126, R141). -/
theorem advanceFill_served (s : State) (c : CircuitNo) (seq : Seq) (hroom : (s.circuit c).freeSlots ≠ 0) :
    Served w s (s.advanceFill c seq) := by
  refine .of_becomes (advanceFill_only s c seq).others rfl ?_
  rw [advanceFill_circuit]
  exact {
    fits := id
    ring := fun _ ⟨htx, hrx, hspans, hwindow⟩ => by
      have hfree : (s.circuit c).filledSpan < (s.circuit c).rxSize := by
        simp only [Circuit.freeSlots] at hroom
        omega
      have hnext := filledSpan_succ (k := s.circuit c) (by omega)
      refine ⟨htx, hrx, fun h => ⟨(hspans h).1, ?_⟩, hwindow⟩
      show span (s.circuit c).releaseCopy ((s.circuit c).rxFill + 1) ≤ (s.circuit c).rxSize
      omega
    lifetime := le_rfl
    room := fun _ _ h => h
    pair := fun _ h => .inl ⟨h, rfl, rfl⟩
    engaged := fun h => .inl ⟨h, rfl⟩
    free := .inl }

theorem markGap_served (s : State) (c : CircuitNo) : Served w s (s.markGap c) := by
  unfold State.markGap
  dsimp only
  have hcount : Served w s ((s.updCircuit c fun k => { k with gapCount := k.gapCount + 1 }).pokeRecordHalf c recGapCount
      ((s.circuit c).gapCount + 1)) := (updCircuit_served_core s c _ rfl).trans (pokeRecordHalf_served _ c _ _)
  split
  · exact hcount
  · exact (hcount.trans (updCircuit_served_core _ c _ rfl)).trans (pokeRecordHalf_served _ c _ _)

theorem takeAssuredSegment_served (s : State) (c : CircuitNo) (f : Frame) : Served w s (s.takeAssuredSegment c f) := by
  unfold State.takeAssuredSegment
  dsimp only
  split
  · exact oweAck_served s c
  · split
    · exact ((updCircuit_served_core s c _ rfl).trans (pokeRecordHalf_served _ c _ _)).trans (oweAck_served _ c)
    · next hroom =>
      exact (((writeSlot_served s c f false 0).trans (advanceFill_served _ c f.seq (by rwa [circuit_writeSlot]))).trans
        (oweAck_served _ c)).trans (noticeFill_served _ c f.endMark)

theorem takePlainSegment_served (s : State) (c : CircuitNo) (f : Frame) : Served w s (s.takePlainSegment c f) := by
  unfold State.takePlainSegment
  dsimp only
  split
  · exact (updCircuit_served_core s c _ rfl).trans (pokeRecordHalf_served _ c _ _)
  · next hroom =>
    split
    · exact ((writeSlot_served s c f false 0).trans (advanceFill_served _ c f.seq (by rwa [circuit_writeSlot]))).trans
        (noticeFill_served _ c f.endMark)
    · refine (((((writeSlot_served s c f true _).trans (markGap_served _ c)).trans (advanceFill_served _ c f.seq ?_)).trans
        (raiseWith_served _ _ _)).trans (noticeFill_served _ c f.endMark))
      rw [markGap_circuit, circuit_writeSlot]
      exact hroom

/-- With the acknowledged segments done, as many fewer are outstanding as are posted (R98, R104). -/
theorem progressed_spans {k : Circuit} {a : Seq} (h : bringsProgress k a) (hposted : k.outstanding ≤ k.postedSpan) :
    distance a k.nextSeq = k.outstanding - distance k.oldestSeq a ∧
    span (k.txDone + BitVec.ofNat 8 (distance k.oldestSeq a)) k.postedCopy = k.postedSpan - distance k.oldestSeq a := by
  obtain ⟨-, hrange⟩ := h
  simp only [Circuit.outstanding, Circuit.postedSpan, distance, span] at *
  constructor
  · bv_omega
  · have hsmall : (a - k.oldestSeq).toNat < 64 := (a - k.oldestSeq).isLt
    generalize (a - k.oldestSeq).toNat = n at *
    generalize (k.nextSeq - k.oldestSeq).toNat = m at *
    bv_omega

/-- A new DATA keeps its room where the outstanding segments and the posted slots leave it (R100, R122). -/
theorem newDataRoom_of {k l : Circuit} (hstate : l.state = k.state) (hmode : l.mode = k.mode)
    (hassured : k.mode = .assured → k.outstanding < 8 → k.outstanding < k.postedSpan →
      l.outstanding < 8 ∧ l.outstanding < l.postedSpan)
    (hplain : k.mode = .plain → 0 < k.postedSpan → 0 < l.postedSpan) (h : newDataRoom k = true) : newDataRoom l = true := by
  unfold newDataRoom at h ⊢
  rw [hstate, hmode]
  cases hst : k.state <;> cases hm : k.mode <;> simp_all

theorem progressed_becomes (s : State) (c : CircuitNo) (a credit : Seq) (hmode : (s.circuit c).mode = .assured)
    (h : bringsProgress (s.circuit c) a) : Becomes w s c (progressed (s.circuit c) a credit) where
  fits := id
  ring _ := fun ⟨htx, hrx, hspans, hwindow⟩ => by
    refine ⟨htx, hrx, fun hst => ⟨?_, (hspans hst).2⟩, fun hst _ => ?_⟩
    · obtain ⟨-, hposted⟩ := hwindow hst hmode
      have hspan := (progressed_spans h hposted).2
      have hold := (hspans hst).1
      show span ((s.circuit c).txDone + BitVec.ofNat 8 (distance (s.circuit c).oldestSeq a)) (s.circuit c).postedCopy ≤
        (s.circuit c).txSize
      omega
    · obtain ⟨height, hposted⟩ := hwindow hst hmode
      obtain ⟨hout, hspan⟩ := progressed_spans h hposted
      show distance a (s.circuit c).nextSeq ≤ 8 ∧ distance a (s.circuit c).nextSeq ≤
        span ((s.circuit c).txDone + BitVec.ofNat 8 (distance (s.circuit c).oldestSeq a)) (s.circuit c).postedCopy
      omega
  lifetime := le_rfl
  room _ _ := newDataRoom_of rfl rfl (fun _ height hposted => by
      obtain ⟨hout, hspan⟩ := progressed_spans h hposted.le
      have hless : distance (s.circuit c).oldestSeq a ≤ (s.circuit c).outstanding := h.2
      show distance a (s.circuit c).nextSeq < 8 ∧ distance a (s.circuit c).nextSeq <
        span ((s.circuit c).txDone + BitVec.ofNat 8 (distance (s.circuit c).oldestSeq a)) (s.circuit c).postedCopy
      omega) fun hplain => absurd (hmode.symm.trans hplain) (by decide)
  pair _ hlive := .inl ⟨hlive, rfl, rfl⟩
  engaged he := .inl ⟨he, rfl⟩
  free := .inl

theorem takeAck_served (s : State) (c : CircuitNo) (a credit : Seq) (hmode : (s.circuit c).mode = .assured) :
    Served w s (s.takeAck c a credit) := by
  unfold State.takeAck
  dsimp only
  split
  · next hprogress =>
    have hmoved : Served w s (s.updCircuit c fun k => k.acknowledge a credit) := by
      refine updCircuit_served s c _ ?_
      rw [acknowledge_eq_progressed]
      exact progressed_becomes s c a credit hmode ((progress_iff _ a).mp hprogress)
    exact (((hmoved.trans (pokeRecord_served _ c _ _)).trans (noticeRelease_served _ c _)).trans (testDrain_served _ c)).trans
      (testStall_served _ c)
  · split
    · exact (updCircuit_served_core s c _ rfl).trans (testStall_served _ c)
    · exact .refl s

theorem mode_segmentTaken (k : Circuit) (f : Frame) : (segmentTaken k f).mode = k.mode := by
  unfold segmentTaken
  split_ifs <;> rfl

theorem takeData_served (s : State) (c : CircuitNo) (f : Frame) : Served w s (s.takeData c f) := by
  unfold State.takeData
  split
  · next hmode =>
    refine (takeAssuredSegment_served s c f).trans (takeAck_served _ c _ _ ?_)
    rw [takeAssuredSegment_circuit, mode_segmentTaken, hmode]
  · exact takePlainSegment_served s c f

theorem takeAckFrame_served (s : State) (c : CircuitNo) (f : Frame) : Served w s (s.takeAckFrame c f) := by
  unfold State.takeAckFrame
  split
  · next hmode =>
    split
    · refine (oweAck_served s c).trans (takeAck_served _ c _ _ ?_)
      rw [State.oweAck, circuit_updCircuit_same]
      exact hmode
    · exact takeAck_served s c _ _ hmode
  · exact .refl s

theorem recordFault_served (s : State) (c : CircuitNo) (kind : FaultKind) : Served w s (s.recordFault c kind) :=
  ((updCircuit_served_core s c _ rfl).trans (pokeRecord_served _ c _ _)).trans (raise_served _ _)

/-- A post that fits moves the posted copy on, within the ring (R150). -/
theorem takePost_served (s : State) (c : CircuitNo) (v : Byte) : Served w s (s.takePost c v) := by
  unfold State.takePost
  dsimp only
  split
  · exact .refl s
  · next hstate =>
    split
    · next hfits =>
      have hspans : span (s.circuit c).txDone v ≤ (s.circuit c).txSize ∧ (s.circuit c).postedSpan ≤ span (s.circuit c).txDone v := by
        rw [Circuit.postFits, Bool.and_eq_true, decide_eq_true_iff, decide_eq_true_iff] at hfits
        exact hfits
      have hposted : Served w s (s.updCircuit c fun k => { k with postedCopy := v }) := updCircuit_served s c _ {
        fits := id
        ring := fun _ ⟨htx, hrx, hold, hwindow⟩ => ⟨htx, hrx, fun hst => ⟨hspans.1, (hold hst).2⟩, fun hst hm =>
          ⟨(hwindow hst hm).1, (hwindow hst hm).2.trans hspans.2⟩⟩
        lifetime := le_rfl
        room := fun _ _ => newDataRoom_of rfl rfl (fun _ height hless => ⟨height, hless.trans_le hspans.2⟩)
          fun _ hless => hless.trans_le hspans.2
        pair := fun _ h => .inl ⟨h, rfl, rfl⟩
        engaged := fun h => .inl ⟨h, rfl⟩
        free := .inl }
      split
      · exact hposted.trans (testStall_served _ c)
      · exact hposted
    · exact recordFault_served s c .postFault

/-- A release within the filled slots leaves fewer filled (R151). -/
theorem takeRelease_served (s : State) (c : CircuitNo) (v : Byte) : Served w s (s.takeRelease c v) := by
  unfold State.takeRelease
  dsimp only
  split
  · exact .refl s
  · split
    · next hfits =>
      have hreleased : Served w s (s.updCircuit c fun k => { k with releaseCopy := v }) := updCircuit_served s c _ {
        fits := id
        ring := fun _ ⟨htx, hrx, hold, hwindow⟩ => ⟨htx, hrx, fun hst => ⟨(hold hst).1, by
          have hle := (hold hst).2
          simp only [Circuit.filledSpan, span] at *
          bv_omega⟩, hwindow⟩
        lifetime := le_rfl
        room := fun _ _ h => h
        pair := fun _ h => .inl ⟨h, rfl, rfl⟩
        engaged := fun h => .inl ⟨h, rfl⟩
        free := .inl }
      split
      · exact hreleased.trans (oweAck_served _ c)
      · exact hreleased
    · exact recordFault_served s c .releaseFault

theorem takeGapAck_served (s : State) (c : CircuitNo) : Served w s (s.takeGapAck c) :=
  (updCircuit_served_core s c _ rfl).trans (pokeRecordHalf_served _ c _ _)

theorem dataRetryOut_served (s : State) (c : CircuitNo) : Served w s (s.dataRetryOut c) := by
  unfold State.dataRetryOut
  dsimp only
  split
  · exact (updCircuit_served_core s c _ rfl).trans (lose_served _ c _)
  · exact updCircuit_served_core s c _ rfl

theorem probeOut_served (s : State) (c : CircuitNo) : Served w s (s.probeOut c) :=
  (updCircuit_served_core s c _ rfl).trans (testStall_served _ c)

end Sys2Proof.Proofs
end

section
namespace Sys2Proof.Proofs

open Sys2Proof Sys2Proof.Machine Sys2Proof.Claims Sys2Proof.Safety Sys2Proof.Laws

section TableServed

variable {w : Terms}

/-! ## What received frames make of the circuits -/

theorem strayFrame_served (s : State) (k : Kind) (f : Frame) : Served w s (s.strayFrame k f) := by
  unfold State.strayFrame
  split
  · exact addOrphan_served s _ _ _
  · exact .refl s

theorem findCircuit_eq_some {s : State} {p : CircuitNo → Circuit → Bool} {c : CircuitNo} (h : s.findCircuit p = some c) :
    p c (s.circuit c) = true := List.find?_some (p := fun c => p c (s.circuit c)) h

theorem holdsFrame_iff (k : Circuit) (f : Frame) :
    holdsFrame k f = true ↔ k.state.live = true ∧ k.peer = f.src ∧ k.peerCircuit = some f.srcCircuit := by
  rw [← holdsPair_eq_holdsFrame]
  simp [Circuit.holdsPair, and_assoc]

/-- No circuit holds a pair after the loss of one that did (R70, R91). -/
theorem live_lostWith {k : Circuit} {cause : EndCause} (h : k.state ≠ .listening) : (lostWith k cause).state.live = false := by
  cases hst : k.state <;> simp_all [lostWith, CircuitState.live]

/-- Once the circuit that holds a pair is lost, none holds it, since no two did (R70, R94). -/
theorem lose_noneHolds {s : State} {c : CircuitNo} {f : Frame} (hpairs : PairLaw s) (hheld : holdsFrame (s.circuit c) f = true)
    (cause : EndCause) : noneHolds (s.lose c cause) f := by
  obtain ⟨hlive, hpeer, hpc⟩ := (holdsFrame_iff _ f).mp hheld
  intro d
  by_cases hd : d = c
  · rw [hd, lose_circuit]
    have hlost := live_lostWith (k := s.circuit c) (cause := cause) fun h => by simp [h, CircuitState.live] at hlive
    exact Bool.eq_false_iff.mpr fun hholds => by simp [((holdsFrame_iff _ f).mp hholds).1] at hlost
  · rw [(lose_only s c cause).others d hd]
    refine Bool.eq_false_iff.mpr fun hholds => ?_
    obtain ⟨hlive', hpeer', hpc'⟩ := (holdsFrame_iff _ f).mp hholds
    exact hd (hpairs.2 d c hlive' hlive (hpeer'.trans hpeer.symm) (hpc'.trans hpc.symm))

theorem loseStaleOther_served (s : State) (c : CircuitNo) (f : Frame) : Served w s (s.loseStaleOther c f) := by
  unfold State.loseStaleOther
  split
  · exact lose_served s _ _
  · exact .refl s

/-- The circuit that an ANSWER is for is not the one it shows to be stale (R66). -/
theorem loseStaleOther_circuit (s : State) (c : CircuitNo) (f : Frame) : (s.loseStaleOther c f).circuit c = s.circuit c := by
  unfold State.loseStaleOther
  split
  · next i h =>
    have hi := findCircuit_eq_some h
    simp only [Bool.and_eq_true, bne_iff_ne] at hi
    exact (lose_only s i _).others c fun heq => hi.1 heq.symm
  · rfl

/-- After the loss of another circuit on the pair, none but `c` holds it (R66, R94). -/
theorem loseStaleOther_noneHolds {s : State} (hpairs : PairLaw s) (c : CircuitNo) (f : Frame) {d : CircuitNo} (hd : d ≠ c) :
    holdsFrame ((s.loseStaleOther c f).circuit d) f = false := by
  unfold State.loseStaleOther
  split
  · next i h =>
    have hi := findCircuit_eq_some h
    simp only [Bool.and_eq_true, bne_iff_ne] at hi
    exact lose_noneHolds hpairs ((holdsPair_eq_holdsFrame _ f).symm.trans hi.2) .lostStale d
  · next h =>
    have hnone := findCircuit_eq_none.mp h d
    simpa [hd, holdsPair_eq_holdsFrame] using hnone

/-- The circuit after its call has been answered (R66). -/
def answered (k : Circuit) (f : Frame) : Circuit :=
  { k.withInitialLimit f.credit with
    peerCircuit := some f.srcCircuit
    retryTimer := none
    sendCount := 0
    callOwed := false
    state := .opened
    completion := (completedWith k .connected).or k.completion
    inFlight := none }

theorem acceptAnswer_circuit (s : State) (c : CircuitNo) (f : Frame) :
    (s.acceptAnswer c f).circuit c = answered (s.circuit c) f := by
  have hlimit (k : Circuit) (credit : Seq) : (k.withInitialLimit credit).inFlight = k.inFlight ∧
      (k.withInitialLimit credit).completion = k.completion := by
    unfold Circuit.withInitialLimit
    split <;> exact ⟨rfl, rfl⟩
  simp only [State.acceptAnswer, completeInto_circuit, circuit_pokeRecord, circuit_updCircuit_same, loseStaleOther_circuit, answered,
    completedWith, hlimit]

theorem acceptAnswer_others (s : State) (c : CircuitNo) (f : Frame) {d : CircuitNo} (hd : d ≠ c) :
    (s.acceptAnswer c f).circuit d = (s.loseStaleOther c f).circuit d :=
  (((updCircuit_only _ c _).trans (circuitOnly_pokeRecord c c _ _ _)).trans (completeInto_only _ c .connected .opened)).others d hd

theorem core_withInitialLimit (k : Circuit) (credit : Seq) : core (k.withInitialLimit credit) = core k := by
  unfold Circuit.withInitialLimit
  split <;> rfl

theorem acceptAnswer_served (s : State) (c : CircuitNo) (f : Frame) (hcalling : (s.circuit c).state = .calling)
    (hpeer : (s.circuit c).peer = f.src) (hpaired : w.paired → PairLaw s) : Served w s (s.acceptAnswer c f) := by
  have hflight : flight (s.acceptAnswer c f) = flight (s.loseStaleOther c f) :=
    flight_of_inFlight (by rw [State.acceptAnswer, completeInto_selector]; rfl)
  refine (loseStaleOther_served s c f).trans (.of_becomes (fun d => acceptAnswer_others s c f) hflight ?_)
  have hcore : core (answered (s.circuit c) f) =
      core { s.circuit c with state := .opened, peerCircuit := some f.srcCircuit, inFlight := none } := by
    unfold answered Circuit.withInitialLimit
    split <;> rfl
  have hk := loseStaleOther_circuit s c f
  rw [acceptAnswer_circuit]
  refine Becomes.congr ?_ hcore
  exact {
    fits := fun _ => rfl
    ring := fun _ h => by
      rw [hk] at h
      obtain ⟨htx, hrx, hspans, hwindow⟩ := h
      exact ⟨htx, hrx, fun _ => hspans (by simp [hcalling]), fun _ => hwindow (by simp [hcalling])⟩
    lifetime := by rw [hk]; exact le_rfl
    room := fun _ _ h => by simp [hk, newDataRoom, hcalling] at h
    pair := fun hp _ => .inr ⟨rfl, fun d hd hlive hpeer' hpc => by
      have hnone := loseStaleOther_noneHolds (hpaired hp) c f hd
      rw [(holdsFrame_iff _ f).mpr ⟨hlive, hpeer'.trans hpeer, hpc⟩] at hnone
      cases hnone⟩
    engaged := fun _ => .inl ⟨by rw [hk, hcalling]; rfl, by rw [hk]; rfl⟩
    free := fun h => by simp [hk, hcalling] at h }

theorem callingFrame_served (s : State) (k : Kind) (c : CircuitNo) (f : Frame) (hcalling : (s.circuit c).state = .calling)
    (hpeer : (s.circuit c).peer = f.src) (hpaired : w.paired → PairLaw s) : Served w s (s.callingFrame k c f) := by
  unfold State.callingFrame
  split
  · split
    · exact acceptAnswer_served s c f hcalling hpeer hpaired
    · exact strayFrame_served s _ f
  · split
    · exact freeWith_served s c _
    · exact .refl s
  · exact .refl s

theorem clearedByPeer_served (s : State) (c : CircuitNo) (outcome : CompletionOutcome) : Served w s (s.clearedByPeer c outcome) :=
  (oweControl_served s c .confirm).trans (freeWith_served _ c outcome)

theorem openFrame_served (s : State) (k : Kind) (c : CircuitNo) (f : Frame) (hopen : (s.circuit c).state = .opened) :
    Served w s (s.openFrame k c f) := by
  unfold State.openFrame
  split
  · exact takeData_served s c f
  · exact takeAckFrame_served s c f
  · exact enterEnded_served s c _ _ hopen
  · exact .refl s

theorem drainingFrame_served (s : State) (k : Kind) (c : CircuitNo) (f : Frame) : Served w s (s.drainingFrame k c f) := by
  unfold State.drainingFrame
  split
  · exact takeData_served s c f
  · exact takeAckFrame_served s c f
  · exact clearedByPeer_served s c _
  · exact .refl s

theorem clearingFrame_served (s : State) (k : Kind) (c : CircuitNo) : Served w s (s.clearingFrame k c) := by
  unfold State.clearingFrame
  split
  · exact clearedByPeer_served s c _
  · exact freeWith_served s c _
  · exact .refl s

theorem endedFrame_served (s : State) (k : Kind) (c : CircuitNo) (f : Frame) : Served w s (s.endedFrame k c f) := by
  unfold State.endedFrame
  split
  · split
    · exact .refl s
    · exact addOrphan_served s _ _ _
  · split
    · exact oweControl_served s c _
    · exact .refl s
  · exact .refl s

theorem takeCircuitFrame_served (s : State) (k : Kind) (f : Frame) (hpaired : w.paired → PairLaw s) :
    Served w s (s.takeCircuitFrame k f) := by
  have stray := strayFrame_served (w := w) s k f
  unfold State.takeCircuitFrame
  dsimp only
  split
  · exact stray
  · split
    · exact stray
    · exact stray
    · next hcalling =>
      split
      · next hpeer => exact callingFrame_served s k _ f hcalling hpeer hpaired
      · exact stray
    · next hopen =>
      split
      · exact openFrame_served s k _ f hopen
      · exact stray
    · split
      · exact drainingFrame_served s k _ f
      · exact stray
    · split
      · exact clearingFrame_served s k _
      · exact stray
    · split
      · exact endedFrame_served s k _ f
      · exact stray

/-- The circuit after it has taken a call (R71). -/
def callTaken (k : Circuit) (f : Frame) : Circuit :=
  { k.withInitialLimit f.credit with
    state := .opened
    peer := f.src
    peerCircuit := some f.srcCircuit
    peerTag := some f.seq
    controlOwed := some .answer
    completion := (completedWith k .connected).or k.completion
    inFlight := none }

theorem acceptCall_circuit (s : State) (c : CircuitNo) (f : Frame) : (s.acceptCall c f).circuit c = callTaken (s.circuit c) f := by
  have hlimit (k : Circuit) (credit : Seq) : (k.withInitialLimit credit).inFlight = k.inFlight ∧
      (k.withInitialLimit credit).completion = k.completion := by
    unfold Circuit.withInitialLimit
    split <;> exact ⟨rfl, rfl⟩
  simp only [State.acceptCall, completeInto_circuit, oweControl_circuit, circuit_pokeRecord, circuit_updCircuit_same, callTaken,
    completedWith, hlimit]

theorem acceptCall_served (s : State) (c : CircuitNo) (f : Frame) (hlistens : (s.circuit c).state = .listening)
    (hnone : w.paired → noneHolds s f) (hknown : w.known f.src) : Served w s (s.acceptCall c f) := by
  refine .of_becomes (acceptCall_only s c f).others
    (flight_of_inFlight (by rw [State.acceptCall, completeInto_selector]; rfl)) ?_
  have hcore : core (callTaken (s.circuit c) f) =
      core { s.circuit c with state := .opened, peer := f.src, peerCircuit := some f.srcCircuit, inFlight := none } := by
    unfold callTaken Circuit.withInitialLimit
    split <;> rfl
  rw [acceptCall_circuit]
  refine Becomes.congr ?_ hcore
  exact {
    fits := fun _ => rfl
    ring := fun _ ⟨htx, hrx, hspans, hwindow⟩ =>
      ⟨htx, hrx, fun _ => hspans (by simp [hlistens]), fun _ => hwindow (by simp [hlistens])⟩
    lifetime := le_rfl
    room := fun _ _ h => by simp [newDataRoom, hlistens] at h
    pair := fun hp _ => .inr ⟨rfl, fun d _ hlive hpeer hpc => by
      have hfalse := hnone hp d
      rw [(holdsFrame_iff _ f).mpr ⟨hlive, hpeer, hpc⟩] at hfalse
      cases hfalse⟩
    engaged := fun _ => .inr hknown
    free := fun h => by simp [hlistens] at h }

theorem listensTo_iff (k : Circuit) (f : Frame) :
    listensTo k f = true ↔ k.state = .listening ∧ k.service = f.payload.getD 0 0 ∧ (k.peer = f.src ∨ k.peer = 31) := decide_eq_true_iff

theorem matchListener_served (s : State) (f : Frame) (hnone : w.paired → noneHolds s f) (hknown : w.known f.src) :
    Served w s (s.matchListener f) := by
  unfold State.matchListener
  split
  · next c h =>
    have hlistens := findCircuit_eq_some h
    rw [Bool.and_eq_true, listensFor_eq_listensTo] at hlistens
    exact acceptCall_served s c f ((listensTo_iff _ f).mp hlistens.1).1 hnone hknown
  · exact addOrphan_served s _ _ _

theorem takeCall_served (s : State) (f : Frame) (hpaired : w.paired → PairLaw s)
    (hknown : s.station.state = .active → ¬(s.station.loop = false ∧ f.src = s.station.address) → w.known f.src) :
    Served w s (s.takeCall f) := by
  unfold State.takeCall
  split
  · exact .refl s
  · next hcase =>
    obtain ⟨hactive, howns⟩ := not_or.mp hcase
    have hsrc := hknown (not_not.mp hactive) howns
    unfold State.answerCall
    split
    · next hnone =>
      exact matchListener_served s f (fun _ d => (holdsPair_eq_holdsFrame _ f).symm.trans (findCircuit_eq_none.mp hnone d)) hsrc
    · next c hc =>
      have hheld := (holdsPair_eq_holdsFrame _ f).symm.trans (findCircuit_eq_some hc)
      split
      · split
        · exact oweControl_served s c _
        · exact .refl s
      · exact (lose_served s c _).trans (matchListener_served _ f (fun hp => lose_noneHolds (hpaired hp) hheld _) hsrc)

/-- A frame that reaches the Circuit Table keeps the circuits' laws (R65 to R77). -/
theorem tableFrame_served (s : State) (k : Kind) (f : Frame) (hpaired : w.paired → PairLaw s)
    (hknown : f.dst = s.station.address → k = .call → s.station.state = .active →
      ¬(s.station.loop = false ∧ f.src = s.station.address) → w.known f.src) : Served w s (s.tableFrame k f) := by
  unfold State.tableFrame
  split
  · exact .refl s
  · next hdst =>
    split
    · exact .refl s
    · exact takeCall_served s f hpaired (hknown (not_not.mp hdst) rfl)
    · exact takeCircuitFrame_served s _ f hpaired

/-! ## What requests make of the circuits -/

/-- The context that the taking of a request sets, with the index copies at the host's indices (R57, R60, R61, R99, R111, R149). -/
def contextTaken (k : Circuit) (kind : RequestKind) (r : RequestRecord) (tx rx : Byte) : Circuit :=
  ({ k with
    mode := r.circuitMode
    peer := r.peerAddress
    service := r.service
    rxNotice := r.rxNotice
    txNotice := r.txNotice
    peerCircuit := none
    peerTag := none
    endCause := .noCause
    initialCredit := min 32 k.rxSize
    lifetime := k.lifetime + 1
    inFlight := some (kind, r.id)
    postedCopy := tx
    txDone := tx
    releaseCopy := rx
    rxFill := rx } : Circuit).startTransfer

/-- The record bytes that the taking of a context writes. -/
theorem takeContext_sameWindow (s : State) (c : CircuitNo) (kind : RequestKind) (r : RequestRecord) :
    sameWindow s (s.takeContext c kind r) (recordBytes c [0x01, 0x02, 0x03, 0x04, 0x05, 0x07, 0x0D, 0x0E]) := by
  have hpoke (u : State) (off : Nat) (v : Byte) (hoff : off < 0x40) : sameWindow u (u.pokeRecord c off v) (recordBytes c [off]) :=
    pokeRecord_sameWindow u c hoff v
  intro a ha hout
  simp only [recordBytes, List.map_cons, List.map_nil, List.mem_cons, List.not_mem_nil, or_false, not_or] at hout
  obtain ⟨h1, h2, h3, h4, h5, h7, hD, hE⟩ := hout
  unfold State.takeContext
  dsimp only
  rw [hpoke _ recTxNotice _ (by decide) a ha (by simpa [recordBytes, recTxNotice] using hE),
    hpoke _ recRxNotice _ (by decide) a ha (by simpa [recordBytes, recRxNotice] using hD),
    hpoke _ recPeerTag _ (by decide) a ha (by simpa [recordBytes, recPeerTag] using h7),
    hpoke _ recService _ (by decide) a ha (by simpa [recordBytes, recService] using h5),
    hpoke _ recPeerCircuit _ (by decide) a ha (by simpa [recordBytes, recPeerCircuit] using h4),
    hpoke _ recPeer _ (by decide) a ha (by simpa [recordBytes, recPeer] using h3),
    hpoke _ recEndCause _ (by decide) a ha (by simpa [recordBytes, recEndCause] using h2),
    hpoke _ recMode _ (by decide) a ha (by simpa [recordBytes, recMode] using h1)]
  rfl

theorem startTransfer_circuit (s : State) (c : CircuitNo) : (s.startTransfer c).circuit c =
    ({ s.circuit c with
      postedCopy := s.peek (recordBase c + 0x30)
      txDone := s.peek (recordBase c + 0x30)
      releaseCopy := s.peek (recordBase c + 0x31)
      rxFill := s.peek (recordBase c + 0x31) } : Circuit).startTransfer := by
  simp [State.startTransfer, State.takeIndices, recTxPost, recRxRelease]

theorem takeContext_circuit (s : State) (c : CircuitNo) (kind : RequestKind) (r : RequestRecord) :
    (s.takeContext c kind r).circuit c = { s.circuit c with
      mode := r.circuitMode
      peer := r.peerAddress
      service := r.service
      rxNotice := r.rxNotice
      txNotice := r.txNotice
      peerCircuit := none
      peerTag := none
      endCause := .noCause
      initialCredit := min 32 (s.circuit c).rxSize
      lifetime := (s.circuit c).lifetime + 1
      inFlight := some (kind, r.id) } := by
  simp [State.takeContext]

/-- The host's indices stand where the taking of a context leaves them (R149). -/
theorem peek_takeContext_index (s : State) (c : CircuitNo) (kind : RequestKind) (r : RequestRecord) {off : Nat}
    (hoff : off = 0x30 ∨ off = 0x31) : (s.takeContext c kind r).peek (recordBase c + off) = s.peek (recordBase c + off) := by
  have hbase := recordBase_range c
  refine takeContext_sameWindow s c kind r _ (by omega) ?_
  rcases hoff with rfl | rfl <;> simp [recordBytes]

theorem listenTaken_circuit (s : State) (r : RequestRecord) : (s.listenTaken r).1.circuit r.circuitNo =
    { contextTaken (s.circuit r.circuitNo) .listenR r (s.peek (recordBase r.circuitNo + 0x30))
        (s.peek (recordBase r.circuitNo + 0x31)) with state := .listening } := by
  rw [State.listenTaken, setCircuitState_circuit, startTransfer_circuit, takeContext_circuit,
    peek_takeContext_index _ _ _ _ (.inl rfl), peek_takeContext_index _ _ _ _ (.inr rfl), contextTaken]

theorem startTransfer_withCall (k : Circuit) (tag : Seq) :
    ({ k with callTag := tag, sendCount := 0, retryTimer := none, callOwed := true } : Circuit).startTransfer =
      { k.startTransfer with callTag := tag, sendCount := 0, retryTimer := none, callOwed := true } := by
  cases hmode : k.mode <;> simp only [Circuit.startTransfer, hmode]

theorem placeCall_circuit (s : State) (c : CircuitNo) (r : RequestRecord) : (s.placeCall c r).circuit c =
    { contextTaken (s.circuit c) .openR r (s.peek (recordBase c + 0x30)) (s.peek (recordBase c + 0x31)) with
      state := .calling
      callTag := (s.circuit c).callTag + 1
      sendCount := 0
      retryTimer := none
      callOwed := true } := by
  have hbase := recordBase_range c
  have hindex (u : State) (v : Byte) (off : Nat) (hoff : off = 0x30 ∨ off = 0x31) :
      (u.pokeRecord c recCallTag v).peek (recordBase c + off) = u.peek (recordBase c + off) := by
    refine pokeRecord_sameWindow u c (by decide) v _ (by omega) ?_
    rcases hoff with rfl | rfl <;> simp [recordBytes, recCallTag]
  rw [State.placeCall, setCircuitState_circuit, startTransfer_circuit, hindex _ _ _ (.inl rfl), hindex _ _ _ (.inr rfl)]
  simp only [peek_updCircuit, circuit_pokeRecord, circuit_updCircuit_same, takeContext_circuit,
    peek_takeContext_index _ _ _ _ (.inl rfl), peek_takeContext_index _ _ _ _ (.inr rfl), contextTaken, Circuit.startTransfer]
  cases r.circuitMode <;> rfl

theorem core_contextTaken (k : Circuit) (kind : RequestKind) (r : RequestRecord) (tx rx : Byte) :
    (contextTaken k kind r tx rx).state = k.state ∧ (contextTaken k kind r tx rx).lifetime = k.lifetime + 1 ∧
    (contextTaken k kind r tx rx).inFlight = some (kind, r.id) ∧ (contextTaken k kind r tx rx).peer = r.peerAddress ∧
    (contextTaken k kind r tx rx).txSize = k.txSize ∧ (contextTaken k kind r tx rx).rxSize = k.rxSize ∧
    (contextTaken k kind r tx rx).postedSpan = 0 ∧ (contextTaken k kind r tx rx).filledSpan = 0 ∧
    ((contextTaken k kind r tx rx).mode = .assured → (contextTaken k kind r tx rx).outstanding = 0) := by
  unfold contextTaken Circuit.startTransfer
  dsimp only
  cases r.circuitMode <;> simp [Circuit.postedSpan, Circuit.filledSpan, Circuit.outstanding, span, distance]

/-- A taken circuit has nothing posted, filled or outstanding, and is in a lifetime of its own (R54, R57, R99, R111). -/
theorem contextTaken_becomes {s : State} {c : CircuitNo} {kind : RequestKind} {r : RequestRecord} {tx rx : Byte} {l : Circuit}
    {st : CircuitState} (hst : (kind = .openR ∧ st = .calling) ∨ (kind = .listenR ∧ st = .listening))
    (hcore : core l = core { contextTaken (s.circuit c) kind r tx rx with state := st })
    (htaking : w.taking) (hknown : st = .calling → w.known r.peerAddress) : Becomes w s c l := by
  obtain ⟨-, hlife, hflight, hpeer, htx, hrx, hposted, hfilled, hout⟩ := core_contextTaken (s.circuit c) kind r tx rx
  generalize contextTaken (s.circuit c) kind r tx rx = k at *
  have hstate : st ≠ .free := by rcases hst with ⟨-, rfl⟩ | ⟨-, rfl⟩ <;> decide
  refine Becomes.congr (k := { k with state := st }) ?_ hcore
  exact {
    fits := fun _ => by rcases hst with ⟨rfl, rfl⟩ | ⟨rfl, rfl⟩ <;> simp [requestFits, core, hflight]
    ring := fun _ ⟨htx', hrx', _, _⟩ => by
      refine ⟨htx.trans_le htx', hrx.trans_le hrx', fun _ => ⟨?_, ?_⟩, fun _ hmode => ?_⟩
      · exact (show k.postedSpan ≤ k.txSize by omega)
      · exact (show k.filledSpan ≤ k.rxSize by omega)
      · have := hout hmode
        exact (show k.outstanding ≤ 8 ∧ k.outstanding ≤ k.postedSpan by omega)
    lifetime := (show (s.circuit c).lifetime ≤ k.lifetime by omega)
    room := fun _ heq _ => absurd heq (show k.lifetime ≠ (s.circuit c).lifetime by omega)
    pair := fun _ hlive => by rcases hst with ⟨-, rfl⟩ | ⟨-, rfl⟩ <;> cases hlive
    engaged := fun hengaged => by
      rcases hst with ⟨-, rfl⟩ | ⟨-, rfl⟩
      · exact .inr (by simpa [core, hpeer] using hknown rfl)
      · cases hengaged
    free := fun _ => .inr htaking }

theorem takeContext_selector (s : State) (c : CircuitNo) (kind : RequestKind) (r : RequestRecord) :
    (s.takeContext c kind r).selector = s.selector := by
  simp [State.takeContext]

theorem startTransfer_selector (s : State) (c : CircuitNo) : (s.startTransfer c).selector = s.selector := by
  simp [State.startTransfer, State.takeIndices]

theorem placeCall_selector (s : State) (c : CircuitNo) (r : RequestRecord) : (s.placeCall c r).selector = s.selector := by
  rw [State.placeCall]
  simp [State.setCircuitState, startTransfer_selector, takeContext_selector]

theorem placeCall_served (s : State) (c : CircuitNo) (r : RequestRecord) (htaking : w.taking) (hknown : w.known r.peerAddress) :
    Served w s (s.placeCall c r) := by
  refine .of_becomes (placeCall_only s c r).others (flight_of_inFlight (by rw [placeCall_selector])) ?_
  rw [placeCall_circuit]
  exact contextTaken_becomes (.inl ⟨rfl, rfl⟩) rfl htaking fun _ => hknown

theorem listenTaken_served (s : State) (r : RequestRecord) (htaking : w.taking) : Served w s (s.listenTaken r).1 := by
  have honly : CircuitOnly r.circuitNo s (s.listenTaken r).1 :=
    ((takeContext_only s _ .listenR r).trans (startTransfer_only _ _)).trans (setCircuitState_only _ _ .listening)
  refine .of_becomes honly.others (flight_of_inFlight ?_) ?_
  · simp [State.listenTaken, State.setCircuitState, startTransfer_selector, takeContext_selector]
  · rw [listenTaken_circuit]
    exact contextTaken_becomes (.inr ⟨rfl, rfl⟩) rfl htaking fun h => by cases h

theorem drainingFrom_becomes (s : State) (c : CircuitNo) (id : Byte) (hopen : (s.circuit c).state = .opened) :
    Becomes w s c (drainingFrom (s.circuit c) id) where
  fits _ := rfl
  ring _ := fun ⟨htx, hrx, hspans, hwindow⟩ => ⟨htx, hrx, fun _ => hspans (by simp [hopen]), fun _ => hwindow (by simp [hopen])⟩
  lifetime := le_rfl
  room _ _ h := by
    rw [newDataRoom, hopen] at h
    exact h
  pair _ _ := .inl ⟨by simp [hopen, CircuitState.live], rfl, rfl⟩
  engaged _ := .inl ⟨by simp [hopen, engaged], rfl⟩
  free h := absurd h (by simp [hopen])

theorem startDrain_served (s : State) (c : CircuitNo) (id : Byte) (hopen : (s.circuit c).state = .opened) :
    Served w s (s.startDrain c id) := by
  let s1 := s.updCircuit c fun k => { k with drainTarget := k.postedCopy, inFlight := some (.closeR, id) }
  have hdraining : Served w s (s1.setCircuitState c .draining) := by
    refine .of_becomes ((updCircuit_only s c _).trans (setCircuitState_only _ c .draining)).others rfl ?_
    rw [setCircuitState_circuit, circuit_updCircuit_same]
    exact drainingFrom_becomes s c id hopen
  exact (hdraining.trans (testDrain_served _ c)).trans (testStall_served _ c)

theorem closeTaken_served (s : State) (r : RequestRecord) (hvalid : stateRefusal .closeR (s.circuit r.circuitNo).state = none) :
    Served w s (s.closeTaken r).1 := by
  unfold State.closeTaken
  dsimp only
  split
  · exact goFree_served s _ _
  · next hended =>
    refine startDrain_served s _ _ ?_
    cases hst : (s.circuit r.circuitNo).state <;> simp_all [stateRefusal]

theorem abortReply_served (s : State) (c : CircuitNo) (k : Circuit) : Served w s (s.abortReply c k) := by
  unfold State.abortReply
  split
  · exact addOrphan_served s _ _ _
  · exact .refl s

theorem abortTaken_served (s : State) (r : RequestRecord) : Served w s (s.abortTaken r).1 := by
  unfold State.abortTaken
  dsimp only
  split
  · next hfree => exact writeCompletion_served s _ _ hfree
  · exact (goFree_served s _ _).trans (abortReply_served _ _ _)

/-- What the checks of R155 say of the circuit's state (R59). -/
theorem stateRefusal_of_validate {s : State} {r : RequestRecord} {kind : RequestKind} (hkind : requestKindOf r.kind = some kind)
    (h : s.validate r = none) : stateRefusal kind (s.circuit r.circuitNo).state = none := by
  unfold State.validate at h
  rw [hkind] at h
  dsimp only at h
  split_ifs at h
  all_goals
    cases hrefusal : stateRefusal kind (s.circuit r.circuitNo).state with
    | none => rfl
    | some outcome =>
      rw [hrefusal] at h
      cases h

theorem actOn_served (s : State) (r : RequestRecord) (hvalid : s.validate r = none) (htaking : w.taking)
    (hknown : s.roster.isPresent r.peerAddress = true → w.known r.peerAddress) : Served w s (s.actOn r).1 := by
  unfold State.actOn
  split
  · next hkind =>
    have hfree := stateRefusal_of_validate hkind hvalid
    unfold State.openTaken
    dsimp only
    split
    · next hpresent => exact placeCall_served s _ r htaking (hknown hpresent)
    · refine writeCompletion_served s _ _ ?_
      cases hst : (s.circuit r.circuitNo).state <;> simp_all [stateRefusal]
  · exact listenTaken_served s r htaking
  · next hkind => exact closeTaken_served s r (stateRefusal_of_validate hkind hvalid)
  · exact abortTaken_served s r
  · exact .refl s

theorem writeRefusal_served (s : State) (id circuit kind : Byte) (outcome : RefusalOutcome) :
    Served w s (s.writeRefusal id circuit kind outcome) := by
  rw [writeRefusal_eq]
  exact .same rfl rfl

theorem advanceTake_served (s : State) : Served w s s.advanceTake := by
  unfold State.advanceTake
  exact (Served.same rfl rfl : Served w s { s with requests := { s.requests with take := s.requests.take + 1 } }).trans
    (.same rfl rfl)

theorem takeRequest_served (s : State) (htaking : w.taking)
    (hknown : ∀ a, s.roster.isPresent a = true → w.known a) : Served w s s.takeRequest := by
  unfold State.takeRequest
  dsimp only
  split
  · exact ((writeRefusal_served s _ _ _ _).trans (advanceTake_served _)).trans (raise_served _ _)
  · next hvalid =>
    exact ((actOn_served s _ hvalid htaking (hknown _)).trans (advanceTake_served _)).trans (raiseOption_served _ _)

/-! ## What turns, reports and losses make of the circuits -/

theorem slotFault_served (s : State) (c : CircuitNo) : Served w s (s.slotFault c) :=
  ((recordFault_served s c .slotFault).trans (lose_served _ c .slotFault)).trans (addOrphan_served _ _ _ _)

theorem scanData_served (wants : Circuit → Option Seq) (use : Seq → FrameUse) (l : List CircuitNo) (s : State) :
    Served w s (s.scanData wants use l).1 := by
  induction l generalizing s with
  | nil => exact .refl s
  | cons c rest ih =>
    obtain ⟨-, h⟩ | ⟨seq, -, -, h⟩ | ⟨seq, -, -, h⟩ := scanData_cons s wants use c rest <;> rw [h]
    · exact ih s
    · exact (slotFault_served s c).trans (ih _)
    · exact .refl s

theorem discharge_served (s : State) (f : FlightFrame) : Served w s (s.discharge f) := by
  unfold State.discharge
  split
  · exact .refl s
  · exact .same rfl rfl
  · exact updCircuit_served_core s _ _ (by split <;> rfl)

theorem plainDataSent_served (s : State) (c : CircuitNo) (hidle : ¬w.busy) (hplain : (s.circuit c).mode = .plain)
    (hroom : w.room → 0 < (s.circuit c).postedSpan) : Served w s (s.plainDataSent c) := by
  have hsent : Served w s (s.updCircuit c fun k => { k with nextSeq := k.nextSeq + 1, txDone := k.txDone + 1 }) :=
    updCircuit_served s c _ {
      fits := id
      ring := fun hr ⟨htx, hrx, hspans, _⟩ => ⟨htx, hrx, fun hst => ⟨by
        have hposted := hroom hr
        have hold := (hspans hst).1
        simp only [Circuit.postedSpan, span] at *
        bv_omega, (hspans hst).2⟩, fun _ hm => absurd (hplain.symm.trans hm) (by decide)⟩
      lifetime := le_rfl
      room := fun hbusy => absurd hbusy hidle
      pair := fun _ h => .inl ⟨h, rfl, rfl⟩
      engaged := fun h => .inl ⟨h, rfl⟩
      free := .inl }
  exact ((hsent.trans (pokeRecord_served _ c _ _)).trans (noticeRelease_served _ c _)).trans (testDrain_served _ c)

theorem newDataSent_becomes (s : State) (c : CircuitNo) (f : FlightFrame) (hidle : ¬w.busy)
    (hroom : w.room → (s.circuit c).outstanding < 8 ∧ (s.circuit c).outstanding < (s.circuit c).postedSpan) :
    Becomes w s c ((s.circuit c).newDataSent f) where
  fits := id
  ring hr := fun ⟨htx, hrx, hspans, _⟩ => ⟨htx, hrx, hspans, fun _ _ => by
    obtain ⟨height, hposted⟩ := hroom hr
    have hnext : distance (s.circuit c).oldestSeq ((s.circuit c).nextSeq + 1) = (s.circuit c).outstanding + 1 := by
      simp only [Circuit.outstanding, distance] at *
      bv_omega
    show distance (s.circuit c).oldestSeq ((s.circuit c).nextSeq + 1) ≤ 8 ∧
      distance (s.circuit c).oldestSeq ((s.circuit c).nextSeq + 1) ≤ (s.circuit c).postedSpan
    omega⟩
  lifetime := le_rfl
  room hbusy := absurd hbusy hidle
  pair _ h := .inl ⟨h, rfl, rfl⟩
  engaged h := .inl ⟨h, rfl⟩
  free := .inl

theorem circuitSent_served (s : State) (c : CircuitNo) (f : FlightFrame) (hidle : ¬w.busy)
    (hroom : w.room → f.use = .newData → newDataRoom (s.circuit c) = true) : Served w s (s.circuitSent c f) := by
  unfold State.circuitSent
  dsimp only
  split
  · split
    · exact updCircuit_served_core s c _ rfl
    · exact .refl s
  · exact .refl s
  · exact .refl s
  · split
    · exact updCircuit_served_core s c _ rfl
    · exact .refl s
  · next huse =>
    split
    · next htransfers =>
      have hdata (hr : w.room) := hroom hr huse
      split
      · next hmode =>
        refine (updCircuit_served s c _ (newDataSent_becomes s c f hidle fun hr => ?_)).trans (testStall_served _ c)
        have := hdata hr
        cases hst : (s.circuit c).state <;> simp_all [newDataRoom, CircuitState.transfers]
      · next hmode =>
        refine plainDataSent_served s c hidle hmode fun hr => ?_
        have := hdata hr
        cases hst : (s.circuit c).state <;> simp_all [newDataRoom, CircuitState.transfers]
    · exact .refl s
  · split
    · exact updCircuit_served_core s c _ rfl
    · exact .refl s
  · split
    · exact updCircuit_served_core s c _ rfl
    · exact .refl s
  · exact .refl s
  · exact .refl s

theorem ownerSent_served (s : State) (f : FlightFrame) (hidle : ¬w.busy)
    (hroom : w.room → f.use = .newData → ∀ c life, f.owner = .circuit c life → s.pastLifetime c life = false →
      newDataRoom (s.circuit c) = true) : Served w s (s.ownerSent f) := by
  cases h : f.owner with
  | roster => rw [State.ownerSent, h]; exact .refl s
  | orphanList => rw [State.ownerSent, h]; exact .same rfl rfl
  | circuit c life =>
    have hpointer : Served w s (pointerMoved s c f) := by
      rw [pointerMoved_eq]
      exact .same rfl rfl
    have hcircuit : (pointerMoved s c f).circuit c = s.circuit c := by rw [pointerMoved_eq]; rfl
    rw [ownerSent_circuit s h]
    split
    · exact hpointer
    · next hpast =>
      refine hpointer.trans (circuitSent_served _ c f hidle fun hr huse => ?_)
      rw [hcircuit]
      exact hroom hr huse c life h (Bool.eq_false_iff.mpr hpast)

theorem ownerCollided_served (s : State) (f : FlightFrame) : Served w s (s.ownerCollided f) := by
  unfold State.ownerCollided
  split
  · exact .refl s
  · exact .same rfl rfl
  · split
    · exact .refl s
    · exact updCircuit_served_core s _ _ rfl

theorem eachCircuit_served (f : CircuitNo → State → State) (hf : ∀ c s, Served w s (f c s)) (s : State) :
    Served w s (s.eachCircuit f) := by
  unfold State.eachCircuit
  induction allCircuits generalizing s with
  | nil => exact .refl s
  | cons c rest ih => exact (hf c s).trans (ih (f c s))

theorem clearAllOwed_served (s : State) : Served w s s.clearAllOwed :=
  (eachCircuit_served _ (fun c s => (clearAckPoll_served s c).trans (clearControl_served _ c)) s).trans (.same rfl rfl)

theorem loseAll_served (s : State) (cause : EndCause) : Served w s (s.loseAll cause) :=
  eachCircuit_served _ (fun c s => lose_served s c cause) s

theorem loseAbsent_served (s : State) (a : Address) : Served w s (s.loseAbsent a) := by
  refine eachCircuit_served _ (fun c s => ?_) s
  split
  · exact lose_served s c .lostAbsent
  · exact .refl s

theorem disowned_served (s : State) : Served w s (disowned s) := (clearAllOwed_served s).trans (.same rfl rfl)

/-- Rings of at most 32 slots each, on a FREE circuit (R176). -/
theorem layRings_served (s : State) (c : CircuitNo) (base : Half) {tx rx : Nat} (htx : tx ≤ 32) (hrx : rx ≤ 32)
    (hfree : w.room → (s.circuit c).state = .free) : Served w s (s.layRings c base tx rx) := by
  refine .of_becomes (layRings_only s c base tx rx).others
    (flight_of_inFlight (by simp [State.layRings])) ?_
  rw [layRings_circuit]
  refine Becomes.congr (k := { s.circuit c with txSize := tx, rxSize := rx }) ?_ rfl
  exact {
    fits := id
    ring := fun hr _ => ⟨htx, hrx, fun h => absurd (hfree hr) h, fun h => absurd (hfree hr) h⟩
    lifetime := le_rfl
    room := fun _ _ => id
    pair := fun _ h => .inl ⟨h, rfl, rfl⟩
    engaged := fun h => .inl ⟨h, rfl⟩
    free := .inl }

end TableServed

end Sys2Proof.Proofs
end

section
namespace Sys2Proof.Proofs

open Sys2Proof Sys2Proof.Machine Sys2Proof.Claims Sys2Proof.Safety Sys2Proof.Laws

/-! ## Work that keeps the laws of the circuits, the frame in flight and the roster -/

/-- What a piece of work keeps: the requests in flight, the pairs and the ages, on `p` the presence of those who are engaged, and on
`q` the rings and windows. -/
structure LawfulIf (p q : Prop) (s t : State) : Prop where
  requests : InFlightLaw s → InFlightLaw t
  pairs : PairLaw s → PairLaw t
  peers : p → PresenceLaw s ∧ OwnFrameLaw s → PresenceLaw t ∧ OwnFrameLaw t
  ages : AgeLaw s → AgeLaw t
  transfer : q → TransferLaw s → TransferLaw t

/-- What a piece of work keeps without more being known. -/
structure Lawful (s t : State) : Prop where
  requests : InFlightLaw s → InFlightLaw t
  pairs : PairLaw s → PairLaw t
  peers : PresenceLaw s ∧ OwnFrameLaw s → PresenceLaw t ∧ OwnFrameLaw t
  ages : AgeLaw s → AgeLaw t
  transfer : TransferLaw s → TransferLaw t

theorem Lawful.refl (s : State) : Lawful s s := ⟨id, id, id, id, id⟩

theorem Lawful.trans {s t u : State} (h : Lawful s t) (g : Lawful t u) : Lawful s u :=
  ⟨g.requests ∘ h.requests, g.pairs ∘ h.pairs, g.peers ∘ h.peers, g.ages ∘ h.ages, g.transfer ∘ h.transfer⟩

theorem Lawful.when {p q : Prop} {s t : State} (h : Lawful s t) : LawfulIf p q s t :=
  ⟨h.requests, h.pairs, fun _ => h.peers, h.ages, fun _ => h.transfer⟩

theorem LawfulIf.trans {p q : Prop} {s t u : State} (h : LawfulIf p q s t) (g : LawfulIf p q t u) : LawfulIf p q s u :=
  ⟨g.requests ∘ h.requests, g.pairs ∘ h.pairs, fun hp => g.peers hp ∘ h.peers hp, g.ages ∘ h.ages,
    fun hq => g.transfer hq ∘ h.transfer hq⟩

/-- What the laws of the state say may be used for work on it. -/
theorem lawful_of_laws {s t : State} (h : LawfulIf (PresenceLaw s ∧ OwnFrameLaw s) (TransferLaw s) s t) : Lawful s t :=
  ⟨h.requests, h.pairs, fun hp => h.peers hp hp, h.ages, fun hq => h.transfer hq hq⟩

/-- The terms under which work on the circuits of `s` may be done. -/
structure Fits (w : Terms) (s : State) : Prop where
  paired : w.paired → PairLaw s
  room : w.room → TransferLaw s
  busy : w.busy → s.selector.inFlight ≠ none
  taking : s.station.state.serves = true → w.taking
  known : (∀ a, w.known a) ∨ (PresenceLaw s ∧ OwnFrameLaw s ∧ ∀ a, s.roster.isPresent a = true → w.known a)

theorem Fits.known_of_present {w : Terms} {s : State} (h : Fits w s) {a : Address}
    (hpresent : PresenceLaw s → OwnFrameLaw s → s.roster.isPresent a = true) : w.known a :=
  h.known.elim (· a) fun ⟨hpeers, hframe, hknown⟩ => hknown a (hpresent hpeers hframe)

/-- What fits a frame in flight does not hang on more of the circuits than their lifetimes and the room for a new DATA. -/
theorem flightFits_mono {w : Terms} {s t : State} (h : Served w s t) (hbusy : w.busy) {f : FlightFrame}
    (hfits : flightFits s f = true) : flightFits t f = true := by
  unfold flightFits at hfits ⊢
  cases hown : f.owner with
  | orphanList => simpa only [hown] using hfits
  | roster => simpa only [hown] using hfits
  | circuit c life =>
    have hlife := h.lifetime c
    have hroom := h.room hbusy c
    cases hu : f.use with
    | newData =>
      simp only [hown, hu, Bool.or_eq_true, Bool.and_eq_true, decide_eq_true_eq] at hfits ⊢
      obtain hless | ⟨heq, hnew⟩ := hfits
      · exact .inl (hless.trans_le hlife)
      · by_cases hsame : (t.circuit c).lifetime = (s.circuit c).lifetime
        · exact .inr ⟨heq.trans hsame.symm, hroom hsame hnew⟩
        · exact .inl (by omega)
    | control | call | resend | ack | orphan | roll =>
      simp only [hown, hu, decide_eq_true_eq] at hfits ⊢
      exact hfits.trans hlife

theorem flightFits_of_served {w : Terms} {s t : State} (h : Served w s t) (hbusy : w.busy)
    (hs : ∀ f ∈ s.selector.inFlight, flightFits s f = true) : ∀ f ∈ t.selector.inFlight, flightFits t f = true := by
  intro g hg
  have hflight := h.flight
  rw [flight, flight, Option.mem_def.mp hg, Option.map_some] at hflight
  obtain ⟨f, hf, hfg⟩ := Option.map_eq_some_iff.mp hflight.symm
  have howner : g.owner = f.owner := (congrArg FlightFrame.owner hfg).symm
  have huse : g.use = f.use := (congrArg FlightFrame.use hfg).symm
  have hfits := flightFits_mono h hbusy (hs f hf)
  unfold flightFits at hfits ⊢
  rwa [howner, huse]

/-- The own frame in flight is of the own address as before, whose header the bytes driven begin with. -/
theorem ownFrameLaw_of_flight {s t : State} (hflight : flight t = flight s) (hdriven : t.line.driven = s.line.driven)
    (haddress : t.station.state.receives = true → t.station.address = s.station.address)
    (hreceives : t.station.state.receives = true → s.station.state.receives = true) (hs : OwnFrameLaw s) : OwnFrameLaw t := by
  intro hr g hg
  rw [flight, flight, Option.mem_def.mp hg, Option.map_some] at hflight
  obtain ⟨f, hf, hfg⟩ := Option.map_eq_some_iff.mp hflight.symm
  have hkind : g.kind = f.kind := (congrArg FlightFrame.kind hfg).symm
  have hheader : g.header = f.header := (congrArg FlightFrame.header hfg).symm
  have hlength : g.payloadLength = f.payloadLength := (congrArg FlightFrame.payloadLength hfg).symm
  obtain ⟨hsrc, hprefix⟩ := hs (hreceives hr) f hf
  rw [hkind, hheader, hlength, hdriven, haddress hr]
  exact ⟨hsrc, hprefix⟩

/-- Work on the circuits keeps the laws. -/
theorem lawfulIf_of_served {p q : Prop} {s t : State} (honly : CircuitsOnly s t)
    (h : ∀ w, Fits w s → (w.room → q) → ((∀ a, w.known a) ∨ p) → Served w s t) : LawfulIf p q s t where
  requests := (h ⟨fun _ => True, False, False, False, True⟩
    ⟨nofun, nofun, nofun, fun _ => trivial, .inl fun _ => trivial⟩ nofun (.inl fun _ => trivial)).requests
  pairs hpairs := (h ⟨fun _ => True, True, False, False, True⟩
    ⟨fun _ => hpairs, nofun, nofun, fun _ => trivial, .inl fun _ => trivial⟩ nofun (.inl fun _ => trivial)).pairs trivial hpairs
  peers hp := fun ⟨hpresence, hframe⟩ => by
    have hserved := h ⟨fun a => s.roster.isPresent a = true, False, False, False, s.station.state.serves = true⟩
      ⟨nofun, nofun, nofun, id, .inr ⟨hpresence, hframe, fun _ => id⟩⟩ nofun (.inr hp)
    obtain ⟨hquiet, ⟨haddress, hbase⟩, hown, hengaged⟩ := hpresence
    refine ⟨⟨fun hserves c => ?_, ⟨?_, ?_⟩, ?_, fun c hc => ?_⟩, ?_⟩
    · rw [honly.station] at hserves
      refine (hserved.free c (hquiet hserves c)).resolve_right fun htaking => ?_
      rw [hserves] at htaking
      cases htaking
    · rwa [honly.station]
    · rwa [honly.arbiter]
    · rwa [honly.station, honly.roster]
    · rw [honly.roster]
      obtain ⟨hs, hpeer⟩ | hknown := hserved.engaged c hc
      · rw [hpeer]
        exact hengaged c hs
      · exact hknown
    · exact ownFrameLaw_of_flight hserved.flight (by rw [honly.line]) (fun _ => by rw [honly.station])
        (by rw [honly.station]; exact id) hframe
  ages hages := by rwa [AgeLaw, honly.roster]
  transfer hq htransfer := by
    have hserved := h ⟨fun _ => True, False, True, s.selector.inFlight ≠ none, s.station.state.serves = true⟩
      ⟨nofun, fun _ => htransfer, id, id, .inl fun _ => trivial⟩ (fun _ => hq) (.inl fun _ => trivial)
    obtain ⟨hquiet, hrings, hflight⟩ := htransfer
    refine ⟨fun hserves c => ?_, hserved.rings trivial hrings, fun f hf => ?_⟩
    · rw [honly.station] at hserves
      refine (hserved.free c (hquiet hserves c)).resolve_right fun htaking => ?_
      rw [hserves] at htaking
      cases htaking
    · refine flightFits_of_served hserved (fun hnone => ?_) hflight f hf
      have := hserved.flight
      rw [flight, flight, hnone, Option.mem_def.mp hf] at this
      cases this

theorem lawful_of_served {s t : State} (honly : CircuitsOnly s t) (h : ∀ w, Fits w s → Served w s t) : Lawful s t :=
  lawful_of_laws (lawfulIf_of_served honly fun w hw _ _ => h w hw)

/-- Work that leaves the circuits, the frame in flight and the own address alone, and removes no station from the roster. -/
structure Steady (s t : State) : Prop where
  circuits : t.circuits = s.circuits
  inFlight : t.selector.inFlight = s.selector.inFlight
  driven : t.line.driven = s.line.driven
  address : t.station.state.receives = true → t.station.address = s.station.address
  base : s.arbiter.base ≠ 31 → t.arbiter.base ≠ 31
  present : ∀ a, s.roster.isPresent a = true → t.roster.isPresent a = true
  ages : AgeLaw s → AgeLaw t
  serves : t.station.state.serves = false → s.station.state.serves = false
  receives : t.station.state.receives = true → s.station.state.receives = true
  joins : (s.station.state = .config ∨ s.station.state.receives = true → s.station.address ≠ 31) →
    t.station.state = .config ∨ t.station.state.receives = true → t.station.address ≠ 31

theorem Steady.refl (s : State) : Steady s s := ⟨rfl, rfl, rfl, fun _ => rfl, id, fun _ => id, id, id, id, id⟩

theorem Steady.trans {s t u : State} (h : Steady s t) (g : Steady t u) : Steady s u :=
  ⟨g.circuits.trans h.circuits, g.inFlight.trans h.inFlight, g.driven.trans h.driven,
    fun hr => (g.address hr).trans (h.address (g.receives hr)), g.base ∘ h.base,
    fun a => g.present a ∘ h.present a, g.ages ∘ h.ages, h.serves ∘ g.serves, h.receives ∘ g.receives, g.joins ∘ h.joins⟩

/-- Work of which the laws see nothing. -/
theorem Steady.same {s t : State} (hcircuits : t.circuits = s.circuits) (hflight : t.selector.inFlight = s.selector.inFlight)
    (hdriven : t.line.driven = s.line.driven) (haddress : t.station.address = s.station.address)
    (hbase : s.arbiter.base ≠ 31 → t.arbiter.base ≠ 31) (hentries : t.roster.entries = s.roster.entries)
    (hstate : t.station.state = s.station.state) : Steady s t where
  circuits := hcircuits
  inFlight := hflight
  driven := hdriven
  address _ := haddress
  base := hbase
  present a ha := by
    rw [Roster.isPresent, Roster.entry] at ha ⊢
    rwa [hentries]
  ages h a := by
    rw [hentries]
    exact h a
  serves := by rw [hstate]; exact id
  receives := by rw [hstate]; exact id
  joins := by rw [hstate, haddress]; exact id

theorem Steady.served {w : Terms} {s t : State} (h : Steady s t) : Served w s t := .same h.circuits (flight_of_inFlight h.inFlight)

theorem Steady.circuit {s t : State} (h : Steady s t) (c : CircuitNo) : t.circuit c = s.circuit c :=
  congrArg (Vector.get · c) h.circuits

theorem Steady.lawful {s t : State} (h : Steady s t) : Lawful s t where
  requests := (h.served (w := ⟨fun _ => True, True, True, True, True⟩)).requests
  pairs := (h.served (w := ⟨fun _ => True, True, True, True, True⟩)).pairs trivial
  transfer := fun ⟨hquiet, hrings, hflight⟩ =>
    ⟨fun hserves c => by rw [h.circuit]; exact hquiet (h.serves hserves) c, fun c => by rw [h.circuit]; exact hrings c,
      flightFits_of_served (h.served (w := ⟨fun _ => True, True, True, True, True⟩)) trivial hflight⟩
  peers := fun ⟨⟨hquiet, ⟨haddress, hbase⟩, hown, hengaged⟩, hframe⟩ => by
    refine ⟨⟨fun hserves c => by rw [h.circuit]; exact hquiet (h.serves hserves) c, ⟨h.joins haddress, h.base hbase⟩, fun hr => ?_,
      fun c hc => ?_⟩, ownFrameLaw_of_flight (flight_of_inFlight h.inFlight) h.driven h.address h.receives hframe⟩
    · rw [h.address hr]
      exact h.present _ (hown (h.receives hr))
    · rw [h.circuit] at hc ⊢
      exact h.present _ (hengaged c hc)
  ages := h.ages

theorem steady_of_noticeOnly {s t : State} (h : NoticeOnly s t) : Steady s t :=
  .same h.circuits (by rw [h.selector]) (by rw [h.line]) (by rw [h.station]) (by rw [h.arbiter]; exact id) (by rw [h.roster])
    (by rw [h.station])

theorem raise_steady (s : State) (p : NoticePair) : Steady s (s.raise p) := steady_of_noticeOnly (raise_only s p)

theorem poke_steady (s : State) (a : Nat) (v : Byte) : Steady s (s.poke a v) := .same rfl rfl rfl rfl id rfl rfl

theorem pokeHalf_steady (s : State) (a : Nat) (v : Half) : Steady s (s.pokeHalf a v) := (poke_steady _ _ _).trans (poke_steady _ _ _)

theorem raiseOption_steady (s : State) (p : Option NoticePair) : Steady s (s.raiseOption p) :=
  steady_of_noticeOnly (raiseOption_only s p)

end Sys2Proof.Proofs
end

section
namespace Sys2Proof.Proofs

open Sys2Proof Sys2Proof.Machine Sys2Proof.Claims Sys2Proof.Safety Sys2Proof.Laws

/-! ## Steady work -/

theorem quality_steady (s : State) (q : Quality) : Steady s { s with quality := q } := .same rfl rfl rfl rfl id rfl rfl

theorem countGood_steady (s : State) : Steady s s.countGood := (quality_steady s _).trans (pokeHalf_steady _ _ _)

theorem countMalformed_steady (s : State) : Steady s s.countMalformed :=
  (quality_steady s _).trans (pokeHalf_steady _ _ _)

theorem countDamaged_steady (s : State) : Steady s s.countDamaged :=
  ((quality_steady s _).trans (pokeHalf_steady _ _ _)).trans (pokeHalf_steady _ _ _)

theorem countSent_steady (s : State) : Steady s s.countSent := (quality_steady s _).trans (pokeHalf_steady _ _ _)

theorem countCollision_steady (s : State) : Steady s s.countCollision :=
  ((quality_steady s _).trans (pokeHalf_steady _ _ _)).trans (pokeHalf_steady _ _ _)

theorem clearWindowCounts_steady (s : State) : Steady s s.clearWindowCounts :=
  ((quality_steady s _).trans (pokeHalf_steady _ _ _)).trans (pokeHalf_steady _ _ _)

theorem showSticky_steady (s : State) : Steady s s.showSticky := pokeHalf_steady _ _ _

theorem setMutedSeen_steady (s : State) : Steady s s.setMutedSeen := (quality_steady s _).trans (showSticky_steady _)

theorem clearSticky_steady (s : State) : Steady s s.clearSticky := (quality_steady s _).trans (showSticky_steady _)

theorem stickyRead_steady (s : State) (be1 be0 : Bool) : Steady s (s.stickyRead be1 be0) := by
  have hbus (b : HostBus) : Steady s { s with bus := b } := .same rfl rfl rfl rfl id rfl rfl
  unfold State.stickyRead
  split
  · exact hbus _
  · dsimp only
    split
    · exact (hbus _).trans (clearSticky_steady _)
    · exact hbus _

theorem changeLevel_steady (s : State) (level : Level) : Steady s (s.changeLevel level) := by
  have hlevel : Steady s (({ s with quality.level := level } : State).poke offLevel level.code) :=
    (quality_steady s _).trans (poke_steady _ _ _)
  have hflag (t : State) (q : Quality) : Steady t (({ t with quality := q } : State).showSticky.raise (.station .quality)) :=
    ((quality_steady t q).trans (showSticky_steady _)).trans (raise_steady _ _)
  unfold State.changeLevel
  cases level with
  | good => exact hlevel.trans (hflag _ _)
  | poor => exact hlevel.trans (hflag _ _)

theorem endWindow_steady (s : State) (p : QualityParams) : Steady s (s.endWindow p) := by
  have hrest (t : State) : Steady t ({ t with quality.windowTimer := some 0 } : State).clearWindowCounts :=
    (quality_steady t _).trans (clearWindowCounts_steady _)
  unfold State.endWindow
  dsimp only
  split
  · exact hrest s
  · exact (changeLevel_steady s _).trans (hrest _)

theorem beginRound_steady (s : State) : Steady s s.beginRound := .same rfl rfl rfl rfl id rfl rfl

/-- B stays an address 0 to 30 (R40). -/
theorem nextBase_ne_31 {base : Address} (h : base ≠ 31) (source : Option Address) : nextBase base source ≠ 31 := by
  unfold nextBase
  split
  · exact h
  · split
    · exact h
    · assumption

theorem frameEnd_steady (s : State) (source : Option Address) : Steady s (s.frameEnd source) := by
  unfold State.frameEnd
  split
  · have hbase : Steady s { s with arbiter.base := nextBase s.arbiter.base source } :=
      .same rfl rfl rfl rfl (fun h => nextBase_ne_31 h source) rfl rfl
    exact hbase.trans (beginRound_steady _)
  · exact .refl s

theorem lineBusyToArbiter_steady (s : State) : Steady s s.lineBusyToArbiter := by
  unfold State.lineBusyToArbiter
  split
  · exact .same rfl rfl rfl rfl id rfl rfl
  · exact .refl s

theorem setFullNext_steady (s : State) : Steady s s.setFullNext := .same rfl rfl rfl rfl id rfl rfl

theorem oweRoll_steady (s : State) : Steady s s.oweRoll := .same rfl rfl rfl rfl id rfl rfl

theorem examineRoll_steady (s : State) (f : Frame) : Steady s (s.examineRoll f) := by
  unfold State.examineRoll
  split
  · exact oweRoll_steady s
  · exact .refl s

theorem ownFrameSent_steady (s : State) : Steady s s.ownFrameSent := .same rfl rfl rfl rfl id rfl rfl

/-- The entry of a present station of age 0 keeps the others, and no age passes T_absent (R22, R23). -/
theorem setEntry_present (r : Roster) (a : Address) (b : Address) (h : r.isPresent b = true) :
    (r.setEntry a ⟨true, 0⟩).isPresent b = true := by
  by_cases ha : a = 31
  · rwa [Roster.setEntry, dif_neg (by rw [ha]; decide)]
  · unfold Roster.isPresent at h ⊢
    by_cases hb : b.toNat < 31
    · rw [entry_setEntry ha _ hb]
      split
      · rfl
      · exact h
    · rw [Roster.entry, dif_neg hb] at h
      cases h

theorem entries_setEntry {r : Roster} {a : Address} (ha : a ≠ 31) (e : RosterEntry) (b : Fin 31) :
    (r.setEntry a e).entries.get b = if b.val = a.toNat then e else r.entries.get b := by
  have h := entry_setEntry (r := r) ha e b.isLt
  simpa [Roster.entry] using h

/-- An entry of age 0 keeps the law of the ages (R21, R24). -/
theorem ageLaw_setEntry {s t : State} {a : Address} {e : RosterEntry} (he : e.age = 0)
    (ht : t.roster.entries = (s.roster.setEntry a e).entries) (h : AgeLaw s) : AgeLaw t := by
  intro b
  rw [ht]
  by_cases ha : a = 31
  · rw [Roster.setEntry, dif_neg (by rw [ha]; decide)]
    exact h b
  · rw [entries_setEntry ha]
    split
    · exact ⟨fun _ => he, by omega⟩
    · exact h b

theorem refreshPeer_steady (s : State) (a : Address) : Steady s (s.refreshPeer a) where
  circuits := rfl
  inFlight := rfl
  driven := rfl
  address _ := rfl
  base := id
  present b := setEntry_present s.roster a b
  ages := ageLaw_setEntry rfl rfl
  serves := id
  receives := id
  joins := id

theorem writeMirror_steady (s : State) (a : Address) : Steady s (s.writeMirror a) := by
  have hhalf : Steady s (if a.toNat < 16 then s.pokeHalf offPresentLow (s.roster.presentSet.extractLsb' 0 16)
      else s.pokeHalf offPresentHigh (s.roster.presentSet.extractLsb' 16 16)) := by
    split
    · exact pokeHalf_steady _ _ _
    · exact pokeHalf_steady _ _ _
  have hcounter (t : State) : Steady t { t with roster.changeCounter := s.roster.changeCounter + 1 } :=
    .same rfl rfl rfl rfl id rfl rfl
  exact (hhalf.trans (hcounter _)).trans (pokeHalf_steady _ _ _)

theorem markPresent_steady (s : State) (a : Address) : Steady s (s.markPresent a) :=
  ((refreshPeer_steady s a).trans (writeMirror_steady _ a)).trans (raise_steady _ _)

theorem addPeer_steady (s : State) (a : Address) : Steady s (s.addPeer a) := (setFullNext_steady s).trans (markPresent_steady _ a)

theorem rosterSource_steady (s : State) (a : Address) : Steady s (s.rosterSource a) := by
  unfold State.rosterSource
  split
  · exact .refl s
  · split
    · exact refreshPeer_steady s a
    · exact addPeer_steady s a

/-- Nothing but the Roster's own entries knows who is present. -/
theorem isPresent_congr {r q : Roster} (h : r.entries = q.entries) (a : Address) : r.isPresent a = q.isPresent a := by
  rw [Roster.isPresent, Roster.isPresent, Roster.entry, Roster.entry, h]

theorem setEntry_isPresent_same {r : Roster} {a : Address} (ha : a ≠ 31) : (r.setEntry a ⟨true, 0⟩).isPresent a = true := by
  rw [Roster.isPresent, entry_setEntry ha _ (toNat_lt_31 ha), if_pos rfl]

theorem writeMirror_entries (s : State) (a : Address) : (s.writeMirror a).roster.entries = s.roster.entries := by
  rw [writeMirror_frame]

theorem markPresent_entries (s : State) (a : Address) :
    (s.markPresent a).roster.entries = (s.roster.setEntry a ⟨true, 0⟩).entries := by
  rw [State.markPresent, (raise_only _ _).roster, writeMirror_entries]

/-- The source of a frame from a peer is present once the Roster has it (R22). -/
theorem rosterSource_isPresent {s : State} {a : Address} (h31 : a ≠ 31) (hown : a ≠ s.station.address) :
    (s.rosterSource a).roster.isPresent a = true := by
  unfold State.rosterSource
  rw [if_neg (not_or.mpr ⟨h31, hown⟩)]
  split
  · exact setEntry_isPresent_same h31
  · exact (isPresent_congr (markPresent_entries s.setFullNext a) a).trans (setEntry_isPresent_same h31)

theorem rosterSource_station (s : State) (a : Address) : (s.rosterSource a).station = s.station := by
  unfold State.rosterSource
  split
  · rfl
  · split
    · rfl
    · rw [State.addPeer, State.markPresent, (raise_only _ _).station, writeMirror_frame]
      rfl

/-- A change of station state among those that the laws do not tell apart. -/
theorem enterState_steady (s : State) {st : StationState} (hserves : st.serves = true)
    (hreceives : st.receives = true → s.station.state.receives = true) : Steady s (s.enterState st) := by
  have hstation : Steady s { s with station.state := st } := {
    circuits := rfl
    inFlight := rfl
    driven := rfl
    address _ := rfl
    base := id
    present := fun _ => id
    ages := id
    serves := fun h => by rw [show ({ s with station.state := st } : State).station.state.serves = true from hserves] at h; cases h
    receives := hreceives
    joins := fun h hst => h (.inr (hst.elim (fun hc => by rw [show st = .config from hc] at hserves; cases hserves) hreceives)) }
  exact (hstation.trans (poke_steady _ _ _)).trans (raise_steady _ _)

theorem enterActive_steady (s : State) (h : s.station.state = .joining) : Steady s s.enterActive := by
  have hblocks : Steady s { s with arbiter.collisions := 0, station.joinTimer := none } := .same rfl rfl rfl rfl id rfl rfl
  exact hblocks.trans (enterState_steady _ rfl fun _ => (congrArg StationState.receives h).trans rfl)

theorem enterJoiningFromMuted_steady (s : State) (h : s.station.state = .muted) : Steady s s.enterJoiningFromMuted := by
  have hblocks : Steady s { s.setFullNext with
      line.txEnable := true
      arbiter.collisions := 0
      station.muteTimer := none
      station.joinTimer := some 0 } := .same rfl rfl rfl rfl id rfl rfl
  exact hblocks.trans (enterState_steady _ rfl fun _ => (congrArg StationState.receives h).trans rfl)

theorem setStartStatus_steady (s : State) (st : StartStatus) : Steady s (s.setStartStatus st) :=
  have hstatus : Steady s { s with station.startStatus := st } := .same rfl rfl rfl rfl id rfl rfl
  hstatus.trans (poke_steady _ _ _)

theorem writeRefusal_steady (s : State) (id circuit kind : Byte) (outcome : RefusalOutcome) :
    Steady s (s.writeRefusal id circuit kind outcome) := by
  rw [writeRefusal_eq]
  exact .same rfl rfl rfl rfl (fun h => h) rfl rfl

theorem advanceTake_steady (s : State) : Steady s s.advanceTake := by
  have hrequests : Steady s { s with requests.take := s.requests.take + 1 } := .same rfl rfl rfl rfl id rfl rfl
  exact hrequests.trans (poke_steady _ _ _)

theorem takeRequestPost_steady (s : State) (v : Byte) : Steady s (s.takeRequestPost v) := by
  unfold State.takeRequestPost
  dsimp only
  split
  · exact .same rfl rfl rfl rfl id rfl rfl
  · exact (writeRefusal_steady s _ _ _ _).trans (raise_steady _ _)

theorem pokeEach_steady (bytes : List (Nat × Byte)) (s : State) : Steady s (s.pokeEach bytes) := by
  induction bytes generalizing s with
  | nil => exact .refl s
  | cons b rest ih => exact (poke_steady s _ _).trans (ih _)

theorem arrive_steady (s : State) (bytes : List (Nat × Byte)) : Steady s (s.arrive bytes) := by
  unfold State.arrive
  split
  · exact pokeEach_steady bytes s
  · exact .same rfl rfl rfl rfl id rfl rfl

theorem landLater_steady (s : State) : Steady s s.landLater := by
  have hlanded (l : List (List (Nat × Byte))) (u : State) : Steady u (l.foldl State.pokeEach u) := by
    induction l generalizing u with
    | nil => exact .refl u
    | cons bytes rest ih => exact (pokeEach_steady bytes u).trans (ih _)
  unfold State.landLater
  dsimp only
  split
  · exact (hlanded _ s).trans (.same rfl rfl rfl rfl id rfl rfl)
  · exact .refl s

theorem writeBackControl_steady (s : State) : Steady s s.writeBackControl := by
  unfold State.writeBackControl
  split
  · exact .refl s
  · exact poke_steady _ _ _

end Sys2Proof.Proofs
end

section
namespace Sys2Proof.Proofs

open Sys2Proof Sys2Proof.Machine Sys2Proof.Claims Sys2Proof.Safety Sys2Proof.Laws

/-! ## Every circuit in turn -/

theorem mem_allCircuits (c : CircuitNo) : c ∈ allCircuits := by revert c; decide

theorem allCircuits_nodup : allCircuits.Nodup := by decide

/-- Each circuit of a list, changed by itself alone, is changed once. -/
theorem foldl_circuit (f : CircuitNo → State → State) (g : CircuitNo → Circuit → Circuit)
    (honly : ∀ c s, CircuitOnly c s (f c s)) (hg : ∀ c s, (f c s).circuit c = g c (s.circuit c)) (l : List CircuitNo)
    (hl : l.Nodup) (s : State) (c : CircuitNo) :
    (l.foldl (fun s c => f c s) s).circuit c = if c ∈ l then g c (s.circuit c) else s.circuit c := by
  induction l generalizing s with
  | nil => simp
  | cons d rest ih =>
    obtain ⟨hd, hrest⟩ := List.nodup_cons.mp hl
    rw [List.foldl_cons, ih hrest]
    by_cases hcd : c = d
    · subst hcd
      simp [hd, hg]
    · simp [hcd, (honly d s).others c hcd]

theorem eachCircuit_circuit (f : CircuitNo → State → State) (g : CircuitNo → Circuit → Circuit)
    (honly : ∀ c s, CircuitOnly c s (f c s)) (hg : ∀ c s, (f c s).circuit c = g c (s.circuit c)) (s : State) (c : CircuitNo) :
    (s.eachCircuit f).circuit c = g c (s.circuit c) := by
  rw [State.eachCircuit, foldl_circuit f g honly hg _ allCircuits_nodup, if_pos (mem_allCircuits c)]

theorem loseAll_circuit (s : State) (cause : EndCause) (c : CircuitNo) :
    (s.loseAll cause).circuit c = lostWith (s.circuit c) cause :=
  eachCircuit_circuit _ (fun _ k => lostWith k cause) (fun c s => lose_only s c cause) (fun c s => lose_circuit s c cause) s c

theorem loseAbsent_circuit (s : State) (a : Address) (c : CircuitNo) :
    (s.loseAbsent a).circuit c = if (s.circuit c).peer = a then lostWith (s.circuit c) .lostAbsent else s.circuit c := by
  refine eachCircuit_circuit _ (fun _ k => if k.peer = a then lostWith k .lostAbsent else k) (fun c s => ?_) (fun c s => ?_) s c
  · split
    · exact lose_only s c .lostAbsent
    · exact .refl c s
  · split
    · exact lose_circuit s c .lostAbsent
    · rfl

/-- No lost circuit works with a peer (R91). -/
theorem engaged_lostWith (k : Circuit) (cause : EndCause) : engaged (lostWith k cause).state = false := by
  cases h : k.state <;> simp only [lostWith, h]
  case listening => split <;> simp [engaged, h]
  all_goals rfl

/-! ## Station changes that the laws see -/

/-- With no frame in flight the laws of one have nothing to speak of. -/
theorem dropped_lawful {s t : State} (hcircuits : t.circuits = s.circuits) (hnone : t.selector.inFlight = none)
    (hstation : t.station = s.station) (hbase : t.arbiter.base = s.arbiter.base) (hroster : t.roster = s.roster) : Lawful s t := by
  have hc (c : CircuitNo) : t.circuit c = s.circuit c := congrArg (Vector.get · c) hcircuits
  have hnoFrame (f : FlightFrame) (hf : f ∈ t.selector.inFlight) : False := by
    rw [hnone] at hf
    cases hf
  refine ⟨fun h c => ?_, fun ⟨hpeers, hunique⟩ => ⟨fun c => ?_, fun c d => ?_⟩, fun ⟨⟨hquiet, ⟨haddress, hB⟩, hown, hengaged⟩, _⟩ =>
    ⟨⟨fun hs c => ?_, ⟨?_, ?_⟩, ?_, fun c => ?_⟩, fun _ f hf => (hnoFrame f hf).elim⟩, fun h => ?_,
    fun ⟨hquiet, hrings, _⟩ => ⟨fun hs c => ?_, fun c => ?_, fun f hf => (hnoFrame f hf).elim⟩⟩
  · rw [hc]
    exact h c
  · rw [hc]
    exact hpeers c
  · rw [hc, hc]
    exact hunique c d
  · rw [hc]
    exact hquiet (by rwa [hstation] at hs) c
  · rwa [hstation]
  · rwa [hbase]
  · rwa [hstation, hroster]
  · rw [hc, hroster]
    exact hengaged c
  · rwa [AgeLaw, hroster]
  · rw [hc]
    exact hquiet (by rwa [hstation] at hs) c
  · rw [hc]
    exact hrings c

/-- Every circuit FREE with rings of at most 32 slots, no frame in flight, and a station that does not listen. -/
theorem cleared_lawful {s t : State}
    (hfree : ∀ c, (t.circuit c).state = .free ∧ (t.circuit c).inFlight = none ∧ (t.circuit c).txSize ≤ 32 ∧ (t.circuit c).rxSize ≤ 32)
    (hnone : t.selector.inFlight = none) (hbase : t.arbiter.base ≠ 31) (hreceives : t.station.state.receives = false)
    (hconfig : t.station.state = .config → t.station.address ≠ 31) (hages : AgeLaw t) : Lawful s t where
  requests _ c := by
    obtain ⟨hst, hin, -⟩ := hfree c
    simp [requestFits, hst, hin]
  pairs _ := ⟨fun c hlive => by simp [(hfree c).1, CircuitState.live] at hlive,
    fun c d hlive => by simp [(hfree c).1, CircuitState.live] at hlive⟩
  transfer _ := ⟨fun _ c => (hfree c).1, fun c => by
    obtain ⟨hst, -, htx, hrx⟩ := hfree c
    exact ⟨htx, hrx, fun h => absurd hst h, fun h => absurd hst h⟩, fun f hf => by rw [hnone] at hf; cases hf⟩
  peers _ := ⟨⟨fun _ c => (hfree c).1, ⟨fun h => h.elim hconfig fun hr => by (rw [hreceives] at hr; cases hr), hbase⟩,
    fun hr => by (rw [hreceives] at hr; cases hr), fun c hc => by simp [(hfree c).1, engaged] at hc⟩,
    fun hr => by rw [hreceives] at hr; cases hr⟩
  ages _ := hages

theorem ageLaw_reset {t : State} (h : t.roster.entries = Vector.replicate 31 RosterEntry.absent) : AgeLaw t := by
  intro a
  have hget : (Vector.replicate 31 RosterEntry.absent).get a = RosterEntry.absent := by simp [Vector.get_eq_getElem]
  rw [h, hget]
  exact ⟨fun _ => rfl, by decide⟩

theorem resetBase_ne_31 (a : Address) : resetBase a ≠ 31 := by
  unfold resetBase
  split
  · decide
  · assumption

theorem pinReset_lawful (s : State) : Lawful s s.pinReset := by
  refine cleared_lawful (fun c => ?_) rfl (resetBase_ne_31 _) rfl nofun (ageLaw_reset rfl)
  have hc : s.pinReset.circuit c = Circuit.reset := circuits_replicate _ c
  rw [hc]
  exact ⟨rfl, rfl, by decide, by decide⟩

theorem restarted_receives (a : Address) : (restartState a).receives = false := by
  unfold restartState
  split <;> rfl

theorem writeFields_station (ws : List FieldWrite) (s : State) : (s.writeFields ws).station = s.station := by
  rw [State.writeFields]
  induction ws generalizing s with
  | nil => rfl
  | cons w rest ih =>
    rw [List.foldl_cons, ih]
    cases w <;> rfl

theorem takeRestart_lawful (s : State) : Lawful s s.takeRestart := by
  rw [takeRestart_eq]
  refine Lawful.trans (t := restartBlocks (s.showAllFree.writeFields restartWrites) s.station.address) ?_
    ((poke_steady _ _ _).trans (poke_steady _ _ _)).lawful
  generalize hu : s.showAllFree.writeFields restartWrites = u
  have haddress : u.station.address = s.station.address := by
    have honly : CircuitsOnly s s.showAllFree := eachCircuit_only _ (fun c t => by
      split
      · exact (circuitOnly_pokeRecord c c t _ _).rest
      · exact .refl t) s
    rw [← hu, writeFields_station, honly.station]
  refine cleared_lawful (fun c => ?_) rfl (resetBase_ne_31 _) (restarted_receives _) (fun hconfig => ?_) (ageLaw_reset rfl)
  · rw [restartBlocks_circuit]
    exact ⟨rfl, rfl, Nat.zero_le _, Nat.zero_le _⟩
  · show u.station.address ≠ 31
    rw [haddress]
    intro h31
    have hhalted : restartState s.station.address = .halted := if_pos h31
    rw [show restartState s.station.address = .config from hconfig] at hhalted
    cases hhalted

/-- The straps change in RESET alone, where no circuit works and no frame is sent (R173). -/
theorem latchStraps_lawful (s : State) (address : Address) (rate : BitVec 2) (loop : Bool) (hreset : s.station.state = .reset) :
    Lawful s (s.latchStraps address rate loop) := by
  have hsteady : Steady s (s.latchStraps address rate loop) := {
    circuits := rfl
    inFlight := rfl
    driven := rfl
    address := fun hr => by
      rw [show (s.latchStraps address rate loop).station.state = s.station.state from rfl, hreset] at hr
      cases hr
    base := fun _ => resetBase_ne_31 address
    present := fun _ => id
    ages := id
    serves := id
    receives := id
    joins := fun _ hst => by
      rw [show (s.latchStraps address rate loop).station.state = s.station.state from rfl, hreset] at hst
      rcases hst with hst | hst <;> cases hst }
  exact hsteady.lawful

theorem writeFields_steady (ws : List FieldWrite) (s : State) : Steady s (s.writeFields ws) := by
  rw [State.writeFields]
  induction ws generalizing s with
  | nil => exact .refl s
  | cons w rest ih =>
    rw [List.foldl_cons]
    refine Steady.trans ?_ (ih _)
    cases w with
    | byte off v => exact poke_steady s off v
    | half off v => exact pokeHalf_steady s off v

/-- The end of a start pass in RESET, at a station whose circuits are FREE (R174). -/
theorem finishStartPass_lawful (s : State) (hreset : s.station.state = .reset) : Lawful s s.finishStartPass := by
  have hnot (h : s.station.state.receives = true) : False := by rw [hreset] at h; cases h
  unfold State.finishStartPass
  split
  · have hsteady : Steady s { s with station.startPass := none, station.haltCause := .badStrap, station.state := .halted } := {
      circuits := rfl
      inFlight := rfl
      driven := rfl
      address := fun _ => rfl
      base := id
      present := fun _ => id
      ages := id
      serves := nofun
      receives := nofun
      joins := fun _ hst => by rcases hst with hst | hst <;> cases hst }
    exact ((hsteady.trans (poke_steady _ _ _)).trans (poke_steady _ _ _)).lawful
  · next hne =>
    have hsteady : Steady s { s with station.startPass := none, station.state := .config } := {
      circuits := rfl
      inFlight := rfl
      driven := rfl
      address := fun _ => rfl
      base := id
      present := fun _ => id
      ages := id
      serves := fun _ => by rw [hreset]; rfl
      receives := nofun
      joins := fun _ _ => hne }
    exact (hsteady.trans (poke_steady _ _ _)).lawful

theorem startPassEnd_lawful (s : State) {t : State} (h : execStartPassEnd s = .next t) : Lawful s t := by
  unfold execStartPassEnd at h
  cases h
  split
  · next hreset _ =>
    refine (writeFields_steady _ s).lawful.trans (finishStartPass_lawful _ ?_)
    rw [writeFields_station, hreset]
  · exact .refl s

end Sys2Proof.Proofs
end

section
namespace Sys2Proof.Proofs

open Sys2Proof Sys2Proof.Machine Sys2Proof.Claims Sys2Proof.Safety Sys2Proof.Laws

/-! ## Losses -/

/-- Nothing is owed and the orphan list is empty, in two steps: the circuits, then the lists of the station. -/
theorem disowned_lawful (s : State) : Lawful s (disowned s) := by
  have hcircuits : Lawful s (s.eachCircuit fun c s => (s.clearAckPoll c).clearControl c) :=
    lawful_of_served (eachCircuit_only _ (fun c s => ((clearAckPoll_only s c).trans (clearControl_only _ c)).rest) s) fun w _ =>
      eachCircuit_served _ (fun c s => (clearAckPoll_served s c).trans (clearControl_served _ c)) s
  have hlists (t : State) : Steady t { t with selector.rollOwed := false, orphans.entries := [] } := .same rfl rfl rfl rfl id rfl rfl
  exact hcircuits.trans (hlists _).lawful

theorem loseAll_lawful (s : State) (cause : EndCause) : Lawful s (s.loseAll cause) :=
  lawful_of_served (loseAll_only s cause) fun _ _ => loseAll_served s cause

theorem disowned_station (s : State) : (disowned s).station = s.station := by
  rw [disowned, State.clearAllOwed]
  dsimp only
  rw [(eachCircuit_only _ (fun c s => ((clearAckPoll_only s c).trans (clearControl_only _ c)).rest) s).station]

theorem enterState_circuits (s : State) (st : StationState) : (s.enterState st).circuits = s.circuits := (raise_only _ _).circuits

theorem enterState_selector (s : State) (st : StationState) : (s.enterState st).selector = s.selector := (raise_only _ _).selector

theorem enterState_station (s : State) (st : StationState) : (s.enterState st).station = { s.station with state := st } :=
  (raise_only _ _).station

theorem enterState_line (s : State) (st : StationState) : (s.enterState st).line = s.line := (raise_only _ _).line

theorem enterState_arbiter (s : State) (st : StationState) : (s.enterState st).arbiter = s.arbiter := (raise_only _ _).arbiter

theorem enterState_roster (s : State) (st : StationState) : (s.enterState st).roster = s.roster := (raise_only _ _).roster

theorem mutedCircuits_lawful (s : State) : Lawful s (mutedCircuits s) := by
  have hline : Steady s { s with line.txEnable := false, line.txen := false } := .same rfl rfl rfl rfl id rfl rfl
  exact (hline.lawful.trans (disowned_lawful _)).trans (loseAll_lawful _ .lostMuted)

theorem mutedCircuits_station (s : State) : (mutedCircuits s).station = s.station :=
  (loseAll_only _ .lostMuted).station.trans (disowned_station _)

theorem setMutedSeen_station (s : State) : s.setMutedSeen.station = s.station := rfl

theorem enterMutedState_lawful (s : State) (h : s.station.state.receives = true) : Lawful s s.enterMutedState := by
  have htimers (t : State) : Steady t { t with
      station.muteTimer := some 0
      arbiter.collisions := 0
      roster.silence := 0 } := .same rfl rfl rfl rfl id rfl rfl
  have hstation : (mutedCircuits s).setMutedSeen.station = s.station := by
    rw [setMutedSeen_station, mutedCircuits_station]
  rw [enterMutedState_eq]
  refine (((mutedCircuits_lawful s).trans (setMutedSeen_steady _).lawful).trans (htimers _).lawful).trans
    (enterState_steady _ rfl fun _ => ?_).lawful
  generalize (mutedCircuits s).setMutedSeen = u at *
  show u.station.state.receives = true
  rwa [hstation]

theorem haltedCircuits_lawful (s : State) : Lawful s (haltedCircuits s) := by
  have hline : Lawful s { s with line := s.line.off, selector.inFlight := none } := dropped_lawful rfl rfl rfl rfl rfl
  exact (hline.trans (disowned_lawful _)).trans (loseAll_lawful _ .lostHalted)

theorem haltedCircuits_engaged (s : State) (c : CircuitNo) : engaged ((haltedCircuits s).circuit c).state = false := by
  rw [haltedCircuits, loseAll_circuit]
  exact engaged_lostWith _ _

theorem haltedCircuits_station (s : State) : (haltedCircuits s).station = s.station :=
  (loseAll_only _ .lostHalted).station.trans (disowned_station _)

theorem flight_eq_none {s : State} : flight s = none ↔ s.selector.inFlight = none := Option.map_eq_none_iff

theorem disowned_flight (s : State) : flight (disowned s) = flight s :=
  (disowned_served (w := ⟨fun _ => True, True, True, True, True⟩) s).flight

theorem loseAll_flight (s : State) (cause : EndCause) : flight (s.loseAll cause) = flight s :=
  (loseAll_served (w := ⟨fun _ => True, True, True, True, True⟩) s cause).flight

theorem haltedCircuits_flight (s : State) : (haltedCircuits s).selector.inFlight = none := by
  rw [← flight_eq_none, haltedCircuits, loseAll_flight, disowned_flight]
  rfl

/-- The station in HALTED, where no circuit works and the roster is empty (R36, R180). -/
theorem halted_lawful {s t : State} (hcircuits : t.circuits = s.circuits) (hnone : ∀ c, engaged (s.circuit c).state = false)
    (hflight : t.selector.inFlight = none) (hbase : BaseLaw s → t.arbiter.base ≠ 31) (hstate : t.station.state = .halted)
    (hages : AgeLaw t) : Lawful s t := by
  have hc (c : CircuitNo) : t.circuit c = s.circuit c := congrArg (Vector.get · c) hcircuits
  have hreceives (h : t.station.state.receives = true) : False := by rw [hstate] at h; cases h
  have hserves (h : t.station.state.serves = false) : False := by rw [hstate] at h; cases h
  have hnoFrame (f : FlightFrame) (hf : f ∈ t.selector.inFlight) : False := by
    rw [hflight] at hf
    cases hf
  refine ⟨fun h c => ?_, fun ⟨hpeers, hunique⟩ => ⟨fun c => ?_, fun c d => ?_⟩, fun ⟨⟨hquiet, hlaw, hown, hengaged⟩, _⟩ =>
    ⟨⟨fun hs => (hserves hs).elim, ⟨fun h => ?_, hbase hlaw⟩, fun hr => (hreceives hr).elim, fun c h => ?_⟩,
      fun _ f hf => (hnoFrame f hf).elim⟩, fun _ => hages,
    fun ⟨hquiet, hrings, _⟩ => ⟨fun hs => (hserves hs).elim, fun c => ?_, fun f hf => (hnoFrame f hf).elim⟩⟩
  · rw [hc]
    exact h c
  · rw [hc]
    exact hpeers c
  · rw [hc, hc]
    exact hunique c d
  · exact h.elim (fun hconfig => by rw [hstate] at hconfig; cases hconfig) fun hr => (hreceives hr).elim
  · rw [hc, hnone] at h
    cases h
  · rw [hc]
    exact hrings c

/-- What HALTED leaves of the blocks behind the circuits (R180). -/
theorem haltedBlocks_fields (s : State) : (haltedBlocks s).circuits = (haltedCircuits s).circuits ∧
    (haltedBlocks s).selector = (haltedCircuits s).selector ∧ (haltedBlocks s).arbiter.base = s.station.address ∧
    (haltedBlocks s).roster.entries = Vector.replicate 31 RosterEntry.absent := by
  simp only [haltedBlocks, State.emptyRoster, State.clearWindowCounts, State.pokeHalf, State.poke, and_self]

theorem enterHaltedState_lawful (s : State) (h : s.station.state.receives = true) : Lawful s s.enterHaltedState := by
  obtain ⟨hcircuits, hselector, hbase, hentries⟩ := haltedBlocks_fields s
  refine (haltedCircuits_lawful s).trans (halted_lawful ?_ (haltedCircuits_engaged s) ?_ (fun ⟨haddress, _⟩ => ?_) ?_ (ageLaw_reset ?_))
    <;> rw [enterHaltedState_eq] <;> generalize haltedBlocks s = u at *
  · rw [enterState_circuits]
    exact hcircuits
  · rw [enterState_selector]
    exact (congrArg Selector.inFlight hselector).trans (haltedCircuits_flight s)
  · rw [enterState_arbiter]
    show u.arbiter.base ≠ 31
    rw [hbase]
    rw [haltedCircuits_station] at haddress
    exact haddress (.inr h)
  · rw [enterState_station]
  · rw [enterState_roster]
    exact hentries

/-! ## Removal of a peer -/

/-- The roster and the mirror without the peer, before its circuits are lost (R24). -/
def removed (s : State) (a : Address) : State :=
  (({ s.setFullNext with roster := s.roster.setEntry a RosterEntry.absent } : State).writeMirror a).raise (.station .roster)

theorem removePeer_eq (s : State) (a : Address) : s.removePeer a = (removed s a).loseAbsent a := by
  simp only [State.removePeer, removed]

theorem removed_fields (s : State) (a : Address) : (removed s a).circuits = s.circuits ∧ (removed s a).selector = s.selector ∧
    (removed s a).line = s.line ∧ (removed s a).station = s.station ∧ (removed s a).arbiter.base = s.arbiter.base ∧
    (removed s a).roster.entries = (s.roster.setEntry a RosterEntry.absent).entries := by
  have honly := raise_only
    (({ s.setFullNext with roster := s.roster.setEntry a RosterEntry.absent } : State).writeMirror a) (.station .roster)
  refine ⟨honly.circuits.trans ?_, honly.selector.trans ?_, honly.line.trans ?_, honly.station.trans ?_,
    (congrArg Arbiter.base honly.arbiter).trans ?_, (congrArg Roster.entries honly.roster).trans (writeMirror_entries _ a)⟩ <;>
    rw [writeMirror_frame] <;> rfl

theorem setEntry_absent_present {r : Roster} {a b : Address} (h : r.isPresent b = true) (hne : b ≠ a) :
    (r.setEntry a RosterEntry.absent).isPresent b = true := by
  by_cases ha : a = 31
  · rwa [Roster.setEntry, dif_neg (by rw [ha]; decide)]
  · unfold Roster.isPresent at h ⊢
    by_cases hb : b.toNat < 31
    · rw [entry_setEntry ha _ hb, if_neg fun heq => hne (BitVec.eq_of_toNat_eq heq)]
      exact h
    · rw [Roster.entry, dif_neg hb] at h
      cases h

theorem removePeer_lawful (s : State) (a : Address) (hown : a ≠ s.station.address) : Lawful s (s.removePeer a) := by
  obtain ⟨hcircuits, hselector, hline, hstation, hbase, hentries⟩ := removed_fields s a
  have hc (c : CircuitNo) : (removed s a).circuit c = s.circuit c := congrArg (Vector.get · c) hcircuits
  have honly := loseAbsent_only (removed s a) a
  have hserved (w : Terms) : Served w s (s.removePeer a) := by
    rw [removePeer_eq]
    exact (Served.same hcircuits (flight_of_inFlight (congrArg Selector.inFlight hselector))).trans (loseAbsent_served _ a)
  have hstation' : (s.removePeer a).station = s.station := by rw [removePeer_eq, honly.station, hstation]
  have hline' : (s.removePeer a).line = s.line := by rw [removePeer_eq, honly.line, hline]
  have hroster : (s.removePeer a).roster.entries = (s.roster.setEntry a RosterEntry.absent).entries := by
    rw [removePeer_eq, honly.roster, hentries]
  have hquiet (hlaw : QuietLaw s) : QuietLaw (s.removePeer a) := fun hserves c => by
    rw [hstation'] at hserves
    exact ((hserved ⟨fun _ => True, False, False, False, False⟩).free c (hlaw hserves c)).resolve_right id
  refine ⟨(hserved ⟨fun _ => True, True, True, True, True⟩).requests, (hserved ⟨fun _ => True, True, True, True, True⟩).pairs trivial,
    fun ⟨⟨hq, ⟨haddress, hB⟩, hpresent, hengaged⟩, hframe⟩ => ⟨⟨hquiet hq, ⟨?_, ?_⟩, fun hr => ?_, fun c hc' => ?_⟩, ?_⟩, ?_,
    fun ⟨hq, hrings, hflight⟩ => ⟨hquiet hq, (hserved ⟨fun _ => True, True, True, True, True⟩).rings trivial hrings,
      flightFits_of_served (hserved ⟨fun _ => True, True, True, True, True⟩) trivial hflight⟩⟩
  · rwa [hstation']
  · rwa [removePeer_eq, honly.arbiter, hbase]
  · rw [hstation'] at hr ⊢
    rw [isPresent_congr hroster]
    exact setEntry_absent_present (hpresent hr) hown.symm
  · rw [removePeer_eq, loseAbsent_circuit, hc] at hc' ⊢
    rw [← removePeer_eq, isPresent_congr hroster]
    split at hc'
    · rw [engaged_lostWith] at hc'
      cases hc'
    · next hne =>
      rw [if_neg hne]
      exact setEntry_absent_present (hengaged c hc') hne
  · exact ownFrameLaw_of_flight (hserved ⟨fun _ => True, True, True, True, True⟩).flight (by rw [hline']) (fun _ => by rw [hstation'])
      (by rw [hstation']; exact id) hframe
  · exact ageLaw_setEntry rfl hroster

theorem peerAgedOut_lawful (s : State) (a : Address) : Lawful s (if s.agedOut a then s.removePeer a else s) := by
  split
  · next h =>
    simp only [State.agedOut, Bool.and_eq_true, bne_iff_ne] at h
    exact removePeer_lawful s a h.1.1.2
  · exact .refl s

/-! ## GO -/

theorem layAllRings_lawful (l : List CircuitNo) (codes s : State) (base : Half)
    (hcodes : ∀ c ∈ l, codes.startTxCode c ≤ 5 ∧ codes.startRxCode c ≤ 5) (hserves : s.station.state.serves = false) :
    Lawful s (s.layAllRings codes base l) ∧ (s.layAllRings codes base l).station = s.station := by
  induction l generalizing s base with
  | nil => exact ⟨.refl s, rfl⟩
  | cons c rest ih =>
    obtain ⟨htx, hrx⟩ := hcodes c List.mem_cons_self
    have honly := layRings_only s c base (ringSize (codes.startTxCode c)) (ringSize (codes.startRxCode c))
    have hlaid : Lawful s (s.layRings c base (ringSize (codes.startTxCode c)) (ringSize (codes.startRxCode c))) :=
      lawful_of_served honly.rest fun w hw =>
        layRings_served s c base (ringSize_range htx).2 (ringSize_range hrx).2 fun hr => (hw.room hr).1 hserves c
    rw [layAllRings_cons]
    obtain ⟨hrest, hstation⟩ := ih (s.layRings c base (ringSize (codes.startTxCode c)) (ringSize (codes.startRxCode c))) _
      (fun e he => hcodes e (List.mem_cons_of_mem c he)) (by rwa [honly.rest.station])
    exact ⟨hlaid.trans hrest, hstation.trans honly.rest.station⟩

/-- The station with its line and selector as JOINING begins, and itself present (R19, R35, R56). -/
def joiningBlocks (s : State) : State :=
  ({ s with
    line.state := .settling
    line.quiet := 0
    line.rxBuffer := []
    line.rxCount := 0
    line.rxEnable := true
    line.txEnable := true
    line.txen := false
    roster.silence := 0
    selector.rollOwed := false
    selector.pointer := 0
    selector.inFlight := none } : State).markPresent s.station.address

theorem enterJoiningFromConfig_eq (s : State) : s.enterJoiningFromConfig = ({ joiningBlocks s with
    arbiter.state := .waiting
    arbiter.base := s.station.address
    arbiter.fullNext := true
    arbiter.mode := .full
    arbiter.roundTimer := 0
    arbiter.collisions := 0
    quality.windowTimer := some 0
    station.joinTimer := some 0 } : State).enterState .joining := by
  simp only [State.enterJoiningFromConfig, joiningBlocks]

theorem markPresent_eq (s : State) (a : Address) : s.markPresent a = { s with
    roster := (s.markPresent a).roster
    notice := (s.markPresent a).notice
    window := (s.markPresent a).window } := by
  rw [State.markPresent, (raise_only _ _).eq, writeMirror_frame]

/-- Entry to JOINING from CONFIG: no circuit is engaged, and the own address, which may join, is present (R35, R174, R178). -/
theorem enterJoiningFromConfig_lawful (s : State) (hconfig : s.station.state = .config) : Lawful s s.enterJoiningFromConfig := by
  have hblocks : (joiningBlocks s).circuits = s.circuits ∧ (joiningBlocks s).selector.inFlight = none ∧
      (joiningBlocks s).station = s.station := by
    rw [joiningBlocks, markPresent_eq]
    exact ⟨rfl, rfl, rfl⟩
  obtain ⟨hcircuits, hflight, hstation⟩ := hblocks
  have hentries : (joiningBlocks s).roster.entries = (s.roster.setEntry s.station.address ⟨true, 0⟩).entries := by
    rw [joiningBlocks, markPresent_entries]
    unfold Roster.setEntry
    split <;> rfl
  rw [enterJoiningFromConfig_eq]
  generalize joiningBlocks s = u at *
  generalize ht : State.enterState _ .joining = t
  have hc (c : CircuitNo) : t.circuit c = s.circuit c := by
    refine congrArg (Vector.get · c) ?_
    rw [← ht, enterState_circuits]
    exact hcircuits
  have hstate : t.station.state = .joining := by rw [← ht, enterState_station]
  have haddress : t.station.address = s.station.address := by
    rw [← ht, enterState_station]
    show u.station.address = s.station.address
    rw [hstation]
  have hbase : t.arbiter.base = s.station.address := by rw [← ht, enterState_arbiter]
  have hroster : t.roster.entries = (s.roster.setEntry s.station.address ⟨true, 0⟩).entries := by
    rw [← ht, enterState_roster]
    exact hentries
  have hnoFrame (f : FlightFrame) (hf : f ∈ t.selector.inFlight) : False := by
    rw [← ht, enterState_selector] at hf
    rw [show _ = none from hflight] at hf
    cases hf
  have hserves (h : t.station.state.serves = false) : False := by rw [hstate] at h; cases h
  refine ⟨fun h c => ?_, fun ⟨hpeers, hunique⟩ => ⟨fun c => ?_, fun c d => ?_⟩, fun ⟨⟨hquiet, ⟨hown, _⟩, _, _⟩, _⟩ =>
    ⟨⟨fun hs => (hserves hs).elim, ⟨fun _ => ?_, ?_⟩, fun hr => ?_, fun c h => ?_⟩, fun _ f hf => (hnoFrame f hf).elim⟩,
    ageLaw_setEntry rfl hroster,
    fun ⟨hquiet, hrings, _⟩ => ⟨fun hs => (hserves hs).elim, fun c => ?_, fun f hf => (hnoFrame f hf).elim⟩⟩
  · rw [hc]
    exact h c
  · rw [hc]
    exact hpeers c
  · rw [hc, hc]
    exact hunique c d
  · rw [haddress]
    exact hown (.inl hconfig)
  · rw [hbase]
    exact hown (.inl hconfig)
  · rw [haddress, isPresent_congr hroster]
    exact setEntry_isPresent_same (hown (.inl hconfig))
  · rw [hc, hquiet (by rw [hconfig]; rfl) c] at h
    cases h
  · rw [hc]
    exact hrings c

theorem takeGo_lawful (s : State) (hconfig : s.station.state = .config) : Lawful s s.takeGo := by
  unfold State.takeGo
  split
  · next h =>
    obtain ⟨hrings, hstation⟩ := layAllRings_lawful (circuitsBelow s.startCount) s s ringArea (startFits_of_ok h).codes
      (by rw [hconfig]; rfl)
    have hcount (t : State) : Steady t { t with station.circuitCount := s.startCount } := .same rfl rfl rfl rfl id rfl rfl
    have hparams (t : State) : Steady t { t with
        station.creditStep := some s.startStep
        quality.params := some ⟨s.startExponent, s.startLow, s.startHigh⟩ } := .same rfl rfl rfl rfl id rfl rfl
    refine (hrings.trans ((((hcount _).trans (poke_steady _ _ _)).trans (setStartStatus_steady _ .ok)).trans (hparams _)).lawful).trans
      (enterJoiningFromConfig_lawful _ ?_)
    exact (congrArg Station.state hstation).trans hconfig
  · exact (setStartStatus_steady s _).lawful

theorem takeControl_lawful (s : State) (v : Byte) : Lawful s (s.takeControl v) := by
  unfold State.takeControl
  split
  · exact .refl s
  · dsimp only
    refine .trans (.trans (landLater_steady s).lawful ?_) (writeBackControl_steady _).lawful
    split
    · next h => exact takeGo_lawful _ h.2
    · split
      · exact takeRestart_lawful _
      · exact .refl _

end Sys2Proof.Proofs
end

section
namespace Sys2Proof.Proofs

open Sys2Proof Sys2Proof.Machine Sys2Proof.Claims Sys2Proof.Safety Sys2Proof.Laws Sys2Proof.Laws.FrameLength

/-! ## The frame of a turn -/

/-- What the Transmit Selector vouches for in the frame it offers (R50, R54, R62, R74, R101, R117). -/
structure Chosen (s : State) (f : FlightFrame) : Prop where
  fits : flightFits s f = true
  src : f.header.src = s.station.address
  joining : s.station.state = .joining → f.use = .roll ∧ f.kind = .roll

theorem rankRoll_chosen {s : State} {f : FlightFrame} (h : s.rankRoll = some f) : Chosen s f := by
  unfold State.rankRoll at h
  split at h
  · cases h
    exact ⟨rfl, rfl, fun _ => ⟨rfl, rfl⟩⟩
  · cases h

theorem rankControl_chosen {s : State} {f : FlightFrame} (hactive : s.station.state = .active) (h : s.rankControl = some f) :
    Chosen s f := by
  obtain ⟨c, -, hc⟩ := List.exists_of_findSome?_eq_some h
  obtain ⟨kind, -, rfl⟩ := Option.map_eq_some_iff.mp hc
  refine ⟨by simp [flightFits, State.controlFrame, State.ownerOf], ?_, fun hjoining => by rw [hactive] at hjoining; cases hjoining⟩
  cases kind <;> rfl

theorem rankOrphan_chosen {s : State} {f : FlightFrame} (hactive : s.station.state = .active) (h : s.rankOrphan = some f) :
    Chosen s f := by
  obtain ⟨o, -, rfl⟩ := Option.map_eq_some_iff.mp h
  exact ⟨rfl, rfl, fun hjoining => by rw [hactive] at hjoining; cases hjoining⟩

theorem rankCall_chosen {s : State} {f : FlightFrame} (hactive : s.station.state = .active) (h : s.rankCall = some f) :
    Chosen s f := by
  obtain ⟨c, -, rfl⟩ := Option.map_eq_some_iff.mp h
  exact ⟨by simp [flightFits, State.callFrame, State.ownerOf], rfl, fun hjoining => by rw [hactive] at hjoining; cases hjoining⟩

theorem rankAck_chosen {s : State} {f : FlightFrame} (hactive : s.station.state = .active) (h : s.rankAck = some f) :
    Chosen s f := by
  obtain ⟨c, -, rfl⟩ := Option.map_eq_some_iff.mp h
  exact ⟨by simp [flightFits, State.ackFrame, State.ownerOf], rfl, fun hjoining => by rw [hactive] at hjoining; cases hjoining⟩

/-- A circuit that may send a new segment has a posted slot unsent, and room in its window (R100, R121). -/
theorem newDataRoom_of_wantsNew {k : Circuit} {seq : Seq} (h : k.wantsNew = some seq) : newDataRoom k = true := by
  obtain ⟨hwants, -⟩ := Option.ite_none_right_eq_some.mp h
  rw [Bool.and_eq_true, Bool.and_eq_true, Circuit.hasUnsent, Bool.and_eq_true, decide_eq_true_iff, Circuit.sentSpan] at hwants
  obtain ⟨⟨htransfers, hunsent, -⟩, hwindow⟩ := hwants
  have hdata : (match k.mode with
      | .assured => decide (k.outstanding < 8) && decide (k.outstanding < k.postedSpan)
      | .plain => decide (0 < k.postedSpan)) = true := by
    cases hmode : k.mode with
    | assured =>
      rw [hmode] at hunsent hwindow
      rw [Bool.and_eq_true, decide_eq_true_iff] at hwindow
      rw [Bool.and_eq_true, decide_eq_true_iff, decide_eq_true_iff]
      exact ⟨hwindow.1, hunsent⟩
    | plain =>
      rw [hmode] at hunsent
      rw [decide_eq_true_iff]
      exact hunsent
  unfold newDataRoom
  cases hst : k.state with
  | opened | draining => exact hdata
  | free | clearing | ended => rfl
  | listening | calling =>
    rw [hst] at htransfers
    cases htransfers

/-- The segment that a search finds is one that its circuit wants as the search leaves it (R100, R102, R108, R121). -/
theorem scanData_found {wants : Circuit → Option Seq} {use : Seq → FrameUse} {l : List CircuitNo} {s t : State} {f : FlightFrame}
    (h : s.scanData wants use l = (t, some f)) :
    ∃ c seq, wants (t.circuit c) = some seq ∧ f = t.dataFrame c seq (use seq) ((t.circuit c).txSlot seq) := by
  induction l generalizing s with
  | nil => cases h
  | cons c rest ih =>
    obtain ⟨-, hnext⟩ | ⟨seq, -, -, hnext⟩ | ⟨seq, hwants, -, hnext⟩ := scanData_cons s wants use c rest <;> rw [hnext] at h
    · exact ih h
    · exact ih h
    · cases h
      exact ⟨c, seq, hwants, rfl⟩

theorem slotFault_only (s : State) (c : CircuitNo) : CircuitOnly c s (s.slotFault c) :=
  ((recordFault_only s c .slotFault).trans (lose_only _ c .slotFault)).trans (addOrphan_only c _ _ _ _)

theorem scanData_only (wants : Circuit → Option Seq) (use : Seq → FrameUse) (l : List CircuitNo) (s : State) :
    CircuitsOnly s (s.scanData wants use l).1 := by
  induction l generalizing s with
  | nil => exact .refl s
  | cons c rest ih =>
    obtain ⟨-, h⟩ | ⟨seq, -, -, h⟩ | ⟨seq, -, -, h⟩ := scanData_cons s wants use c rest <;> rw [h]
    · exact ih s
    · exact (slotFault_only s c).rest.trans (ih _)
    · exact .refl s

/-- What the search of ranks 3 to 6 comes to: two scans, and then an ACK or a ROLL (R50). -/
theorem chooseData_cases (s : State) :
    (∃ t f, s.scanData Circuit.wantsResend .resend allCircuits = (t, some f) ∧ s.chooseData = (t, some f)) ∨
    (∃ t, s.scanData Circuit.wantsResend .resend allCircuits = (t, none) ∧
      ((∃ u f, t.scanData Circuit.wantsNew (fun _ => .newData) t.rotationOrder = (u, some f) ∧ s.chooseData = (u, some f)) ∨
      (∃ u, t.scanData Circuit.wantsNew (fun _ => .newData) t.rotationOrder = (u, none) ∧
        s.chooseData = (u, u.rankAck <|> u.rankRoll)))) := by
  unfold State.chooseData
  split
  · next t f h => exact .inl ⟨t, f, h, rfl⟩
  · next t h =>
    refine .inr ⟨t, h, ?_⟩
    split
    · next u f hu => exact .inl ⟨u, f, hu, rfl⟩
    · next u hu => exact .inr ⟨u, hu, rfl⟩

theorem dataFrame_chosen {s : State} (hactive : s.station.state = .active) (c : CircuitNo) (seq : Seq) {use : FrameUse} (slot : Nat)
    (hfits : flightFits s (s.dataFrame c seq use slot) = true) : Chosen s (s.dataFrame c seq use slot) :=
  ⟨hfits, rfl, fun hjoining => by rw [hactive] at hjoining; cases hjoining⟩

/-- A search for a DATA reaches the circuits alone, and loses those whose slot is too long (R102). -/
theorem scanData_lawful (wants : Circuit → Option Seq) (use : Seq → FrameUse) (l : List CircuitNo) (s : State) :
    Lawful s (s.scanData wants use l).1 := lawful_of_served (scanData_only wants use l s) fun _ _ => scanData_served wants use l s

theorem chooseData_only (s : State) : CircuitsOnly s s.chooseData.1 := by
  have hresend := scanData_only Circuit.wantsResend .resend allCircuits s
  obtain ⟨t, f, h, heq⟩ | ⟨t, h, ⟨u, f, hu, heq⟩ | ⟨u, hu, heq⟩⟩ := chooseData_cases s <;> rw [heq] <;> rw [h] at hresend
  · exact hresend
  all_goals
    have hnew := scanData_only Circuit.wantsNew (fun _ => .newData) t.rotationOrder t
    rw [hu] at hnew
    exact hresend.trans hnew

theorem chooseData_lawful (s : State) : Lawful s s.chooseData.1 := by
  have hresend := scanData_lawful Circuit.wantsResend .resend allCircuits s
  obtain ⟨t, f, h, heq⟩ | ⟨t, h, ⟨u, f, hu, heq⟩ | ⟨u, hu, heq⟩⟩ := chooseData_cases s <;> rw [heq] <;> rw [h] at hresend
  · exact hresend
  all_goals
    have hnew := scanData_lawful Circuit.wantsNew (fun _ => .newData) t.rotationOrder t
    rw [hu] at hnew
    exact hresend.trans hnew

theorem chooseData_chosen {s t : State} {f : FlightFrame} (hactive : s.station.state = .active) (h : s.chooseData = (t, some f)) :
    Chosen t f := by
  have hactive' : t.station.state = .active := by
    have honly := chooseData_only s
    rw [h] at honly
    rwa [honly.station]
  obtain ⟨u, g, hu, heq⟩ | ⟨u, -, ⟨v, g, hv, heq⟩ | ⟨v, -, heq⟩⟩ := chooseData_cases s <;> rw [heq] at h
  · cases h
    obtain ⟨c, seq, -, rfl⟩ := scanData_found hu
    exact dataFrame_chosen hactive' c seq _ (by simp [flightFits, State.dataFrame, State.ownerOf])
  · cases h
    obtain ⟨c, seq, hwants, rfl⟩ := scanData_found hv
    exact dataFrame_chosen hactive' c seq _
      (by simp [flightFits, State.dataFrame, State.ownerOf, newDataRoom_of_wantsNew hwants])
  · cases hack : v.rankAck with
    | some g =>
      rw [hack] at h
      cases h
      exact rankAck_chosen hactive' hack
    | none =>
      rw [hack] at h
      obtain ⟨rfl, hroll⟩ := Prod.mk.inj h
      exact rankRoll_chosen hroll

theorem choose_only (s : State) : CircuitsOnly s s.choose.1 := by
  unfold State.choose
  split
  · exact .refl s
  · split
    · exact .refl s
    · exact chooseData_only s
  all_goals exact .refl s

theorem choose_lawful (s : State) : Lawful s s.choose.1 := by
  unfold State.choose
  split
  · exact .refl s
  · split
    · exact .refl s
    · exact chooseData_lawful s
  all_goals exact .refl s

theorem choose_chosen {s t : State} {f : FlightFrame} (h : s.choose = (t, some f)) : Chosen t f := by
  unfold State.choose at h
  split at h
  · obtain ⟨rfl, hroll⟩ := Prod.mk.inj h
    exact rankRoll_chosen hroll
  · next hactive =>
    split at h
    · next g hg =>
      cases h
      cases hcontrol : s.rankControl with
      | some g =>
        rw [hcontrol] at hg
        cases hg
        exact rankControl_chosen hactive hcontrol
      | none =>
        cases horphan : s.rankOrphan with
        | some g =>
          rw [hcontrol, horphan] at hg
          cases hg
          exact rankOrphan_chosen hactive horphan
        | none =>
          rw [hcontrol, horphan] at hg
          exact rankCall_chosen hactive hg
    · exact chooseData_chosen hactive h
  all_goals cases h

/-! ## The start of transmission -/

theorem discharge_only (s : State) (f : FlightFrame) : CircuitsOnly s (s.discharge f) := by
  unfold State.discharge
  split
  · exact .refl s
  · constructor <;> rfl
  · exact (updCircuit_only s _ _).rest

theorem discharge_selector (s : State) (f : FlightFrame) : (s.discharge f).selector = s.selector := by
  unfold State.discharge
  split <;> rfl

/-- The header's bytes are what the body of an own frame begins with (R5, R14). -/
theorem bodyByte_header (s : State) (f : FlightFrame) {i : Nat} (h : i < 7) :
    s.bodyByte f i = byteAt (headerBytes f.kind f.header (BitVec.ofNat 8 f.payloadLength)) i := if_pos h

/-- A frame in flight from its start: its first byte on the line (R14, R37). -/
theorem launched_lawful {s t : State} {f : FlightFrame} (hcircuits : t.circuits = s.circuits)
    (hflight : t.selector.inFlight = some f) (hdriven : t.line.driven = [s.bodyByte f 0]) (hstation : t.station = s.station)
    (hbase : t.arbiter.base = s.arbiter.base) (hroster : t.roster = s.roster) (hfits : flightFits s f = true)
    (hsrc : f.header.src = s.station.address) : Lawful s t := by
  have hc (c : CircuitNo) : t.circuit c = s.circuit c := congrArg (Vector.get · c) hcircuits
  have hserved : Served ⟨fun _ => True, True, True, True, True⟩ { s with selector := t.selector } t := .same hcircuits rfl
  have hframe (g : FlightFrame) (hg : g ∈ t.selector.inFlight) : g = f := by
    rw [hflight] at hg
    exact (Option.some.inj hg).symm
  refine ⟨fun h c => ?_, fun ⟨hpeers, hunique⟩ => ⟨fun c => ?_, fun c d => ?_⟩, fun ⟨⟨hquiet, ⟨haddress, hB⟩, hown, hengaged⟩, _⟩ =>
    ⟨⟨fun hs c => ?_, ⟨?_, ?_⟩, ?_, fun c => ?_⟩, fun _ g hg => ?_⟩, fun h => ?_,
    fun ⟨hquiet, hrings, _⟩ => ⟨fun hs c => ?_, fun c => ?_, fun g hg => ?_⟩⟩
  · rw [hc]
    exact h c
  · rw [hc]
    exact hpeers c
  · rw [hc, hc]
    exact hunique c d
  · rw [hc]
    exact hquiet (by rwa [hstation] at hs) c
  · rwa [hstation]
  · rwa [hbase]
  · rwa [hstation, hroster]
  · rw [hc, hroster]
    exact hengaged c
  · rw [hframe g hg, hstation, hdriven, bodyByte_header s f (by decide)]
    exact ⟨hsrc, by simp [headerBytes, byteAt]⟩
  · rwa [AgeLaw, hroster]
  · rw [hc]
    exact hquiet (by rwa [hstation] at hs) c
  · rw [hc]
    exact hrings c
  · rw [hframe g hg]
    exact flightFits_mono hserved trivial hfits

theorem startFrame_lawful (s : State) (f : FlightFrame) (h : Chosen s f) : Lawful s (s.startFrame f) := by
  unfold State.startFrame
  split
  · dsimp only
    have honly := discharge_only s f
    have hserved (w : Terms) : Served w s (s.discharge f) := discharge_served s f
    have hfits := flightFits_mono (hserved ⟨fun _ => True, True, True, True, True⟩) trivial h.fits
    have hbyte : s.bodyByte f 0 = (s.discharge f).bodyByte f 0 := by
      rw [bodyByte_header s f (by decide), bodyByte_header _ f (by decide)]
    refine (lawful_of_served honly fun w _ => hserved w).trans (Lawful.trans (launched_lawful (f := f) ?_ ?_ ?_ ?_ ?_ ?_ hfits ?_)
      (lineBusyToArbiter_steady _).lawful)
    · rfl
    · rfl
    · exact congrArg (fun b => [b]) hbyte
    · rfl
    · rfl
    · rfl
    · rw [honly.station]
      exact h.src
  · exact .refl s

theorem makeTurn_lawful (s : State) : Lawful s s.makeTurn := by
  have hmade : Steady s { s with arbiter.turnMade := true } := .same rfl rfl rfl rfl id rfl rfl
  unfold State.makeTurn
  dsimp only
  refine hmade.lawful.trans ?_
  split
  · have hchoose := choose_lawful { s with arbiter.turnMade := true }
    split
    · next t f h =>
      rw [h] at hchoose
      exact hchoose.trans (startFrame_lawful t f (choose_chosen h))
    · next t h =>
      rw [h] at hchoose
      exact hchoose
  · exact .refl _

end Sys2Proof.Proofs
end

section
namespace Sys2Proof.Proofs

open Sys2Proof Sys2Proof.Machine Sys2Proof.Claims Sys2Proof.Safety Sys2Proof.Laws Sys2Proof.Laws.FrameLength

/-! ## Reports -/

theorem plainDataSent_only (s : State) (c : CircuitNo) : CircuitOnly c s (s.plainDataSent c) :=
  (((updCircuit_only s c _).trans (circuitOnly_pokeRecord c c _ _ _)).trans (noticeRelease_only _ c _)).trans (testDrain_only _ c)

theorem circuitSent_only (s : State) (c : CircuitNo) (f : FlightFrame) : CircuitOnly c s (s.circuitSent c f) := by
  unfold State.circuitSent
  dsimp only
  split
  · split
    · exact updCircuit_only s c _
    · exact .refl c s
  · exact .refl c s
  · exact .refl c s
  · split
    · exact updCircuit_only s c _
    · exact .refl c s
  · split
    · split
      · exact (updCircuit_only s c _).trans (testStall_only _ c)
      · exact plainDataSent_only s c
    · exact .refl c s
  · split
    · exact updCircuit_only s c _
    · exact .refl c s
  · split
    · exact updCircuit_only s c _
    · exact .refl c s
  · exact .refl c s
  · exact .refl c s

/-- The owner of a sent frame takes its own steps, a new DATA having had its room (R53, R54). -/
theorem ownerSent_lawfulIf {p q : Prop} (s : State) (f : FlightFrame) (hidle : s.selector.inFlight = none)
    (hroom : q → f.use = .newData → ∀ c life, f.owner = .circuit c life → s.pastLifetime c life = false →
      newDataRoom (s.circuit c) = true) : LawfulIf p q s (s.ownerSent f) := by
  have horphans (l : List Orphan) : Lawful s { s with orphans.entries := l } :=
    Steady.lawful (.same rfl rfl rfl rfl id rfl rfl)
  cases h : f.owner with
  | roster => rw [State.ownerSent, h]; exact (Lawful.refl s).when
  | orphanList => rw [State.ownerSent, h]; exact (horphans _).when
  | circuit c life =>
    have hpointer : Lawful s (pointerMoved s c f) := by
      rw [pointerMoved_eq]
      exact Steady.lawful (.same rfl rfl rfl rfl id rfl rfl)
    rw [ownerSent_circuit s h]
    split
    · exact hpointer.when
    · next hpast =>
      refine hpointer.when.trans (lawfulIf_of_served (circuitSent_only _ c f).rest fun w hw hq _ =>
        circuitSent_served _ c f (fun hbusy => hw.busy hbusy ?_) fun hr huse => ?_)
      · rw [pointerMoved_eq]
        exact hidle
      · rw [pointerMoved_eq]
        exact hroom (hq hr) huse c life h (Bool.eq_false_iff.mpr hpast)

/-- The own frame reported as sent: the line is free and nothing is in flight (R16). -/
def sentIdle (s : State) : State := { s with
  line := s.line.afterOwnFrame s.quietAfterSent
  selector.inFlight := none
  arbiter.collisions := 0 }

/-- The sent report at its owner. -/
def sentOwner (s : State) (f : FlightFrame) : State := (sentIdle s).countSent.ownFrameSent.ownerSent f

/-- The sent report at Station Control: the ROLL of a station in JOINING makes it ACTIVE (R31). -/
def sentStation (s : State) (f : FlightFrame) : State :=
  if f.use = .roll ∧ (sentOwner s f).station.state = .joining then (sentOwner s f).enterActive else sentOwner s f

theorem reportSent_eq (s : State) (f : FlightFrame) :
    s.reportSent f = (sentStation s f).frameEnd (some (sentStation s f).station.address) := rfl

/-- A frame in flight that is a new DATA has its room, unless its circuit is past that lifetime (R50, R54). -/
theorem newDataRoom_of_flightFits {s : State} {f : FlightFrame} (hfits : flightFits s f = true) (huse : f.use = .newData)
    {c : CircuitNo} {life : Nat} (howner : f.owner = .circuit c life) (hpast : s.pastLifetime c life = false) :
    newDataRoom (s.circuit c) = true := by
  simp only [flightFits, howner, huse, Bool.or_eq_true, Bool.and_eq_true, decide_eq_true_eq] at hfits
  simp only [State.pastLifetime, Bool.or_eq_false_iff, bne_eq_false_iff_eq] at hpast
  obtain hless | ⟨-, hnew⟩ := hfits
  · omega
  · exact hnew

theorem reportSent_lawfulIf {p : Prop} (s : State) (f : FlightFrame) (hf : f ∈ s.selector.inFlight) :
    LawfulIf p (TransferLaw s) s (s.reportSent f) := by
  have hidle : Lawful s (sentIdle s) := dropped_lawful rfl rfl rfl rfl rfl
  have hcounted : Lawful s (sentIdle s).countSent.ownFrameSent :=
    hidle.trans ((countSent_steady _).trans (ownFrameSent_steady _)).lawful
  have howner : LawfulIf p (TransferLaw s) s (sentOwner s f) :=
    hcounted.when.trans (ownerSent_lawfulIf _ f rfl fun hq huse c life howner hpast =>
      newDataRoom_of_flightFits (hq.2.2 f hf) huse howner hpast)
  rw [reportSent_eq]
  refine .trans ?_ (frameEnd_steady _ _).lawful.when
  unfold sentStation
  split
  · next h => exact howner.trans (enterActive_steady _ h.2).lawful.when
  · exact howner

/-- The first seven bytes of a frame on the line are its header's, whether driven already or still to come (R14). -/
theorem frameOnLine_header {s : State} {f : FlightFrame}
    (hdriven : s.line.driven.take 7 <+: headerBytes f.kind f.header (BitVec.ofNat 8 f.payloadLength)) {i : Nat} (hi : i < 7) :
    byteAt (s.frameOnLine f) i = byteAt (headerBytes f.kind f.header (BitVec.ofNat 8 f.payloadLength)) i := by
  have hlength : f.bodyLength = 7 + f.payloadLength := rfl
  generalize hsent : s.line.driven.take f.bodyLength = sent
  have hbody : (sent ++ ((List.range f.bodyLength).drop sent.length).map (s.bodyByte f))[i]? =
      some (byteAt (headerBytes f.kind f.header (BitVec.ofNat 8 f.payloadLength)) i) := by
    by_cases h : i < sent.length
    · have hle : i < s.line.driven.length := by
        rw [← hsent, List.length_take] at h
        omega
      have hat : (headerBytes f.kind f.header (BitVec.ofNat 8 f.payloadLength))[i]? = s.line.driven[i]? := by
        rw [List.prefix_iff_getElem?.mp hdriven i (by rw [List.length_take]; omega), List.getElem_take, List.getElem?_eq_getElem hle]
      rw [List.getElem?_append_left h, ← hsent, List.getElem?_take, if_pos (by omega), byteAt, List.getD_eq_getElem?_getD, hat,
        List.getElem?_eq_getElem hle]
      rfl
    · rw [List.getElem?_append_right (by omega), List.getElem?_map, List.getElem?_drop,
        List.getElem?_range (by omega), Option.map_some, bodyByte_header s f (by omega)]
      congr 2
      omega
  rw [byteAt, State.frameOnLine, withCheck, hsent, List.getD_eq_getElem?_getD, List.getElem?_append_left, hbody]
  · rfl
  · exact (List.getElem?_eq_some_iff.mp hbody).1

/-- The looped copy of an own frame is from the own address (R14, R18). -/
theorem frameOnLine_source {s : State} {f : FlightFrame}
    (hdriven : s.line.driven.take 7 <+: headerBytes f.kind f.header (BitVec.ofNat 8 f.payloadLength)) :
    sourceOf (s.frameOnLine f) = f.header.src := by
  rw [sourceOf, frameOnLine_header hdriven (by decide)]
  exact BitVec.extractLsb'_append_eq_right

/-- The looped copy reaches the Circuit Table alone, as one from the own address (R18). -/
theorem loopedCopy_lawfulIf {p q : Prop} (s : State) (bytes : List Byte) (hsource : p → s.station.state = .active → sourceOf bytes = s.station.address) :
    LawfulIf p q s (s.loopedCopy bytes) := by
  have hline : Steady s { s with
      line.rxBuffer := bytes.take Config.frameRoom
      line.rxCount := bytes.length
      line.rxCheck := checkOf (bytes.take (bytes.length - 2)) } := .same rfl rfl rfl rfl id rfl rfl
  unfold State.loopedCopy
  dsimp only
  split
  · next k f hgood =>
    obtain ⟨-, -, hf, -⟩ := classify_good hgood
    have hsrc : f.src = sourceOf bytes := congrArg Frame.src hf
    refine (hline.trans (countGood_steady _)).lawful.when.trans (lawfulIf_of_served (tableFrame_only _ k f) fun w hw _ hp =>
      tableFrame_served _ k f hw.paired fun _ _ hactive _ => hp.elim (· _) fun hp => hw.known_of_present fun hpeers _ => ?_)
    rw [hsrc, hsource hp hactive]
    exact hpeers.2.2.1 (by rw [hactive]; rfl)
  · exact (hline.trans (countMalformed_steady _)).lawful.when
  · exact (hline.trans (countDamaged_steady _)).lawful.when

theorem ownerSent_station (s : State) (f : FlightFrame) : (s.ownerSent f).station = s.station := by
  cases h : f.owner with
  | roster => rw [State.ownerSent, h]
  | orphanList => rw [State.ownerSent, h]
  | circuit c life =>
    have hpointer : (pointerMoved s c f).station = s.station := by rw [pointerMoved_eq]
    rw [ownerSent_circuit s h]
    split
    · exact hpointer
    · rw [(circuitSent_only _ c f).rest.station, hpointer]

theorem frameEnd_station (s : State) (source : Option Address) : (s.frameEnd source).station = s.station := by
  rw [frameEnd_eq]

theorem sentOwner_station (s : State) (f : FlightFrame) : (sentOwner s f).station = s.station := ownerSent_station _ f

theorem reportSent_station (s : State) (f : FlightFrame) : (s.reportSent f).station =
    if f.use = .roll ∧ s.station.state = .joining then { s.station with state := .active, joinTimer := none } else s.station := by
  rw [reportSent_eq, frameEnd_station, sentStation, sentOwner_station]
  split
  · rw [State.enterActive, enterState_station]
    exact congrArg (fun st : Station => { st with state := .active, joinTimer := none }) (sentOwner_station s f)
  · exact sentOwner_station s f

theorem frameSent_lawful (s : State) : Lawful s s.frameSent := by
  unfold State.frameSent
  split
  · next f _ hf =>
    dsimp only
    have hreport := reportSent_lawfulIf (p := PresenceLaw s ∧ OwnFrameLaw s) s f hf
    have haddress : (s.reportSent f).station.address = s.station.address := by
      rw [reportSent_station]
      split <;> rfl
    have hreceives : (s.reportSent f).station.state.receives = true → s.station.state.receives = true := by
      rw [reportSent_station]
      split
      · next h => exact fun _ => by rw [h.2]; rfl
      · exact id
    split
    · refine lawful_of_laws ?_
      refine hreport.trans (loopedCopy_lawfulIf _ _ fun hp hactive => ?_)
      obtain ⟨hsrc, hdriven⟩ := hp.2 (hreceives (by rw [hactive]; rfl)) f hf
      rw [frameOnLine_source hdriven, hsrc, haddress]
    · exact lawful_of_laws hreport
  · exact .refl s

/-- The own frame's end after a collision: the line is free, nothing is in flight, and the collision counts (R16, R48). -/
theorem frameCollided_eq {s : State} {f : FlightFrame} (hline : s.line.state = .stopped) (hf : s.selector.inFlight = some f) :
    s.frameCollided = ((((({ s with
      line := s.line.afterOwnFrame s.quietAfterCollision
      selector.inFlight := none
      arbiter.collisions := min Config.muteCollisions (s.arbiter.collisions + 1) } : State).countCollision.ownerCollided
        f).setFullNext).frameEnd none).muteIfDue) := by
  simp only [State.frameCollided, hline, hf]

theorem ownerCollided_only (s : State) (f : FlightFrame) : CircuitsOnly s (s.ownerCollided f) := by
  unfold State.ownerCollided
  split
  · exact .refl s
  · constructor <;> rfl
  · split
    · exact .refl s
    · exact (updCircuit_only s _ _).rest

theorem muteIfDue_lawful (s : State) : Lawful s s.muteIfDue := by
  unfold State.muteIfDue
  split
  · next h => exact enterMutedState_lawful s (by rw [h.1]; rfl)
  · exact .refl s

theorem frameCollided_lawful (s : State) : Lawful s s.frameCollided := by
  cases hline : s.line.state with
  | stopped =>
    cases hf : s.selector.inFlight with
    | none =>
      rw [State.frameCollided, hline, hf]
      exact .refl s
    | some f =>
      have hidle (n m : Nat) : Lawful s { s with
          line := s.line.afterOwnFrame n
          selector.inFlight := none
          arbiter.collisions := m } := dropped_lawful rfl rfl rfl rfl rfl
      rw [frameCollided_eq hline hf]
      exact ((((((hidle _ _).trans (countCollision_steady _).lawful).trans
        (lawful_of_served (ownerCollided_only _ f) fun _ _ => ownerCollided_served _ f)).trans (setFullNext_steady _).lawful).trans
        (frameEnd_steady _ none).lawful).trans (muteIfDue_lawful _))
  | off | settling | idle | hearing | sending =>
    rw [State.frameCollided, hline]
    exact .refl s

theorem collisionDetected_steady (s : State) : Steady s s.collisionDetected := by
  unfold State.collisionDetected
  split
  · exact .same rfl rfl rfl rfl id rfl rfl
  · exact .refl s

/-! ## Received frames -/

theorem duplicate_iff (s : State) (a : Address) : s.duplicate a = true ↔
    a = s.station.address ∧ s.station.loop = false ∧ s.station.state.receives = true := by
  simp [State.duplicate, and_assoc]

theorem malformedEnd_lawful (s : State) (source : Address) : Lawful s (s.malformedEnd source) := by
  have hcounted : Steady s s.countMalformed := countMalformed_steady s
  unfold State.malformedEnd
  dsimp only
  split
  · next h =>
    refine (hcounted.trans (frameEnd_steady _ _)).lawful.trans (enterHaltedState_lawful _ ?_)
    rw [frameEnd_station]
    exact ((duplicate_iff _ source).mp h).2.2
  · exact ((hcounted.trans (rosterSource_steady _ source)).trans (frameEnd_steady _ _)).lawful

/-- A frame from the own address is no call (R61). -/
theorem tableFrame_lawful_of_own (s : State) (k : Kind) (f : Frame) (hown : f.src = s.station.address) (hloop : s.station.loop = false) :
    Lawful s (s.tableFrame k f) :=
  lawful_of_served (tableFrame_only s k f) fun _ hw =>
    tableFrame_served s k f hw.paired fun _ _ _ hnot => absurd ⟨hloop, hown⟩ hnot

/-- No call is taken outside ACTIVE (R69). -/
theorem tableFrame_lawful_of_inactive (s : State) (k : Kind) (f : Frame) (h : s.station.state ≠ .active) :
    Lawful s (s.tableFrame k f) :=
  lawful_of_served (tableFrame_only s k f) fun _ hw => tableFrame_served s k f hw.paired fun _ _ hactive => absurd hactive h

theorem enterHaltedState_station (s : State) : s.enterHaltedState.station.state = .halted := by
  rw [enterHaltedState_eq, enterState_station]

theorem duplicateEnd_lawful (s : State) (k : Kind) (f : Frame) (h : s.duplicate f.src = true) : Lawful s (s.duplicateEnd k f) := by
  obtain ⟨hown, hloop, hreceives⟩ := (duplicate_iff s f.src).mp h
  have hdrawn : Steady s { s.frameEnd (some f.src) with choices := s.choices + 1 } :=
    (frameEnd_steady s (some f.src)).trans (.same rfl rfl rfl rfl id rfl rfl)
  have hstation : ({ s.frameEnd (some f.src) with choices := s.choices + 1 } : State).station = s.station := frameEnd_station s _
  unfold State.duplicateEnd
  dsimp only
  generalize ({ s.frameEnd (some f.src) with choices := s.choices + 1 } : State) = u at *
  split
  · refine (hdrawn.lawful.trans (tableFrame_lawful_of_own u k f (by rw [hstation, hown]) (by rw [hstation, hloop]))).trans
      (enterHaltedState_lawful _ ?_)
    rw [(tableFrame_only u k f).station, hstation, hreceives]
  · refine (hdrawn.lawful.trans (enterHaltedState_lawful u (by rw [hstation, hreceives]))).trans
      (tableFrame_lawful_of_inactive _ k f ?_)
    rw [enterHaltedState_station]
    decide

/-- A good frame from a peer reaches the Circuit Table once its source is present, or from the own address in loop test (R22, R34). -/
theorem tableFrame_lawful_of_heard (s : State) (k : Kind) (f : Frame) (hrules : keepsRules k f = true) (t : State)
    (ht : t.station = s.station) (hpresent : f.src ≠ 31 → f.src ≠ s.station.address → t.roster.isPresent f.src = true) :
    Lawful t (t.tableFrame k f) := by
  refine lawful_of_served (tableFrame_only t k f) fun w hw => tableFrame_served t k f hw.paired fun _ _ hactive _ =>
    hw.known_of_present fun hpeers _ => ?_
  by_cases hown : f.src = s.station.address
  · rw [hown, ← ht]
    exact hpeers.2.2.1 (by rw [hactive]; rfl)
  · exact hpresent (src_ne_31 hrules) hown

theorem goodEnd_lawful (s : State) (k : Kind) (f : Frame) (hrules : keepsRules k f = true) : Lawful s (s.goodEnd k f) := by
  have hcounted : Steady s s.countGood := countGood_steady s
  unfold State.goodEnd
  dsimp only
  split
  · next h => exact hcounted.lawful.trans (duplicateEnd_lawful _ k f h)
  · have hsource := rosterSource_steady s.countGood f.src
    have hstation : (s.countGood.rosterSource f.src).station = s.countGood.station := rosterSource_station _ _
    have hpresent (h31 : f.src ≠ 31) (hown : f.src ≠ s.countGood.station.address) :
        (s.countGood.rosterSource f.src).roster.isPresent f.src = true := rosterSource_isPresent h31 hown
    generalize s.countGood.rosterSource f.src = u at *
    have hexamined : Steady u (if k = .roll then u.examineRoll f else u) ∧
        (if k = .roll then u.examineRoll f else u).station = u.station ∧
        (if k = .roll then u.examineRoll f else u).roster = u.roster := by
      split
      · refine ⟨examineRoll_steady u f, ?_, ?_⟩ <;> unfold State.examineRoll <;> split <;> rfl
      · exact ⟨.refl u, rfl, rfl⟩
    obtain ⟨hsteady, hst, hroster⟩ := hexamined
    refine (((hcounted.trans hsource).trans hsteady).lawful.trans (tableFrame_lawful_of_heard s.countGood k f hrules _
      (hst.trans hstation) fun h31 hown => ?_)).trans (frameEnd_steady _ _).lawful
    rw [hroster]
    exact hpresent h31 hown

/-- A received frame has ended: it stands in the receive buffer, and the line is IDLE (R6). -/
def stored (s : State) (truncated : Bool) (bytes : List Byte) : State := { s with
  line.state := .idle
  line.quiet := if truncated then Config.quietTime else 0
  line.rxBuffer := bytes.take Config.frameRoom
  line.rxCount := bytes.length
  line.rxCheck := checkOf (bytes.take (bytes.length - 2)) }

theorem stored_steady (s : State) (truncated : Bool) (bytes : List Byte) : Steady s (stored s truncated bytes) :=
  .same rfl rfl rfl rfl id rfl rfl

/-- What a frame end does in HEARING, by the frame's class (R6, R7, R8). -/
theorem hear_cases {s : State} (h : s.line.state = .hearing) (truncated : Bool) (bytes : List Byte) :
    (classify truncated bytes = .damaged ∧ s.hear truncated bytes = (stored s truncated bytes).damagedEnd) ∨
    (∃ source, classify truncated bytes = .malformed source ∧
      s.hear truncated bytes = (stored s truncated bytes).malformedEnd source) ∨
    (∃ k f, classify truncated bytes = .good k f ∧ s.hear truncated bytes = (stored s truncated bytes).goodEnd k f) := by
  rw [State.hear, if_pos h]
  cases hclass : classify truncated bytes with
  | damaged => exact .inl ⟨rfl, rfl⟩
  | malformed source => exact .inr (.inl ⟨source, rfl, rfl⟩)
  | good k f => exact .inr (.inr ⟨k, f, rfl, rfl⟩)

theorem damagedEnd_steady (s : State) : Steady s s.damagedEnd :=
  (countDamaged_steady s).trans ((setFullNext_steady _).trans (frameEnd_steady _ none))

theorem hear_lawful (s : State) (truncated : Bool) (bytes : List Byte) : Lawful s (s.hear truncated bytes) := by
  by_cases hline : s.line.state = .hearing
  · have hstored := (stored_steady s truncated bytes).lawful
    obtain ⟨-, heq⟩ | ⟨source, -, heq⟩ | ⟨k, f, hgood, heq⟩ := hear_cases hline truncated bytes <;> rw [heq]
    · exact hstored.trans (damagedEnd_steady _).lawful
    · exact hstored.trans (malformedEnd_lawful _ source)
    · obtain ⟨-, -, -, hrules⟩ := classify_good hgood
      exact hstored.trans (goodEnd_lawful _ k f hrules)
  · rw [State.hear, if_neg hline]
    exact .refl s

theorem lineBusy_steady (s : State) : Steady s s.lineBusy := by
  have hstart : Steady s { s with
      line.state := .hearing
      line.quiet := 0
      line.rxBuffer := []
      line.rxCount := 0
      line.rxCheck := checkStart } := .same rfl rfl rfl rfl id rfl rfl
  unfold State.lineBusy
  split
  · exact .refl s
  · split
    · exact hstart.trans (lineBusyToArbiter_steady _)
    · exact .refl s
    all_goals exact .same rfl rfl rfl rfl id rfl rfl

theorem lineSettled_steady (s : State) : Steady s s.lineSettled := by
  have hidle : Steady s { s with line.state := .idle } := .same rfl rfl rfl rfl id rfl rfl
  unfold State.lineSettled
  split
  · dsimp only
    split
    · exact hidle.trans (beginRound_steady _)
    · exact hidle
  · exact .refl s

end Sys2Proof.Proofs
end

section
namespace Sys2Proof.Proofs

open Sys2Proof Sys2Proof.Machine Sys2Proof.Claims Sys2Proof.Safety Sys2Proof.Laws Sys2Proof.Laws.FrameLength

/-! ## The host's accesses and the requests -/

theorem takeAttention_steady (s : State) (v : Byte) : Steady s (s.takeAttention v) := steady_of_noticeOnly (takeAttention_only s v)

theorem takeInterruptEnable_steady (s : State) (v : Byte) : Steady s (s.takeInterruptEnable v) :=
  steady_of_noticeOnly (takeInterruptEnable_only s v)

theorem takeField_lawful (s : State) (w : WatchedField) (v : Byte) : Lawful s (s.takeField w v) := by
  unfold State.takeField
  split
  · exact takeControl_lawful s v
  · split
    · exact .refl s
    · exact (takeInterruptEnable_steady s v).lawful
  · split
    · exact .refl s
    · exact (takeRequestPost_steady s v).lawful
  · split
    · exact .refl s
    · exact (takeAttention_steady s v).lawful
  · split
    · exact lawful_of_served (takePost_only s _ v).rest fun _ _ => takePost_served s _ v
    · exact .refl s
  · split
    · exact lawful_of_served (takeRelease_only s _ v).rest fun _ _ => takeRelease_served s _ v
    · exact .refl s
  · split
    · exact lawful_of_served (takeGapAck_only s _).rest fun _ _ => takeGapAck_served s _
    · exact .refl s

theorem writeWatched_lawful (s : State) (w : WatchedField) (v : Byte) : Lawful s (s.writeWatched w v) :=
  (arrive_steady s _).lawful.trans (takeField_lawful _ w v)

theorem takeLane_lawful (s : State) (on : Bool) (off : Nat) (v : Byte) : Lawful s (s.takeLane on off v) := by
  unfold State.takeLane
  split
  · exact takeField_lawful s _ v
  · exact .refl s

theorem hostWrite_lawful (s : State) (word : BitVec 15) (be1 be0 : Bool) (data : Half) : Lawful s (s.hostWrite word be1 be0 data) := by
  have harrived := (arrive_steady s (wordBytes word be1 be0 data)).lawful
  have hdrawn (s : State) : Lawful s { s with choices := s.choices + 1 } := Steady.lawful (.same rfl rfl rfl rfl id rfl rfl)
  unfold State.hostWrite
  dsimp only
  split
  · split
    · exact ((harrived.trans (hdrawn _)).trans (takeLane_lawful _ _ _ _)).trans (takeLane_lawful _ _ _ _)
    · exact ((harrived.trans (hdrawn _)).trans (takeLane_lawful _ _ _ _)).trans (takeLane_lawful _ _ _ _)
  · exact (harrived.trans (takeLane_lawful _ _ _ _)).trans (takeLane_lawful _ _ _ _)

/-- A request is taken by a station that serves, and an OPEN is placed to a peer that is present (R60, R154). -/
theorem takeRequest_lawful (s : State) (hserves : s.station.state.serves = true) : Lawful s s.takeRequest := by
  unfold State.takeRequest
  dsimp only
  split
  · exact (((writeRefusal_steady s _ _ _ _).trans (advanceTake_steady _)).trans (raise_steady _ _)).lawful
  · next hvalid =>
    have hacted : Lawful s (s.actOn s.requestRecord).1 := lawful_of_served (actOn_only s _).rest fun w hw =>
      actOn_served s _ hvalid (hw.taking hserves) fun hpresent => hw.known_of_present fun _ _ => hpresent
    exact hacted.trans ((advanceTake_steady _).trans (raiseOption_steady _ _)).lawful

theorem takeIf_lawful (s : State) (kind : Option RequestKind) : Lawful s (s.takeIf kind) := by
  unfold State.takeIf
  split
  · next h =>
    simp only [State.requestWaiting, Bool.and_eq_true] at h
    exact takeRequest_lawful s h.1.2
  · exact .refl s

/-! ## The timers -/

/-- A retry of a CALL or a CLEAR: it is owed again, or its circuit goes FREE (R64, R83). -/
theorem retry_lawful (s : State) (c : CircuitNo) (again : State → State) (outcome : CompletionOutcome) (due : Prop) [Decidable due]
    (hagain : ∀ t, Lawful t (again t)) : Lawful s (if due then
      (if (s.circuit c).sendCount < Config.maxSends then again (s.updCircuit c fun k => { k with retryTimer := none })
      else (s.updCircuit c fun k => { k with retryTimer := none }).freeWith c outcome)
    else s) := by
  have hstopped : Lawful s (s.updCircuit c fun k => { k with retryTimer := none }) :=
    lawful_of_served (updCircuit_only s c _).rest fun _ _ => updCircuit_served_core s c _ rfl
  split
  · split
    · exact hstopped.trans (hagain _)
    · exact hstopped.trans (lawful_of_served (freeWith_only _ c outcome).rest fun _ _ => freeWith_served _ c outcome)
  · exact .refl s

theorem rxIdleExpiry_lawful (s : State) (c : CircuitNo) {t : State} (h : execRxIdleExpiry c s = .next t) : Lawful s t := by
  have hstopped : Lawful s (s.updCircuit c fun k => { k with rxIdleTimer := none }) :=
    lawful_of_served (updCircuit_only s c _).rest fun _ _ => updCircuit_served_core s c _ rfl
  unfold execRxIdleExpiry at h
  cases h
  split
  · dsimp only
    split
    · exact hstopped.trans (raise_steady _ _).lawful
    · exact hstopped
  · exact .refl s

theorem testDrain_lawful (s : State) (c : CircuitNo) : Lawful s (s.testDrain c) :=
  lawful_of_served (testDrain_only s c).rest fun _ _ => testDrain_served s c

theorem dataRetryOut_only (s : State) (c : CircuitNo) : CircuitOnly c s (s.dataRetryOut c) := by
  unfold State.dataRetryOut
  dsimp only
  split
  · exact (updCircuit_only s c _).trans (lose_only _ c _)
  · exact updCircuit_only s c _

theorem probeOut_only (s : State) (c : CircuitNo) : CircuitOnly c s (s.probeOut c) :=
  (updCircuit_only s c _).trans (testStall_only _ c)

/-! ## Every command -/

/-- Every command keeps the laws. -/
theorem exec_lawful {i : Instr} {s t : State} (h : exec i s = .next t) : Lawful s t := by
  cases i
  case startPassEnd => exact startPassEnd_lawful s h
  case rxIdleExpiry c => exact rxIdleExpiry_lawful s c h
  all_goals cases h
  case resetPinLow => exact pinReset_lawful s
  case resetRelease address rate loop =>
    split
    · next h => exact latchStraps_lawful s address rate loop h.2
    · exact .refl s
  case go | restart | controlOtherValue | requestPostIndexWrite | attentionTakeIndexWrite | interruptEnableWrite | txPostIndexWrite |
    rxReleaseIndexWrite | gapAck => exact writeWatched_lawful s _ _
  case openRequest | listenRequest | closeRequest | abortRequest | badKindRequest => exact takeIf_lawful s _
  case pendingSetDrain => exact (steady_of_noticeOnly (drainWaiting_only s)).lawful
  case stickyQualityFlagsRead => exact (stickyRead_steady s _ _).lawful
  case hostWrite => exact hostWrite_lawful s _ _ _ _
  case lineSettled => exact (lineSettled_steady s).lawful
  case lineBusy => exact (lineBusy_steady s).lawful
  case frameTruncated | damagedFrame | malformedFrame | dataReceived | ackReceived | callReceived | answerReceived | refuseReceived |
    clearReceived | confirmReceived | rollReceived => exact hear_lawful s _ _
  case drainComplete c => exact testDrain_lawful s c
  case silentRoundEnd =>
    split
    · exact (beginRound_steady s).lawful
    · exact .refl s
  case turn =>
    split
    · exact makeTurn_lawful s
    · exact .refl s
  case collisionDetected => exact (collisionDetected_steady s).lawful
  case frameSent => exact frameSent_lawful s
  case frameCollided => exact frameCollided_lawful s
  case enterMuted => exact muteIfDue_lawful s
  case peerAgedOut a => exact peerAgedOut_lawful s a
  case silenceTimerExpiry =>
    split
    · exact (oweRoll_steady s).lawful
    · exact .refl s
  case joinTimerExpiry =>
    have hstopped : Steady s { s with station.joinTimer := none } := .same rfl rfl rfl rfl id rfl rfl
    split
    · exact (hstopped.trans ((oweRoll_steady _).trans (setFullNext_steady _))).lawful
    · exact .refl s
  case muteTimerExpiry =>
    split
    · next h => exact (enterJoiningFromMuted_steady s h.1).lawful
    · exact .refl s
  case callRetryExpiry c =>
    exact retry_lawful s c (fun t => t.updCircuit c fun k => { k with callOwed := true }) _ _ fun t =>
      lawful_of_served (updCircuit_only t c _).rest fun _ _ => updCircuit_served_core t c _ rfl
  case clearRetryExpiry c =>
    exact retry_lawful s c (fun t => t.oweControl c .clear) _ _ fun t =>
      lawful_of_served (oweControl_only t c .clear).rest fun _ _ => oweControl_served t c .clear
  case dataRetryExpiry c =>
    split
    · exact lawful_of_served (dataRetryOut_only s c).rest fun _ _ => dataRetryOut_served s c
    · exact .refl s
  case probeExpiry c =>
    split
    · exact lawful_of_served (probeOut_only s c).rest fun _ _ => probeOut_served s c
    · exact .refl s
  case qualityWindowEnd =>
    split
    · split
      · exact (endWindow_steady s _).lawful
      · exact .refl s
    · exact .refl s

/-! ## A bit time -/

theorem tickStartPass_steady (s : State) : Steady s s.tickStartPass := by
  unfold State.tickStartPass
  split
  · exact .refl s
  · next n _ =>
    split
    · exact .refl s
    · next w _ _ =>
      have hcounted : Steady s { s with station.startPass := some (n + 1) } := .same rfl rfl rfl rfl id rfl rfl
      exact hcounted.trans (writeFields_steady [w] _)

/-- Circuits whose laws' fields stay keep their laws. -/
theorem served_of_core {w : Terms} {s t : State} (hcore : ∀ c, core (t.circuit c) = core (s.circuit c))
    (hflight : flight t = flight s) : Served w s t where
  flight := hflight
  requests h c := by
    have hc := h c
    rw [show requestFits (s.circuit c) = requestFits (core (s.circuit c)) from rfl, ← hcore] at hc
    exact hc
  pairs _ := by
    have hlive (c : CircuitNo) : (t.circuit c).state.live = (s.circuit c).state.live := congrArg (fun k => k.state.live) (hcore c)
    have hpeer (c : CircuitNo) : (t.circuit c).peer = (s.circuit c).peer := congrArg (fun k => k.peer) (hcore c)
    have hpc (c : CircuitNo) : (t.circuit c).peerCircuit = (s.circuit c).peerCircuit := congrArg (fun k => k.peerCircuit) (hcore c)
    intro ⟨hpeers, hunique⟩
    refine ⟨fun c => ?_, fun c d => ?_⟩
    · rw [hlive, hpc]
      exact hpeers c
    · rw [hlive, hlive, hpeer, hpeer, hpc, hpc]
      exact hunique c d
  rings _ h c := by
    have hc : RingLaw (core (s.circuit c)) := h c
    rw [← hcore] at hc
    exact hc
  lifetime c := (congrArg Circuit.lifetime (hcore c)).ge
  room _ c _ h := by
    rw [show newDataRoom (s.circuit c) = newDataRoom (core (s.circuit c)) from rfl, ← hcore] at h
    exact h
  engaged c hc := by
    have hstate : (t.circuit c).state = (s.circuit c).state := congrArg (fun k => k.state) (hcore c)
    exact .inl ⟨by rwa [hstate] at hc, congrArg (fun k => k.peer) (hcore c)⟩
  free c hc := .inl ((congrArg (fun k => k.state) (hcore c)).trans hc)

theorem tickTimers_circuit (s : State) (c : CircuitNo) : s.tickTimers.circuit c = (s.circuit c).tick := circuits_map _ _ c

/-- The own frame goes on by the byte that falls due (R14). -/
theorem tickLine_driven (s : State) : s.tickLine.driven = s.line.driven ∨
    ∃ f ∈ s.selector.inFlight, s.tickLine.driven = s.line.driven ++ [s.nextByte f s.line.driven.length] := by
  unfold State.tickLine
  split
  · exact .inl rfl
  · next f _ hf =>
    unfold State.tickSending
    dsimp only
    split
    · exact .inl rfl
    · split
      · exact .inr ⟨f, hf, rfl⟩
      · exact .inl rfl
  all_goals exact .inl rfl

theorem prefix_concat {l h : List Byte} (hprefix : l <+: h) (hl : l.length < h.length) : l ++ [h.getD l.length 0] <+: h := by
  obtain ⟨rest, rfl⟩ := hprefix
  cases rest with
  | nil => simp at hl
  | cons b rest => simp

theorem ownFrameLaw_tick {s : State} (h : OwnFrameLaw s) : OwnFrameLaw s.tickTimers := by
  intro hr f hf
  obtain ⟨hsrc, hprefix⟩ := h hr f hf
  refine ⟨hsrc, ?_⟩
  obtain heq | ⟨g, hg, heq⟩ := tickLine_driven s
  · rw [show s.tickTimers.line.driven = _ from heq]
    exact hprefix
  · have hgf : g = f := by
      rw [Option.mem_def.mp (show f ∈ s.selector.inFlight from hf)] at hg
      exact (Option.some.inj hg).symm
    subst hgf
    rw [show s.tickTimers.line.driven = _ from heq]
    by_cases hlong : 7 ≤ s.line.driven.length
    · rwa [List.take_append_of_le_length hlong]
    · have hshort : s.line.driven.length < 7 := by omega
      have hbyte : s.nextByte g s.line.driven.length =
          (headerBytes g.kind g.header (BitVec.ofNat 8 g.payloadLength)).getD s.line.driven.length 0 := by
        rw [State.nextByte, if_pos (by rw [FlightFrame.bodyLength]; omega), bodyByte_header s g hshort, byteAt]
      rw [List.take_of_length_le (by omega)] at hprefix
      rw [List.take_of_length_le (by simp; omega), hbyte]
      exact prefix_concat hprefix hshort

theorem ageLaw_tick {s : State} (h : AgeLaw s) : AgeLaw s.tickTimers := by
  intro a
  obtain ⟨habsent, hage⟩ := h a
  show (((s.roster.tick s.station).entries.get a).present = false → ((s.roster.tick s.station).entries.get a).age = 0) ∧
    ((s.roster.tick s.station).entries.get a).age ≤ Config.tAbsent
  unfold Roster.tick
  dsimp only
  split
  · rw [Vector.get_ofFn]
    unfold RosterEntry.tick
    split
    · next hp => exact ⟨fun hnot => by simp [hp.1] at hnot, Nat.min_le_left _ _⟩
    · exact ⟨habsent, hage⟩
  · exact ⟨habsent, hage⟩

theorem tickTimers_isPresent (s : State) (a : Address) : s.tickTimers.roster.isPresent a = s.roster.isPresent a := by
  show (s.roster.tick s.station).isPresent a = s.roster.isPresent a
  unfold Roster.tick Roster.isPresent Roster.entry
  dsimp only
  split
  · split
    · rw [Vector.get_ofFn]
      unfold RosterEntry.tick
      split <;> rfl
    · rfl
  · rfl

theorem tickTimers_lawful (s : State) : Lawful s s.tickTimers := by
  have hserved (w : Terms) : Served w s s.tickTimers := served_of_core (fun c => by rw [tickTimers_circuit]; rfl) rfl
  have hbase : s.arbiter.tick.base = s.arbiter.base := by
    unfold Arbiter.tick
    split <;> rfl
  have hquiet (h : QuietLaw s) : QuietLaw s.tickTimers := fun hs c => by
    rw [tickTimers_circuit]
    exact h hs c
  refine ⟨(hserved ⟨fun _ => True, True, True, True, True⟩).requests, (hserved ⟨fun _ => True, True, True, True, True⟩).pairs trivial,
    fun ⟨⟨hq, ⟨haddress, hB⟩, hown, hengaged⟩, hframe⟩ => ⟨⟨hquiet hq, ⟨haddress, ?_⟩, fun hr => ?_, fun c hc => ?_⟩,
      ownFrameLaw_tick hframe⟩, ageLaw_tick,
    fun ⟨hq, hrings, hflight⟩ => ⟨hquiet hq, (hserved ⟨fun _ => True, True, True, True, True⟩).rings trivial hrings,
      flightFits_of_served (hserved ⟨fun _ => True, True, True, True, True⟩) trivial hflight⟩⟩
  · show s.arbiter.tick.base ≠ 31
    rwa [hbase]
  · rw [tickTimers_isPresent]
    exact hown hr
  · rw [tickTimers_circuit] at hc ⊢
    rw [tickTimers_isPresent]
    exact hengaged c hc

/-! ## Every step -/

theorem step_lawful {s t : State} (h : step s = .next t) : Lawful s t := by
  obtain ⟨-, u, rfl, rfl⟩ | ⟨i, rest, -, hexec⟩ := step_cases h
  · exact ((tickStartPass_steady s).lawful.trans (tickTimers_lawful _)).trans (Steady.lawful (.same rfl rfl rfl rfl id rfl rfl))
  · have hqueue : Steady s { s with pending := rest } := .same rfl rfl rfl rfl id rfl rfl
    exact hqueue.lawful.trans (exec_lawful hexec)

/-- Settles O58: all work keeps the engaged peers and the own entry present, the ages, and the own frame. -/
theorem stepsKeepPeersPresent : Obligations.StepsKeepPeersPresent := by
  intro s t hpresence hages hframe h
  have hlawful := step_lawful h
  obtain ⟨hpresence', hframe'⟩ := hlawful.peers ⟨hpresence, hframe⟩
  exact ⟨hpresence', hlawful.ages hages, hframe'⟩

/-- Settles O59: all work keeps the requests in flight and the pairs. -/
theorem stepsKeepRequestsAndPairs : Obligations.StepsKeepRequestsAndPairs := fun _ _ hrequests hpairs h =>
  ⟨(step_lawful h).requests hrequests, (step_lawful h).pairs hpairs⟩

/-- Settles O60: all work keeps the rings, the windows and the frame in flight within them. -/
theorem stepsKeepTheWindows : Obligations.StepsKeepTheWindows := fun _ _ htransfer h => (step_lawful h).transfer htransfer

end Sys2Proof.Proofs
end

section
namespace Sys2Proof.Proofs

open Sys2Proof Sys2Proof.Machine Sys2Proof.Claims Sys2Proof.Safety Sys2Proof.Laws

/-! ## The transmit path -/

/-- What the laws of the transmit path and of the timers say of a station, a line, a state and a collision count of the Turn Arbiter,
and a frame in flight. -/
structure PathOk (st : Station) (l : Line) (a : ArbiterState) (n : Nat) (frame : Option FlightFrame) : Prop where
  rxEnable : l.rxEnable = st.state.receives
  txEnable : l.txEnable = st.state.transmits
  off : l.state = .off ↔ st.state.receives = false
  arbiter : a = arbiterOf l.state
  inFlight : frame.isSome = ownFrame l.state
  transmits : ownFrame l.state = true → st.state.transmits = true
  joining : st.state = .joining → ∀ f ∈ frame, f.use = .roll ∧ f.kind = .roll
  loop : st.loop = true → l.state ≠ .hearing ∧ l.state ≠ .stopped
  loopQuiet : st.loop = true → l.state = .idle → 20 ≤ l.quiet
  txen : l.txen = (l.state == .sending && !st.loop)
  txd : l.txen = false → l.txd = true
  collisions : n ≤ 16
  active : st.state = .active → n < 16
  joinTimer : st.joinTimer.isSome = true → st.state = .joining
  muteTimer : st.muteTimer.isSome = true → st.state = .muted
  resetLow : st.resetLow = true → st.state = .reset ∧ st.startPass = none
  startPass : st.startPass.isSome = true → st.state = .reset

theorem path_iff (s : State) : PathLaw s ∧ TimerLaw s ↔
    PathOk s.station s.line s.arbiter.state s.arbiter.collisions (flight s) := by
  have hsome : (flight s).isSome = s.selector.inFlight.isSome := Option.isSome_map
  have huse : (∀ f ∈ flight s, f.use = .roll ∧ f.kind = .roll) ↔ ∀ f ∈ s.selector.inFlight, f.use = .roll ∧ f.kind = .roll := by
    constructor
    · exact fun h f hf => h (undischarged f) (Option.mem_map_of_mem undischarged hf)
    · intro h g hg
      obtain ⟨f, hf, rfl⟩ := Option.mem_map.mp hg
      exact h f hf
  constructor
  · intro ⟨⟨⟨hrx, htx, hoff⟩, harb, hflight, htransmits, hjoining, hloop, hloopQuiet, htxen, htxd, hcoll, hactive⟩,
      hjoin, hmute, hreset, hpass⟩
    exact ⟨hrx, htx, hoff, harb, hsome.trans hflight, htransmits, fun h => huse.mpr (hjoining h), hloop, hloopQuiet, htxen, htxd, hcoll,
      hactive, hjoin, hmute, hreset, hpass⟩
  · intro h
    exact ⟨⟨⟨h.rxEnable, h.txEnable, h.off⟩, h.arbiter, hsome.symm.trans h.inFlight, h.transmits, fun hj => huse.mp (h.joining hj),
      h.loop, h.loopQuiet, h.txen, h.txd, h.collisions, h.active⟩, h.joinTimer, h.muteTimer, h.resetLow, h.startPass⟩

/-- The transmit path of a state. -/
abbrev PathOf (s : State) : Prop := PathOk s.station s.line s.arbiter.state s.arbiter.collisions (flight s)

/-- Work that leaves the transmit path as it is. -/
structure OffPath (s t : State) : Prop where
  station : t.station = s.station
  line : t.line = s.line
  state : t.arbiter.state = s.arbiter.state
  collisions : t.arbiter.collisions = s.arbiter.collisions
  flight : flight t = flight s

theorem OffPath.refl (s : State) : OffPath s s := ⟨rfl, rfl, rfl, rfl, rfl⟩

theorem OffPath.trans {s t u : State} (h : OffPath s t) (g : OffPath t u) : OffPath s u :=
  ⟨g.station.trans h.station, g.line.trans h.line, g.state.trans h.state, g.collisions.trans h.collisions, g.flight.trans h.flight⟩

theorem OffPath.keeps {s t : State} (h : OffPath s t) (hs : PathOf s) : PathOf t := by
  rw [PathOf, h.station, h.line, h.state, h.collisions, h.flight]
  exact hs

/-- Work on the circuits is off the path. -/
theorem offPath_of_served {s t : State} (honly : CircuitsOnly s t)
    (h : flight t = flight s) : OffPath s t :=
  ⟨honly.station, honly.line, by rw [honly.arbiter], by rw [honly.arbiter], h⟩

theorem offPath_of_noticeOnly {s t : State} (h : NoticeOnly s t) : OffPath s t :=
  ⟨h.station, h.line, by rw [h.arbiter], by rw [h.arbiter], flight_of_inFlight (by rw [h.selector])⟩

/-- The terms that work which asks for none may be done under. -/
abbrev anyTerms : Terms := ⟨fun _ => True, False, False, False, True⟩

theorem raise_offPath (s : State) (p : NoticePair) : OffPath s (s.raise p) := offPath_of_noticeOnly (raise_only s p)

theorem poke_offPath (s : State) (a : Nat) (v : Byte) : OffPath s (s.poke a v) := ⟨rfl, rfl, rfl, rfl, rfl⟩

theorem pokeHalf_offPath (s : State) (a : Nat) (v : Half) : OffPath s (s.pokeHalf a v) := (poke_offPath _ _ _).trans (poke_offPath _ _ _)

theorem quality_offPath (s : State) (q : Quality) : OffPath s { s with quality := q } := ⟨rfl, rfl, rfl, rfl, rfl⟩

theorem countGood_offPath (s : State) : OffPath s s.countGood := (quality_offPath s _).trans (pokeHalf_offPath _ _ _)

theorem countMalformed_offPath (s : State) : OffPath s s.countMalformed := (quality_offPath s _).trans (pokeHalf_offPath _ _ _)

theorem countDamaged_offPath (s : State) : OffPath s s.countDamaged :=
  ((quality_offPath s _).trans (pokeHalf_offPath _ _ _)).trans (pokeHalf_offPath _ _ _)

theorem countSent_offPath (s : State) : OffPath s s.countSent := (quality_offPath s _).trans (pokeHalf_offPath _ _ _)

theorem countCollision_offPath (s : State) : OffPath s s.countCollision :=
  ((quality_offPath s _).trans (pokeHalf_offPath _ _ _)).trans (pokeHalf_offPath _ _ _)

theorem clearWindowCounts_offPath (s : State) : OffPath s s.clearWindowCounts :=
  ((quality_offPath s _).trans (pokeHalf_offPath _ _ _)).trans (pokeHalf_offPath _ _ _)

theorem setMutedSeen_offPath (s : State) : OffPath s s.setMutedSeen := (quality_offPath s _).trans (pokeHalf_offPath _ _ _)

theorem setFullNext_offPath (s : State) : OffPath s s.setFullNext := ⟨rfl, rfl, rfl, rfl, rfl⟩

theorem oweRoll_offPath (s : State) : OffPath s s.oweRoll := ⟨rfl, rfl, rfl, rfl, rfl⟩

theorem stickyRead_offPath (s : State) (be1 be0 : Bool) : OffPath s (s.stickyRead be1 be0) := by
  have hbus (b : HostBus) : OffPath s { s with bus := b } := ⟨rfl, rfl, rfl, rfl, rfl⟩
  unfold State.stickyRead
  split
  · exact hbus _
  · dsimp only
    split
    · exact (hbus _).trans ((quality_offPath _ _).trans (pokeHalf_offPath _ _ _))
    · exact hbus _

theorem changeLevel_offPath (s : State) (level : Level) : OffPath s (s.changeLevel level) := by
  have hlevel : OffPath s (({ s with quality.level := level } : State).poke offLevel level.code) :=
    (quality_offPath s _).trans (poke_offPath _ _ _)
  have hflag (t : State) (q : Quality) : OffPath t (({ t with quality := q } : State).showSticky.raise (.station .quality)) :=
    ((quality_offPath t q).trans (pokeHalf_offPath _ _ _)).trans (raise_offPath _ _)
  unfold State.changeLevel
  cases level with
  | good => exact hlevel.trans (hflag _ _)
  | poor => exact hlevel.trans (hflag _ _)

theorem endWindow_offPath (s : State) (p : QualityParams) : OffPath s (s.endWindow p) := by
  have hrest (t : State) : OffPath t ({ t with quality.windowTimer := some 0 } : State).clearWindowCounts :=
    (quality_offPath t _).trans (clearWindowCounts_offPath _)
  unfold State.endWindow
  dsimp only
  split
  · exact hrest s
  · exact (changeLevel_offPath s _).trans (hrest _)

theorem roster_offPath (s : State) (r : Roster) : OffPath s { s with roster := r } := ⟨rfl, rfl, rfl, rfl, rfl⟩

theorem writeMirror_offPath (s : State) (a : Address) : OffPath s (s.writeMirror a) := by
  rw [writeMirror_frame]
  exact ⟨rfl, rfl, rfl, rfl, rfl⟩

theorem markPresent_offPath (s : State) (a : Address) : OffPath s (s.markPresent a) :=
  ((roster_offPath s _).trans (writeMirror_offPath _ a)).trans (raise_offPath _ _)

theorem rosterSource_offPath (s : State) (a : Address) : OffPath s (s.rosterSource a) := by
  unfold State.rosterSource
  split
  · exact .refl s
  · split
    · exact roster_offPath s _
    · exact (setFullNext_offPath s).trans (markPresent_offPath _ a)

theorem examineRoll_offPath (s : State) (f : Frame) : OffPath s (s.examineRoll f) := by
  unfold State.examineRoll
  split
  · exact oweRoll_offPath s
  · exact .refl s

theorem loseAbsent_offPath (s : State) (a : Address) : OffPath s (s.loseAbsent a) :=
  offPath_of_served (loseAbsent_only s a) (loseAbsent_served (w := anyTerms) s a).flight

theorem removePeer_offPath (s : State) (a : Address) : OffPath s (s.removePeer a) := by
  rw [removePeer_eq, removed]
  have hroster : OffPath s { s.setFullNext with roster := s.roster.setEntry a RosterEntry.absent } := ⟨rfl, rfl, rfl, rfl, rfl⟩
  exact ((hroster.trans (writeMirror_offPath _ a)).trans (raise_offPath _ _)).trans (loseAbsent_offPath _ a)

theorem disowned_offPath (s : State) : OffPath s (disowned s) := by
  have hcircuits : OffPath s (s.eachCircuit fun c s => (s.clearAckPoll c).clearControl c) :=
    offPath_of_served (eachCircuit_only _ (fun c s => ((clearAckPoll_only s c).trans (clearControl_only _ c)).rest) s)
      (eachCircuit_served (w := anyTerms) _ (fun c s => (clearAckPoll_served s c).trans (clearControl_served _ c)) s).flight
  have hlists (t : State) : OffPath t { t with selector.rollOwed := false, orphans.entries := [] } := ⟨rfl, rfl, rfl, rfl, rfl⟩
  exact hcircuits.trans (hlists _)

theorem loseAll_offPath (s : State) (cause : EndCause) : OffPath s (s.loseAll cause) :=
  offPath_of_served (loseAll_only s cause) (loseAll_served (w := anyTerms) s cause).flight

theorem tableFrame_offPath (s : State) (k : Kind) (f : Frame) : OffPath s (s.tableFrame k f) :=
  offPath_of_served (tableFrame_only s k f)
    (tableFrame_served (w := anyTerms) s k f nofun fun _ _ _ _ => trivial).flight

theorem chooseData_offPath (s : State) : OffPath s s.choose.1 :=
  offPath_of_served (choose_only s) (choose_flight s)
where
  scan_flight (wants : Circuit → Option Seq) (use : Seq → FrameUse) (l : List CircuitNo) (s : State) :
      flight (s.scanData wants use l).1 = flight s := (scanData_served (w := anyTerms) wants use l s).flight
  choose_flight (s : State) : flight s.choose.1 = flight s := by
    unfold State.choose
    split
    · rfl
    · split
      · rfl
      · have hresend := scan_flight Circuit.wantsResend .resend allCircuits s
        obtain ⟨t, f, h, heq⟩ | ⟨t, h, ⟨u, f, hu, heq⟩ | ⟨u, hu, heq⟩⟩ := chooseData_cases s <;> rw [heq] <;> rw [h] at hresend
        · exact hresend
        all_goals
          have hnew := scan_flight Circuit.wantsNew (fun _ => .newData) t.rotationOrder t
          rw [hu] at hnew
          exact hnew.trans hresend
    all_goals rfl

theorem ownerCollided_offPath (s : State) (f : FlightFrame) : OffPath s (s.ownerCollided f) :=
  offPath_of_served (ownerCollided_only s f) (ownerCollided_served (w := anyTerms) s f).flight

theorem ownerSent_offPath (s : State) (f : FlightFrame) : OffPath s (s.ownerSent f) := by
  have horphans (l : List Orphan) : OffPath s { s with orphans.entries := l } := ⟨rfl, rfl, rfl, rfl, rfl⟩
  cases h : f.owner with
  | roster => rw [State.ownerSent, h]; exact .refl s
  | orphanList => rw [State.ownerSent, h]; exact horphans _
  | circuit c life =>
    have hpointer : OffPath s (pointerMoved s c f) := by
      rw [pointerMoved_eq]
      exact ⟨rfl, rfl, rfl, rfl, rfl⟩
    rw [ownerSent_circuit s h]
    split
    · exact hpointer
    · exact hpointer.trans (offPath_of_served (circuitSent_only _ c f).rest
        (circuitSent_served (w := anyTerms) _ c f id nofun).flight)

theorem pokeEach_offPath (bytes : List (Nat × Byte)) (s : State) : OffPath s (s.pokeEach bytes) := by
  induction bytes generalizing s with
  | nil => exact .refl s
  | cons b rest ih => exact (poke_offPath s _ _).trans (ih _)

theorem arrive_offPath (s : State) (bytes : List (Nat × Byte)) : OffPath s (s.arrive bytes) := by
  unfold State.arrive
  split
  · exact pokeEach_offPath bytes s
  · exact ⟨rfl, rfl, rfl, rfl, rfl⟩

theorem landLater_offPath (s : State) : OffPath s s.landLater := by
  have hlanded (l : List (List (Nat × Byte))) (u : State) : OffPath u (l.foldl State.pokeEach u) := by
    induction l generalizing u with
    | nil => exact .refl u
    | cons bytes rest ih => exact (pokeEach_offPath bytes u).trans (ih _)
  unfold State.landLater
  dsimp only
  split
  · exact (hlanded _ s).trans ⟨rfl, rfl, rfl, rfl, rfl⟩
  · exact .refl s

theorem writeBackControl_offPath (s : State) : OffPath s s.writeBackControl := by
  unfold State.writeBackControl
  split
  · exact .refl s
  · exact poke_offPath _ _ _

theorem writeFields_offPath (ws : List FieldWrite) (s : State) : OffPath s (s.writeFields ws) := by
  rw [State.writeFields]
  induction ws generalizing s with
  | nil => exact .refl s
  | cons w rest ih =>
    rw [List.foldl_cons]
    refine OffPath.trans ?_ (ih _)
    cases w with
    | byte off v => exact poke_offPath s off v
    | half off v => exact pokeHalf_offPath s off v

theorem layAllRings_offPath (l : List CircuitNo) (codes s : State) (base : Half) : OffPath s (s.layAllRings codes base l) := by
  induction l generalizing s base with
  | nil => exact .refl s
  | cons c rest ih =>
    rw [layAllRings_cons]
    refine .trans (offPath_of_served (layRings_only s c base _ _).rest (flight_of_inFlight ?_)) (ih _ _)
    simp [State.layRings]

theorem writeRefusal_offPath (s : State) (id circuit kind : Byte) (outcome : RefusalOutcome) :
    OffPath s (s.writeRefusal id circuit kind outcome) := by
  rw [writeRefusal_eq]
  exact ⟨rfl, rfl, rfl, rfl, rfl⟩

theorem takeRequestPost_offPath (s : State) (v : Byte) : OffPath s (s.takeRequestPost v) := by
  unfold State.takeRequestPost
  dsimp only
  split
  · exact ⟨rfl, rfl, rfl, rfl, rfl⟩
  · exact (writeRefusal_offPath s _ _ _ _).trans (raise_offPath _ _)

theorem advanceTake_offPath (s : State) : OffPath s s.advanceTake := by
  have hrequests : OffPath s { s with requests.take := s.requests.take + 1 } := ⟨rfl, rfl, rfl, rfl, rfl⟩
  exact hrequests.trans (poke_offPath _ _ _)

theorem takeIf_offPath (s : State) (kind : Option RequestKind) : OffPath s (s.takeIf kind) := by
  unfold State.takeIf
  split
  · unfold State.takeRequest
    dsimp only
    split
    · exact ((writeRefusal_offPath s _ _ _ _).trans (advanceTake_offPath _)).trans (raise_offPath _ _)
    · next hvalid =>
      exact ((offPath_of_served (actOn_only s _).rest
        (actOn_served (w := anyTerms) s _ hvalid trivial fun _ => trivial).flight).trans (advanceTake_offPath _)).trans
        (offPath_of_noticeOnly (raiseOption_only _ _))
  · exact .refl s

end Sys2Proof.Proofs
end

section
namespace Sys2Proof.Proofs

open Sys2Proof Sys2Proof.Machine Sys2Proof.Claims Sys2Proof.Safety Sys2Proof.Laws

/-! ## Rounds and received frames on the path -/

/-- A frame end ends BUSY with a round, and leaves the rest of the path alone (R37). -/
theorem frameEnd_path (s : State) (source : Option Address) : (s.frameEnd source).station = s.station ∧
    (s.frameEnd source).line = s.line ∧ flight (s.frameEnd source) = flight s ∧
    (s.frameEnd source).arbiter.collisions = s.arbiter.collisions ∧
    (s.frameEnd source).arbiter.state = if s.arbiter.state = .busy then .round else s.arbiter.state := by
  unfold State.frameEnd
  split <;> exact ⟨rfl, rfl, rfl, rfl, rfl⟩

/-- RESET is high and no start pass runs outside RESET (R173). -/
theorem PathOk.started {st : Station} {l : Line} {a : ArbiterState} {n : Nat} {f : Option FlightFrame} (h : PathOk st l a n f)
    (hst : st.state ≠ .reset) : st.startPass = none ∧ st.resetLow = false := by
  refine ⟨Option.not_isSome_iff_eq_none.mp fun hp => hst (h.startPass hp), Bool.eq_false_iff.mpr fun hr => hst (h.resetLow hr).1⟩

theorem ne_reset_of_receives {st : StationState} (h : st.receives = true) : st ≠ .reset := by
  rintro rfl
  cases h

/-- The line is heard where it is not OFF (R3). -/
theorem PathOk.receives {st : Station} {l : Line} {a : ArbiterState} {n : Nat} {f : Option FlightFrame} (h : PathOk st l a n f)
    (hl : l.state ≠ .off) : st.state.receives = true := by
  by_contra hr
  exact hl (h.off.mpr (Bool.eq_false_iff.mpr hr))

/-- A line with no own frame on it has none in flight (R16). -/
theorem PathOk.noFrame {st : Station} {l : Line} {a : ArbiterState} {n : Nat} {f : Option FlightFrame} (h : PathOk st l a n f)
    (hl : ownFrame l.state = false) : f = none := by
  have := h.inFlight
  rw [hl] at this
  exact Option.not_isSome_iff_eq_none.mp (by rw [this]; decide)

/-- The line goes idle, no own frame on it, and a round begins. -/
theorem PathOk.round {st : Station} {l : Line} {a : ArbiterState} {n : Nat} {f : Option FlightFrame} (h : PathOk st l a n f)
    (hl : l.state ≠ .off) {l' : Line} (hidle : l'.state = .idle) (hrx : l'.rxEnable = l.rxEnable) (htx : l'.txEnable = l.txEnable)
    (htxen : l'.txen = false) (htxd : l'.txd = true) (hquiet : st.loop = true → 20 ≤ l'.quiet) {m : Nat} (hm : m ≤ 16)
    (hactive : st.state = .active → m < 16) : PathOk st l' .round m none where
  rxEnable := hrx.trans h.rxEnable
  txEnable := htx.trans h.txEnable
  off := by simp [hidle, h.receives hl]
  arbiter := by rw [hidle]; rfl
  inFlight := by rw [hidle]; rfl
  transmits hown := by rw [hidle] at hown; cases hown
  joining _ f hf := by cases hf
  loop _ := by simp [hidle]
  loopQuiet hloop _ := hquiet hloop
  txen := by simp [htxen, hidle]
  txd _ := htxd
  collisions := hm
  active := hactive
  joinTimer := h.joinTimer
  muteTimer := h.muteTimer
  resetLow := h.resetLow
  startPass := h.startPass

/-- After the frame heard has been handed on off the path, its end begins a round (R37, R38). -/
theorem heardEnd_path {s v : State} (hs : PathOf s) (hline : s.line.state = .hearing) {truncated : Bool} {bytes : List Byte}
    (h : OffPath (stored s truncated bytes) v) (source : Option Address) : PathOf (v.frameEnd source) := by
  obtain ⟨hst, hl, hflight, hcoll, harb⟩ := frameEnd_path v source
  have hbusy : v.arbiter.state = .busy := by
    rw [h.state, show (stored s truncated bytes).arbiter = s.arbiter from rfl, hs.arbiter, hline]
    rfl
  have hnone : flight v = none := h.flight.trans (hs.noFrame (by rw [hline]; rfl))
  rw [PathOf, hst, hl, hflight, hcoll, harb, if_pos hbusy, hnone, h.station, h.line, h.collisions]
  refine hs.round (l' := (stored s truncated bytes).line) (by rw [hline]; nofun) rfl rfl rfl ?_ ?_ (fun hloop => absurd hline (hs.loop hloop).1) hs.collisions hs.active
  · show s.line.txen = false
    simp [hs.txen, hline]
  · exact hs.txd (by simp [hs.txen, hline])

/-! ## Entries to station states on the path -/

/-- The path after the last steps of a change of state. -/
theorem pathOf_enterState {u : State} {st : StationState}
    (h : PathOk { u.station with state := st } u.line u.arbiter.state u.arbiter.collisions (flight u)) : PathOf (u.enterState st) := by
  have hoff : OffPath ({ u with station.state := st } : State) (u.enterState st) := (poke_offPath _ _ _).trans (raise_offPath _ _)
  exact hoff.keeps h

theorem haltedCircuits_line (s : State) : (haltedCircuits s).line = s.line.off := by
  rw [haltedCircuits, (loseAll_offPath _ .lostHalted).line, (disowned_offPath _).line]

theorem haltedBlocks_path (s : State) : (haltedBlocks s).station = s.station ∧ (haltedBlocks s).line = s.line.off ∧
    (haltedBlocks s).arbiter.state = .off ∧ (haltedBlocks s).arbiter.collisions = 0 := by
  have hst := haltedCircuits_station s
  have hline := haltedCircuits_line s
  rw [haltedBlocks, (clearWindowCounts_offPath _).station, (clearWindowCounts_offPath _).line, (clearWindowCounts_offPath _).state,
    (clearWindowCounts_offPath _).collisions]
  generalize haltedCircuits s = u at *
  exact ⟨hst, hline, rfl, rfl⟩

/-- A station off the line, with no frame in flight and no timer running (R3, R19). -/
theorem PathOk.ofOff {st : Station} {l : Line} (hst : st.state = .halted ∨ st.state = .config) (hrx : l.rxEnable = false)
    (htx : l.txEnable = false) (hl : l.state = .off) (htxen : l.txen = false) (htxd : l.txd = true)
    (hjoin : st.joinTimer = none) (hmute : st.muteTimer = none) (hpass : st.startPass = none) (hlow : st.resetLow = false) :
    PathOk st l .off 0 none where
  rxEnable := by rcases hst with h | h <;> rw [h, hrx] <;> rfl
  txEnable := by rcases hst with h | h <;> rw [h, htx] <;> rfl
  off := ⟨fun _ => by rcases hst with h | h <;> rw [h] <;> rfl, fun _ => hl⟩
  arbiter := by rw [hl]; rfl
  inFlight := by rw [hl]; rfl
  transmits hown := by rw [hl] at hown; cases hown
  joining _ f hf := by cases hf
  loop _ := by simp [hl]
  loopQuiet _ hidle := by rw [hl] at hidle; cases hidle
  txen := by simp [htxen, hl]
  txd _ := htxd
  collisions := Nat.zero_le _
  active hactive := by rcases hst with h | h <;> rw [h] at hactive <;> cases hactive
  joinTimer h := by rw [hjoin] at h; cases h
  muteTimer h := by rw [hmute] at h; cases h
  resetLow h := by rw [hlow] at h; cases h
  startPass h := by rw [hpass] at h; cases h

/-- HALTED is off the line, with no frame in flight and no timer of the station running (R180). -/
theorem enterHaltedState_path {s : State} (hstarted : s.station.startPass = none ∧ s.station.resetLow = false) :
    PathOf s.enterHaltedState := by
  obtain ⟨hst, hline, harb, hcoll⟩ := haltedBlocks_path s
  obtain ⟨-, hselector, -⟩ := haltedBlocks_fields s
  have hnone : flight (haltedBlocks s) = none := by rw [flight, hselector, haltedCircuits_flight]; rfl
  rw [enterHaltedState_eq]
  generalize haltedBlocks s = u at *
  refine pathOf_enterState ?_
  show PathOk { u.station with joinTimer := none, muteTimer := none, haltCause := .duplicateAddress, state := .halted } u.line
    u.arbiter.state u.arbiter.collisions (flight u)
  rw [hst, hline, harb, hcoll, hnone]
  exact .ofOff (.inl rfl) rfl rfl rfl rfl rfl rfl rfl hstarted.1 hstarted.2

theorem mutedCircuits_offPath (s : State) :
    OffPath { s with line.txEnable := false, line.txen := false } (mutedCircuits s) :=
  (disowned_offPath _).trans (loseAll_offPath _ .lostMuted)

/-- MUTED, entered from ACTIVE with no own frame on the line: the driver is released, and nothing is driven (R49, R179). -/
theorem enterMutedState_path {s : State} {m : Nat} (h : PathOk s.station s.line s.arbiter.state m (flight s))
    (hactive : s.station.state = .active) (hown : ownFrame s.line.state = false) : PathOf s.enterMutedState := by
  have hcircuits : OffPath { s with line.txEnable := false, line.txen := false } (mutedCircuits s).setMutedSeen :=
    (mutedCircuits_offPath s).trans (setMutedSeen_offPath _)
  have hst : (mutedCircuits s).setMutedSeen.station = s.station := hcircuits.station
  have hline : (mutedCircuits s).setMutedSeen.line = { s.line with txEnable := false, txen := false } := hcircuits.line
  have harb : (mutedCircuits s).setMutedSeen.arbiter.state = s.arbiter.state := hcircuits.state
  have hflight : flight (mutedCircuits s).setMutedSeen = flight s := hcircuits.flight
  have htxen : s.line.txen = false := by
    rw [h.txen]
    cases hl : s.line.state <;> first | rfl | (rw [hl] at hown; cases hown)
  obtain ⟨hpass, hlow⟩ := h.started (by rw [hactive]; decide)
  rw [enterMutedState_eq]
  generalize (mutedCircuits s).setMutedSeen = u at *
  refine pathOf_enterState ?_
  show PathOk { u.station with muteTimer := some 0, state := .muted } u.line u.arbiter.state 0 (flight u)
  rw [hst, hline, harb, hflight]
  exact {
    rxEnable := by rw [h.rxEnable, hactive]; rfl
    txEnable := rfl
    off := by rw [h.off, hactive]; rfl
    arbiter := h.arbiter
    inFlight := h.inFlight
    transmits := fun ht => by rw [hown] at ht; cases ht
    joining := fun hj => by cases hj
    loop := h.loop
    loopQuiet := h.loopQuiet
    txen := by rw [← htxen, h.txen]
    txd := fun _ => h.txd htxen
    collisions := Nat.zero_le _
    active := fun ha => by cases ha
    joinTimer := fun hj => by rw [h.joinTimer hj] at hactive; cases hactive
    muteTimer := fun _ => rfl
    resetLow := fun hr => by rw [show s.station.resetLow = true from hr] at hlow; cases hlow
    startPass := fun hp => by rw [hpass] at hp; cases hp }

end Sys2Proof.Proofs
end

section
namespace Sys2Proof.Proofs

open Sys2Proof Sys2Proof.Machine Sys2Proof.Claims Sys2Proof.Safety Sys2Proof.Laws

/-! ## Received frames -/

theorem malformedEnd_path {s : State} (hs : PathOf s) (hline : s.line.state = .hearing) (truncated : Bool) (bytes : List Byte)
    (source : Address) : PathOf ((stored s truncated bytes).malformedEnd source) := by
  have hcounted := countMalformed_offPath (stored s truncated bytes)
  unfold State.malformedEnd
  dsimp only
  split
  · refine enterHaltedState_path ?_
    rw [frameEnd_station, hcounted.station]
    exact hs.started (ne_reset_of_receives (hs.receives (by rw [hline]; nofun)))
  · exact heardEnd_path hs hline (hcounted.trans (rosterSource_offPath _ source)) _

theorem duplicateEnd_path {s : State} (h : s.station.startPass = none ∧ s.station.resetLow = false) (k : Kind) (f : Frame) :
    PathOf (s.duplicateEnd k f) := by
  have hst : ({ s.frameEnd (some f.src) with choices := s.choices + 1 } : State).station = s.station := frameEnd_station s _
  unfold State.duplicateEnd
  dsimp only
  generalize ({ s.frameEnd (some f.src) with choices := s.choices + 1 } : State) = u at *
  split
  · refine enterHaltedState_path ?_
    rwa [(tableFrame_offPath u k f).station, hst]
  · exact (tableFrame_offPath _ k f).keeps (enterHaltedState_path (by rwa [hst]))

theorem goodEnd_path {s : State} (hs : PathOf s) (hline : s.line.state = .hearing) (truncated : Bool) (bytes : List Byte)
    (k : Kind) (f : Frame) : PathOf ((stored s truncated bytes).goodEnd k f) := by
  have hcounted := countGood_offPath (stored s truncated bytes)
  unfold State.goodEnd
  dsimp only
  split
  · refine duplicateEnd_path ?_ k f
    rw [hcounted.station]
    exact hs.started (ne_reset_of_receives (hs.receives (by rw [hline]; nofun)))
  · refine heardEnd_path hs hline ((hcounted.trans (rosterSource_offPath _ f.src)).trans (.trans ?_ (tableFrame_offPath _ k f))) _
    split
    · exact examineRoll_offPath _ f
    · exact .refl _

theorem hear_path {s : State} (hs : PathOf s) (truncated : Bool) (bytes : List Byte) : PathOf (s.hear truncated bytes) := by
  by_cases hline : s.line.state = .hearing
  · obtain ⟨-, heq⟩ | ⟨source, -, heq⟩ | ⟨k, f, -, heq⟩ := hear_cases hline truncated bytes <;> rw [heq]
    · exact heardEnd_path hs hline ((countDamaged_offPath _).trans (setFullNext_offPath _)) none
    · exact malformedEnd_path hs hline truncated bytes source
    · exact goodEnd_path hs hline truncated bytes k f
  · rw [State.hear, if_neg hline]
    exact hs

/-! ## The line -/

theorem lineSettled_path {s : State} (hs : PathOf s) : PathOf s.lineSettled := by
  unfold State.lineSettled
  split
  · next h =>
    have hwaiting : s.arbiter.state = .waiting := by rw [hs.arbiter, h.1]; rfl
    have htxen : s.line.txen = false := by simp [hs.txen, h.1]
    dsimp only
    rw [if_pos hwaiting]
    show PathOk s.station { s.line with state := .idle } .round s.arbiter.collisions (flight s)
    rw [hs.noFrame (by rw [h.1]; rfl)]
    exact hs.round (l' := { s.line with state := .idle }) (by rw [h.1]; nofun) rfl rfl rfl htxen (hs.txd htxen) (fun _ => h.2) hs.collisions hs.active
  · exact hs

/-- Outside loop test the quiet measure is free (R2). -/
theorem PathOk.quiet {st : Station} {l : Line} {a : ArbiterState} {n : Nat} {f : Option FlightFrame} (h : PathOk st l a n f)
    (hloop : st.loop = false) (q : Nat) : PathOk st { l with quiet := q } a n f :=
  { h with loopQuiet := fun ht => by rw [hloop] at ht; cases ht }

theorem lineBusy_path {s : State} (hs : PathOf s) : PathOf s.lineBusy := by
  unfold State.lineBusy
  split
  · exact hs
  · next hloop =>
    have hloop' : s.station.loop = false := Bool.eq_false_iff.mpr hloop
    split
    · next hidle =>
      have hround : s.arbiter.state = .round := by rw [hs.arbiter, hidle]; rfl
      have htxen : s.line.txen = false := by simp [hs.txen, hidle]
      have hreceives := hs.receives (by rw [hidle]; nofun)
      have hnone := hs.noFrame (by rw [hidle]; rfl)
      rw [State.lineBusyToArbiter, if_pos hround]
      show PathOk s.station { s.line with state := .hearing, quiet := 0, rxBuffer := [], rxCount := 0, rxCheck := checkStart } .busy
        s.arbiter.collisions (flight s)
      rw [hnone]
      exact { hs with
        off := by simp [hreceives]
        arbiter := rfl
        inFlight := rfl
        transmits := nofun
        joining := fun _ f hf => by cases hf
        loop := fun ht => by rw [hloop'] at ht; cases ht
        loopQuiet := fun ht => by rw [hloop'] at ht; cases ht
        txen := by simp [htxen] }
    · exact hs
    all_goals exact hs.quiet hloop' 0

theorem collisionDetected_path {s : State} (hs : PathOf s) : PathOf s.collisionDetected := by
  unfold State.collisionDetected
  split
  · next h =>
    exact { hs with
      off := by simp [hs.receives (by rw [h.1]; nofun)]
      arbiter := by
        have := hs.arbiter
        rw [h.1] at this
        exact this
      inFlight := by
        have := hs.inFlight
        rw [h.1] at this
        exact this
      transmits := fun _ => hs.transmits (by rw [h.1]; rfl)
      loop := fun ht => by rw [h.2] at ht; cases ht
      loopQuiet := fun ht => by rw [h.2] at ht; cases ht
      txen := rfl
      txd := fun _ => rfl }
  · exact hs

/-! ## Turns and reports -/

theorem startFrame_path {s : State} (hs : PathOf s) {f : FlightFrame} (hf : Chosen s f) : PathOf (s.startFrame f) := by
  unfold State.startFrame
  split
  · next h =>
    obtain ⟨hidle, htx⟩ := h
    have honly := discharge_only s f
    have hround : s.arbiter.state = .round := by rw [hs.arbiter, hidle]; rfl
    have hreceives := hs.receives (by rw [hidle]; nofun)
    dsimp only
    rw [State.lineBusyToArbiter, if_pos (by rw [honly.arbiter]; exact hround)]
    show PathOk (s.discharge f).station { (s.discharge f).line with
        state := .sending
        quiet := 0
        driven := [s.bodyByte f 0]
        txBit := 0
        txCheck := checkByte checkStart (s.bodyByte f 0)
        txen := !s.station.loop
        txd := s.station.loop } .busy (s.discharge f).arbiter.collisions (some (undischarged f))
    rw [honly.station, honly.line, honly.arbiter]
    exact { hs with
      off := by simp [hreceives]
      arbiter := rfl
      inFlight := rfl
      transmits := fun _ => by rw [← hs.txEnable, htx]
      joining := fun hj g hg => by
        cases hg
        exact hf.joining hj
      loop := fun _ => ⟨nofun, nofun⟩
      loopQuiet := fun _ => nofun
      txen := by simp
      txd := fun ht => by simpa using ht }
  · exact hs

theorem makeTurn_path {s : State} (hs : PathOf s) : PathOf s.makeTurn := by
  have hmade : PathOf { s with arbiter.turnMade := true } := hs
  unfold State.makeTurn
  dsimp only
  split
  · have hchoose := (chooseData_offPath { s with arbiter.turnMade := true }).keeps hmade
    split
    · next t f h =>
      rw [h] at hchoose
      exact startFrame_path hchoose (choose_chosen h)
    · next t h =>
      rw [h] at hchoose
      exact hchoose
  · exact hmade

/-- The quiet measure of a line that loop test finds quiet after an own frame (R18). -/
theorem quietAfterSent_loop (s : State) (h : s.station.loop = true) : 20 ≤ s.quietAfterSent := by
  rw [State.quietAfterSent, if_pos h]
  exact le_rfl

theorem ownFrameSent_offPath (s : State) : OffPath s s.ownFrameSent := ⟨rfl, rfl, rfl, rfl, rfl⟩

theorem reportSent_path {s : State} (hs : PathOf s) (hline : s.line.state = .sending) (f : FlightFrame) : PathOf (s.reportSent f) := by
  have howner : OffPath (sentIdle s) (sentOwner s f) :=
    ((countSent_offPath _).trans (ownFrameSent_offPath _)).trans (ownerSent_offPath _ f)
  have hbusy : (sentIdle s).arbiter.state = .busy := hs.arbiter.trans (by rw [hline]; rfl)
  have hround : PathOk s.station (s.line.afterOwnFrame s.quietAfterSent) .round 0 none :=
    hs.round (l' := s.line.afterOwnFrame s.quietAfterSent) (by rw [hline]; nofun) rfl rfl rfl rfl rfl (quietAfterSent_loop s) (Nat.zero_le _) fun _ => by decide
  obtain ⟨hst, hl, hflight, hcoll, harb⟩ := frameEnd_path (sentStation s f) (some (sentStation s f).station.address)
  rw [PathOf, reportSent_station, reportSent_eq, hl, hflight, hcoll, harb, sentStation, sentOwner_station]
  by_cases h : f.use = .roll ∧ s.station.state = .joining
  · have hactive := h.2
    have hentered : OffPath ({ sentOwner s f with arbiter.collisions := 0, station.joinTimer := none, station.state := .active } : State)
        (sentOwner s f).enterActive := (poke_offPath _ _ _).trans (raise_offPath _ _)
    rw [if_pos h, if_pos h, hentered.line, hentered.flight, hentered.collisions, hentered.state]
    show PathOk { s.station with state := .active, joinTimer := none } (sentOwner s f).line
      (if (sentOwner s f).arbiter.state = .busy then .round else (sentOwner s f).arbiter.state) 0 (flight (sentOwner s f))
    rw [howner.line, howner.flight, howner.state, if_pos hbusy]
    exact { hround with
      rxEnable := hround.rxEnable.trans (by rw [hactive]; rfl)
      txEnable := hround.txEnable.trans (by rw [hactive]; rfl)
      off := ⟨fun ht => (by cases ht), fun ht => (by cases ht)⟩
      transmits := fun ht => by cases ht
      joining := fun hj => by cases hj
      active := fun _ => by decide
      joinTimer := fun hj => by cases hj
      muteTimer := fun hm => by rw [hs.muteTimer hm] at hactive; cases hactive
      resetLow := fun hr => by rw [(hs.resetLow hr).1] at hactive; cases hactive
      startPass := fun hp => by rw [hs.startPass hp] at hactive; cases hactive }
  · rw [if_neg h, if_neg h, howner.line, howner.flight, howner.state, howner.collisions, if_pos hbusy]
    exact hround

theorem loopedCopy_path {s : State} (hs : PathOf s) (bytes : List Byte) : PathOf (s.loopedCopy bytes) := by
  have hline : PathOf { s with
      line.rxBuffer := bytes.take Config.frameRoom
      line.rxCount := bytes.length
      line.rxCheck := checkOf (bytes.take (bytes.length - 2)) } := { hs with }
  unfold State.loopedCopy
  dsimp only
  split
  · exact ((countGood_offPath _).trans (tableFrame_offPath _ _ _)).keeps hline
  · exact (countMalformed_offPath _).keeps hline
  · exact (countDamaged_offPath _).keeps hline

theorem frameSent_path {s : State} (hs : PathOf s) : PathOf s.frameSent := by
  unfold State.frameSent
  split
  · next f hline _ =>
    dsimp only
    split
    · exact loopedCopy_path (reportSent_path hs hline f) _
    · exact reportSent_path hs hline f
  · exact hs

theorem muteIfDue_path {s : State} {m : Nat} (hs : PathOk s.station s.line s.arbiter.state m (flight s)) (hm : s.arbiter.collisions ≤ 16)
    (hown : ownFrame s.line.state = false) : PathOf s.muteIfDue := by
  unfold State.muteIfDue
  split
  · next h => exact enterMutedState_path hs h.1 hown
  · next h =>
    refine { hs with collisions := hm, active := fun hactive => ?_ }
    have : s.arbiter.collisions ≠ 16 := fun heq => h ⟨hactive, heq⟩
    omega

theorem frameCollided_path {s : State} (hs : PathOf s) : PathOf s.frameCollided := by
  cases hline : s.line.state with
  | stopped =>
    cases hf : s.selector.inFlight with
    | none =>
      rw [State.frameCollided, hline, hf]
      exact hs
    | some f =>
      rw [frameCollided_eq hline hf]
      have hloop (ht : s.station.loop = true) : False := (hs.loop ht).2 hline
      have hround : PathOk s.station (s.line.afterOwnFrame s.quietAfterCollision) .round 0 none :=
        hs.round (l' := s.line.afterOwnFrame s.quietAfterCollision) (by rw [hline]; nofun) rfl rfl rfl rfl rfl (fun ht => (hloop ht).elim) (Nat.zero_le _) fun _ => by decide
      have hbusy : s.arbiter.state = .busy := by rw [hs.arbiter, hline]; rfl
      have hoff (u : State) : OffPath u ((u.countCollision.ownerCollided f).setFullNext) :=
        ((countCollision_offPath u).trans (ownerCollided_offPath _ f)).trans (setFullNext_offPath _)
      generalize hu : ({ s with
          line := s.line.afterOwnFrame s.quietAfterCollision
          selector.inFlight := none
          arbiter.collisions := min Config.muteCollisions (s.arbiter.collisions + 1) } : State) = u
      have huline : u.line = s.line.afterOwnFrame s.quietAfterCollision := by rw [← hu]
      have hustation : u.station = s.station := by rw [← hu]
      have huarb : u.arbiter.state = .busy := by rw [← hu]; exact hbusy
      have huflight : flight u = none := by rw [← hu]; rfl
      have hucoll : u.arbiter.collisions ≤ 16 := by rw [← hu]; exact Nat.min_le_left _ _
      obtain ⟨hst, hl, hflight, hcoll, harb⟩ := frameEnd_path ((u.countCollision.ownerCollided f).setFullNext) none
      refine muteIfDue_path (m := 0) ?_ ?_ ?_
      · rw [hst, hl, hflight, harb, (hoff u).station, (hoff u).line, (hoff u).flight, (hoff u).state, huline, hustation, huarb, huflight]
        exact hround
      · rwa [hcoll, (hoff u).collisions]
      · rw [hl, (hoff u).line, huline]
        rfl
  | off | settling | idle | hearing | sending =>
    rw [State.frameCollided, hline]
    exact hs

theorem enterMuted_path {s : State} (hs : PathOf s) : PathOf s.muteIfDue := by
  unfold State.muteIfDue
  split
  · next h =>
    exact absurd (hs.active h.1) (by rw [h.2]; decide)
  · exact hs

end Sys2Proof.Proofs
end

section
namespace Sys2Proof.Proofs

open Sys2Proof Sys2Proof.Machine Sys2Proof.Claims Sys2Proof.Safety Sys2Proof.Laws

/-! ## Station Control on the path -/

/-- The pin reset takes the line OFF, with RESET low and no start pass (R19, R173). -/
theorem pinReset_path (s : State) : PathOf s.pinReset where
  rxEnable := rfl
  txEnable := rfl
  off := ⟨fun _ => rfl, fun _ => rfl⟩
  arbiter := rfl
  inFlight := rfl
  transmits ht := by cases ht
  joining ht := by cases ht
  loop _ := ⟨nofun, nofun⟩
  loopQuiet _ ht := by cases ht
  txen := rfl
  txd _ := rfl
  collisions := Nat.zero_le _
  active ht := by cases ht
  joinTimer ht := by cases ht
  muteTimer ht := by cases ht
  resetLow _ := ⟨rfl, rfl⟩
  startPass ht := by cases ht

/-- A line that is OFF goes with any straps (R3). -/
theorem PathOk.straps {st : Station} {l : Line} {a : ArbiterState} {n : Nat} {f : Option FlightFrame} (h : PathOk st l a n f)
    (hl : l.state = .off) {st' : Station} (hst : st'.state = st.state) (hjoin : st'.joinTimer = st.joinTimer)
    (hmute : st'.muteTimer = st.muteTimer) (hlow : st'.resetLow = true → st'.state = .reset ∧ st'.startPass = none)
    (hpass : st'.startPass.isSome = true → st'.state = .reset) : PathOk st' l a n f where
  rxEnable := by rw [hst]; exact h.rxEnable
  txEnable := by rw [hst]; exact h.txEnable
  off := by rw [hst]; exact h.off
  arbiter := h.arbiter
  inFlight := h.inFlight
  transmits ht := by rw [hl] at ht; cases ht
  joining := by rw [hst]; exact h.joining
  loop _ := by simp [hl]
  loopQuiet _ ht := by rw [hl] at ht; cases ht
  txen := by
    rw [h.txen, hl]
    rfl
  txd := h.txd
  collisions := h.collisions
  active := by rw [hst]; exact h.active
  joinTimer := by rw [hst, hjoin]; exact h.joinTimer
  muteTimer := by rw [hst, hmute]; exact h.muteTimer
  resetLow := hlow
  startPass := hpass

theorem latchStraps_path {s : State} (hs : PathOf s) (address : Address) (rate : BitVec 2) (loop : Bool)
    (hreset : s.station.state = .reset) : PathOf (s.latchStraps address rate loop) :=
  hs.straps (st' := (s.latchStraps address rate loop).station) (hs.off.mpr (by rw [hreset]; rfl)) rfl rfl rfl
    (fun h => by cases h) fun _ => hreset

/-- The end of the start pass: CONFIG or HALTED, off the line as RESET was (R3, R174). -/
theorem PathOk.afterReset {st : Station} {l : Line} {a : ArbiterState} {n : Nat} {f : Option FlightFrame} (h : PathOk st l a n f)
    (hreset : st.state = .reset) (hpass : st.startPass.isSome = true) {st' : Station} (hst' : st'.state = .config ∨ st'.state = .halted)
    (hjoin : st'.joinTimer = st.joinTimer) (hmute : st'.muteTimer = st.muteTimer) (hlow : st'.resetLow = st.resetLow)
    (hnone : st'.startPass = none) : PathOk st' l a n f := by
  have hl : l.state = .off := h.off.mpr (by rw [hreset]; rfl)
  have hnot : st.resetLow = false := Bool.eq_false_iff.mpr fun ht => by rw [(h.resetLow ht).2] at hpass; cases hpass
  exact {
    rxEnable := by rw [h.rxEnable, hreset]; rcases hst' with h' | h' <;> rw [h'] <;> rfl
    txEnable := by rw [h.txEnable, hreset]; rcases hst' with h' | h' <;> rw [h'] <;> rfl
    off := ⟨fun _ => by rcases hst' with h' | h' <;> rw [h'] <;> rfl, fun _ => hl⟩
    arbiter := h.arbiter
    inFlight := h.inFlight
    transmits := fun ht => by rw [hl] at ht; cases ht
    joining := fun ht => by rcases hst' with h' | h' <;> rw [h'] at ht <;> cases ht
    loop := fun _ => by simp [hl]
    loopQuiet := fun _ ht => by rw [hl] at ht; cases ht
    txen := by rw [h.txen, hl]; rfl
    txd := h.txd
    collisions := h.collisions
    active := fun ht => by rcases hst' with h' | h' <;> rw [h'] at ht <;> cases ht
    joinTimer := fun ht => by rw [hjoin] at ht; rw [h.joinTimer ht] at hreset; cases hreset
    muteTimer := fun ht => by rw [hmute] at ht; rw [h.muteTimer ht] at hreset; cases hreset
    resetLow := fun ht => by rw [hlow, hnot] at ht; cases ht
    startPass := fun ht => by rw [hnone] at ht; cases ht }

theorem startPassEnd_path {s t : State} (hs : PathOf s) (h : execStartPassEnd s = .next t) : PathOf t := by
  unfold execStartPassEnd at h
  cases h
  split
  · next n hreset hpass =>
    have hwritten : PathOf (s.writeFields (s.startPassRest n)) := (writeFields_offPath _ s).keeps hs
    have hst : (s.writeFields (s.startPassRest n)).station = s.station := writeFields_station _ s
    generalize s.writeFields (s.startPassRest n) = u at *
    have hsome : u.station.startPass.isSome = true := by rw [hst, hpass]; rfl
    unfold State.finishStartPass
    split
    · exact hwritten.afterReset (st' := { u.station with startPass := none, haltCause := .badStrap, state := .halted })
        (by rw [hst, hreset]) hsome (.inr rfl) rfl rfl rfl rfl
    · exact hwritten.afterReset (st' := { u.station with startPass := none, state := .config })
        (by rw [hst, hreset]) hsome (.inl rfl) rfl rfl rfl rfl
  · exact hs

theorem takeRestart_path {s : State} (hs : PathOf s) (hst : s.station.state ≠ .reset) : PathOf s.takeRestart := by
  have honly : CircuitsOnly s s.showAllFree := eachCircuit_only _ (fun c t => by
    split
    · exact (circuitOnly_pokeRecord c c t _ _).rest
    · exact .refl t) s
  have hstation : (s.showAllFree.writeFields restartWrites).station = s.station := by rw [writeFields_station, honly.station]
  obtain ⟨hpass, hlow⟩ := hs.started hst
  rw [takeRestart_eq]
  generalize s.showAllFree.writeFields restartWrites = u at *
  refine ((poke_offPath _ _ _).trans (poke_offPath _ _ _)).keeps ?_
  refine PathOk.ofOff (st := (restartBlocks u s.station.address).station) (l := u.line.off) ?_ rfl rfl rfl rfl rfl rfl rfl ?_ ?_
  · show restartState s.station.address = .halted ∨ restartState s.station.address = .config
    unfold restartState
    split
    · exact .inl rfl
    · exact .inr rfl
  · exact (congrArg Station.startPass hstation).trans hpass
  · exact (congrArg Station.resetLow hstation).trans hlow

theorem enterJoiningFromConfig_path {s : State} (hs : PathOf s) (hconfig : s.station.state = .config) :
    PathOf s.enterJoiningFromConfig := by
  have htxen : s.line.txen = false := by simp [hs.txen, hs.off.mpr (by rw [hconfig]; rfl : s.station.state.receives = false)]
  have hblocks : (joiningBlocks s).station = s.station ∧ flight (joiningBlocks s) = none ∧ (joiningBlocks s).line = { s.line with
      state := .settling, quiet := 0, rxBuffer := [], rxCount := 0, rxEnable := true, txEnable := true, txen := false } := by
    rw [joiningBlocks, markPresent_eq]
    exact ⟨rfl, rfl, rfl⟩
  obtain ⟨hst, hflight, hline⟩ := hblocks
  obtain ⟨hpass, hlow⟩ := hs.started (by rw [hconfig]; decide)
  rw [enterJoiningFromConfig_eq]
  generalize joiningBlocks s = u at *
  refine pathOf_enterState ?_
  show PathOk { u.station with joinTimer := some 0, state := .joining } u.line .waiting 0 (flight u)
  rw [hst, hflight, hline]
  exact {
    rxEnable := rfl
    txEnable := rfl
    off := ⟨fun ht => (by cases ht), fun ht => (by cases ht)⟩
    arbiter := rfl
    inFlight := rfl
    transmits := fun ht => by cases ht
    joining := fun _ f hf => by cases hf
    loop := fun _ => ⟨nofun, nofun⟩
    loopQuiet := fun _ ht => by cases ht
    txen := rfl
    txd := fun _ => hs.txd htxen
    collisions := Nat.zero_le _
    active := fun ht => by cases ht
    joinTimer := fun _ => rfl
    muteTimer := fun ht => by rw [hs.muteTimer ht] at hconfig; cases hconfig
    resetLow := fun ht => by rw [show s.station.resetLow = true from ht] at hlow; cases hlow
    startPass := fun ht => by rw [hpass] at ht; cases ht }

theorem PathOk.config {st : Station} {l : Line} {a : ArbiterState} {n : Nat} {f : Option FlightFrame} (h : PathOk st l a n f)
    (status : StartStatus) (count : Nat) (credit : Option Nat) :
    PathOk { st with startStatus := status, circuitCount := count, creditStep := credit } l a n f := { h with }

theorem takeGo_path {s : State} (hs : PathOf s) (hconfig : s.station.state = .config) : PathOf s.takeGo := by
  unfold State.takeGo
  split
  · have hrings := layAllRings_offPath (circuitsBelow s.startCount) s s ringArea
    rw [State.acceptGo]
    generalize s.layAllRings s ringArea (circuitsBelow s.startCount) = u at *
    refine enterJoiningFromConfig_path ?_ ?_
    · show PathOk { u.station with startStatus := .ok, circuitCount := s.startCount, creditStep := some s.startStep } u.line
        u.arbiter.state u.arbiter.collisions (flight u)
      exact (hrings.keeps hs).config _ _ _
    · exact (congrArg Station.state hrings.station).trans hconfig
  · exact hs.config _ s.station.circuitCount s.station.creditStep

theorem takeControl_path {s : State} (hs : PathOf s) (v : Byte) : PathOf (s.takeControl v) := by
  unfold State.takeControl
  split
  · exact hs
  · next hreset =>
    dsimp only
    have hlanded := landLater_offPath s
    refine (writeBackControl_offPath _).keeps ?_
    split
    · next h => exact takeGo_path (hlanded.keeps hs) h.2
    · split
      · exact takeRestart_path (hlanded.keeps hs) (by rwa [hlanded.station])
      · exact hlanded.keeps hs

/-! ## The host's accesses -/

theorem takeField_path {s : State} (hs : PathOf s) (w : WatchedField) (v : Byte) : PathOf (s.takeField w v) := by
  have hkeeps {t : State} (b : Bool) (h : OffPath s t) : PathOf (if b then t else s) := by
    cases b
    · exact hs
    · exact h.keeps hs
  unfold State.takeField
  split
  · exact takeControl_path hs v
  · split
    · exact hs
    · exact (offPath_of_noticeOnly (takeInterruptEnable_only s v)).keeps hs
  · split
    · exact hs
    · exact (takeRequestPost_offPath s v).keeps hs
  · split
    · exact hs
    · exact (offPath_of_noticeOnly (takeAttention_only s v)).keeps hs
  · exact hkeeps _ (offPath_of_served (takePost_only s _ v).rest (takePost_served (w := anyTerms) s _ v).flight)
  · exact hkeeps _ (offPath_of_served (takeRelease_only s _ v).rest (takeRelease_served (w := anyTerms) s _ v).flight)
  · exact hkeeps _ (offPath_of_served (takeGapAck_only s _).rest (takeGapAck_served (w := anyTerms) s _).flight)

theorem writeWatched_path {s : State} (hs : PathOf s) (w : WatchedField) (v : Byte) : PathOf (s.writeWatched w v) :=
  takeField_path ((arrive_offPath s _).keeps hs) w v

theorem takeLane_path {s : State} (hs : PathOf s) (on : Bool) (off : Nat) (v : Byte) : PathOf (s.takeLane on off v) := by
  unfold State.takeLane
  split
  · exact takeField_path hs _ v
  · exact hs

theorem hostWrite_path {s : State} (hs : PathOf s) (word : BitVec 15) (be1 be0 : Bool) (data : Half) :
    PathOf (s.hostWrite word be1 be0 data) := by
  have harrived : PathOf (s.arrive (wordBytes word be1 be0 data)) := (arrive_offPath s _).keeps hs
  unfold State.hostWrite
  dsimp only
  generalize s.arrive (wordBytes word be1 be0 data) = u at *
  have hdrawn : PathOf { u with choices := u.choices + 1 } := harrived
  split
  · split
    · exact takeLane_path (takeLane_path hdrawn _ _ _) _ _ _
    · exact takeLane_path (takeLane_path hdrawn _ _ _) _ _ _
  · exact takeLane_path (takeLane_path harrived _ _ _) _ _ _

/-! ## The timers -/

theorem joinTimerExpiry_path {s : State} (hs : PathOf s) :
    PathOf ({ s with station.joinTimer := none } : State).oweRoll.setFullNext :=
  { hs with joinTimer := fun ht => by cases ht }

theorem enterJoiningFromMuted_path {s : State} (hs : PathOf s) (hmuted : s.station.state = .muted) :
    PathOf s.enterJoiningFromMuted := by
  have hown : ownFrame s.line.state = false := Bool.eq_false_iff.mpr fun ht => by
    have := hs.transmits ht
    rw [hmuted] at this
    cases this
  obtain ⟨hpass, hlow⟩ := hs.started (by rw [hmuted]; decide)
  refine pathOf_enterState ?_
  show PathOk { s.station with muteTimer := none, joinTimer := some 0, state := .joining } { s.line with txEnable := true }
    s.arbiter.state 0 (flight s)
  rw [hs.noFrame hown]
  exact {
    rxEnable := by rw [hs.rxEnable, hmuted]; rfl
    txEnable := rfl
    off := by rw [hs.off, hmuted]; rfl
    arbiter := hs.arbiter
    inFlight := by rw [hown]; rfl
    transmits := fun _ => rfl
    joining := fun _ f hf => by cases hf
    loop := hs.loop
    loopQuiet := hs.loopQuiet
    txen := hs.txen
    txd := hs.txd
    collisions := Nat.zero_le _
    active := fun ht => by cases ht
    joinTimer := fun _ => rfl
    muteTimer := fun ht => by cases ht
    resetLow := fun ht => by rw [show s.station.resetLow = true from ht] at hlow; cases hlow
    startPass := fun ht => by rw [hpass] at ht; cases ht }

theorem retry_offPath (s : State) (c : CircuitNo) (again : State → State) (outcome : CompletionOutcome) (due : Prop) [Decidable due]
    (hagain : ∀ t, OffPath t (again t)) : OffPath s (if due then
      (if (s.circuit c).sendCount < Config.maxSends then again (s.updCircuit c fun k => { k with retryTimer := none })
      else (s.updCircuit c fun k => { k with retryTimer := none }).freeWith c outcome)
    else s) := by
  have hstopped : OffPath s (s.updCircuit c fun k => { k with retryTimer := none }) := ⟨rfl, rfl, rfl, rfl, rfl⟩
  split
  · split
    · exact hstopped.trans (hagain _)
    · exact hstopped.trans (offPath_of_served (freeWith_only _ c outcome).rest (freeWith_served (w := anyTerms) _ c outcome).flight)
  · exact .refl s

theorem rxIdleExpiry_path {s t : State} (hs : PathOf s) (c : CircuitNo) (h : execRxIdleExpiry c s = .next t) : PathOf t := by
  have hstopped : OffPath s (s.updCircuit c fun k => { k with rxIdleTimer := none }) := ⟨rfl, rfl, rfl, rfl, rfl⟩
  unfold execRxIdleExpiry at h
  cases h
  split
  · dsimp only
    split
    · exact (hstopped.trans (raise_offPath _ _)).keeps hs
    · exact hstopped.keeps hs
  · exact hs

/-- Every command keeps the transmit path in order. -/
theorem exec_path {i : Instr} {s t : State} (hs : PathOf s) (h : exec i s = .next t) : PathOf t := by
  cases i
  case startPassEnd => exact startPassEnd_path hs h
  case rxIdleExpiry c => exact rxIdleExpiry_path hs c h
  all_goals cases h
  case resetPinLow => exact pinReset_path s
  case resetRelease address rate loop =>
    split
    · next h => exact latchStraps_path hs address rate loop h.2
    · exact hs
  case go | restart | controlOtherValue | requestPostIndexWrite | attentionTakeIndexWrite | interruptEnableWrite | txPostIndexWrite |
    rxReleaseIndexWrite | gapAck => exact writeWatched_path hs _ _
  case openRequest | listenRequest | closeRequest | abortRequest | badKindRequest => exact (takeIf_offPath s _).keeps hs
  case pendingSetDrain => exact (offPath_of_noticeOnly (drainWaiting_only s)).keeps hs
  case stickyQualityFlagsRead => exact (stickyRead_offPath s _ _).keeps hs
  case hostWrite => exact hostWrite_path hs _ _ _ _
  case lineSettled => exact lineSettled_path hs
  case lineBusy => exact lineBusy_path hs
  case frameTruncated | damagedFrame | malformedFrame | dataReceived | ackReceived | callReceived | answerReceived | refuseReceived |
    clearReceived | confirmReceived | rollReceived => exact hear_path hs _ _
  case drainComplete c =>
    exact (offPath_of_served (testDrain_only s c).rest (testDrain_served (w := anyTerms) s c).flight).keeps hs
  case silentRoundEnd =>
    split
    · next h =>
      have hround : s.arbiter.state = .round := ((silenceDue_iff _).mp h).1
      show PathOk s.station s.line .round s.arbiter.collisions (flight s)
      rw [← hround]
      exact hs
    · exact hs
  case turn =>
    split
    · exact makeTurn_path hs
    · exact hs
  case collisionDetected => exact collisionDetected_path hs
  case frameSent => exact frameSent_path hs
  case frameCollided => exact frameCollided_path hs
  case enterMuted => exact enterMuted_path hs
  case peerAgedOut a =>
    split
    · exact (removePeer_offPath s a).keeps hs
    · exact hs
  case silenceTimerExpiry =>
    split
    · exact (oweRoll_offPath s).keeps hs
    · exact hs
  case joinTimerExpiry =>
    split
    · exact joinTimerExpiry_path hs
    · exact hs
  case muteTimerExpiry =>
    split
    · next h => exact enterJoiningFromMuted_path hs h.1
    · exact hs
  case callRetryExpiry c =>
    exact (retry_offPath s c (fun t => t.updCircuit c fun k => { k with callOwed := true }) _ _ fun t =>
      ⟨rfl, rfl, rfl, rfl, rfl⟩).keeps hs
  case clearRetryExpiry c =>
    exact (retry_offPath s c (fun t => t.oweControl c .clear) _ _ fun t =>
      offPath_of_served (oweControl_only t c .clear).rest (oweControl_served (w := anyTerms) t c .clear).flight).keeps hs
  case dataRetryExpiry c =>
    split
    · exact (offPath_of_served (dataRetryOut_only s c).rest (dataRetryOut_served (w := anyTerms) s c).flight).keeps hs
    · exact hs
  case probeExpiry c =>
    split
    · exact (offPath_of_served (probeOut_only s c).rest (probeOut_served (w := anyTerms) s c).flight).keeps hs
    · exact hs
  case qualityWindowEnd =>
    split
    · split
      · exact (endWindow_offPath s _).keeps hs
      · exact hs
    · exact hs

/-! ## A bit time -/

theorem tickStartPass_path {s : State} (hs : PathOf s) : PathOf s.tickStartPass := by
  unfold State.tickStartPass
  split
  · exact hs
  · next n hpass =>
    split
    · exact hs
    · next w _ _ =>
      have hreset : s.station.state = .reset := hs.startPass (by rw [hpass]; rfl)
      have hlow : s.station.resetLow ≠ true := fun ht => by rw [(hs.resetLow ht).2] at hpass; cases hpass
      have hcounted : PathOf { s with station.startPass := some (n + 1) } :=
        { hs with resetLow := fun ht => absurd ht hlow, startPass := fun _ => hreset }
      exact (writeFields_offPath [w] _).keeps hcounted

/-- One bit time on the line: its state, its enables and the driver stay, and TXD is 1 while the driver is released (R1, R2). -/
theorem tickLine_path {s : State} (hs : PathOf s) : s.tickLine.state = s.line.state ∧ s.tickLine.rxEnable = s.line.rxEnable ∧
    s.tickLine.txEnable = s.line.txEnable ∧ s.tickLine.txen = s.line.txen ∧ (s.line.txen = false → s.tickLine.txd = true) ∧
    (s.line.state = .idle → 20 ≤ s.line.quiet → 20 ≤ s.tickLine.quiet) := by
  have hquiet (h : 20 ≤ s.line.quiet) : 20 ≤ s.line.quietNext := by
    rw [Line.quietNext]
    have : Config.quietTime = 20 := rfl
    omega
  unfold State.tickLine
  split
  · exact ⟨rfl, rfl, rfl, rfl, hs.txd, fun _ => id⟩
  · next f hline _ =>
    unfold State.tickSending
    dsimp only
    split
    · exact ⟨rfl, rfl, rfl, rfl, hs.txd, fun hidle => by rw [hline] at hidle; cases hidle⟩
    · have hlevel (n : Nat) (b : Byte) (htxen : s.line.txen = false) : f.level n b s.station.loop = true := by
        have hloop : s.station.loop = true := by
          have := hs.txen
          rw [htxen, hline] at this
          simpa using this
        rw [FlightFrame.level, hloop]
        rfl
      split
      · exact ⟨rfl, rfl, rfl, rfl, fun htxen => hlevel _ _ htxen, fun hidle => by
          rw [show (s.driveByte f).state = s.line.state from rfl] at *; rw [hline] at hidle; cases hidle⟩
      · exact ⟨rfl, rfl, rfl, rfl, fun htxen => hlevel _ _ htxen, fun hidle => by rw [hline] at hidle; cases hidle⟩
  · exact ⟨rfl, rfl, rfl, rfl, hs.txd, fun _ => id⟩
  all_goals exact ⟨rfl, rfl, rfl, rfl, hs.txd, fun _ => hquiet⟩

theorem tickTimers_path {s : State} (hs : PathOf s) : PathOf s.tickTimers := by
  obtain ⟨hstate, hrx, htx, htxen, htxd, hquiet⟩ := tickLine_path hs
  have harb : s.arbiter.tick.state = s.arbiter.state ∧ s.arbiter.tick.collisions = s.arbiter.collisions := by
    unfold Arbiter.tick
    split <;> exact ⟨rfl, rfl⟩
  show PathOk s.station.tick s.tickLine s.arbiter.tick.state s.arbiter.tick.collisions (flight s)
  rw [harb.1, harb.2]
  exact {
    rxEnable := hrx.trans hs.rxEnable
    txEnable := htx.trans hs.txEnable
    off := by rw [hstate]; exact hs.off
    arbiter := by rw [hstate]; exact hs.arbiter
    inFlight := by rw [hstate]; exact hs.inFlight
    transmits := by rw [hstate]; exact hs.transmits
    joining := hs.joining
    loop := by rw [hstate]; exact hs.loop
    loopQuiet := fun hloop hidle => by
      rw [hstate] at hidle
      exact hquiet hidle (hs.loopQuiet hloop hidle)
    txen := by rw [htxen, hstate]; exact hs.txen
    txd := by rw [htxen]; exact htxd
    collisions := hs.collisions
    active := hs.active
    joinTimer := fun ht => hs.joinTimer (by simpa [Station.tick, tickTimer] using ht)
    muteTimer := fun ht => hs.muteTimer (by simpa [Station.tick, tickTimer] using ht)
    resetLow := hs.resetLow
    startPass := hs.startPass }

/-- Settles O57: every command and every bit time keeps the transmit path in order. -/
theorem stepsKeepThePathInOrder : Obligations.StepsKeepThePathInOrder := by
  intro s t hpath htimers h
  have hs := (path_iff s).mp ⟨hpath, htimers⟩
  refine (path_iff t).mpr ?_
  obtain ⟨-, u, rfl, rfl⟩ | ⟨i, rest, -, hexec⟩ := step_cases h
  · exact tickTimers_path (tickStartPass_path hs)
  · exact exec_path (s := { s with pending := rest }) hs hexec

end Sys2Proof.Proofs
end

section
namespace Sys2Proof.Proofs

open Sys2Proof Sys2Proof.Machine Sys2Proof.Claims Sys2Proof.Safety Sys2Proof.Laws

/-! ## The front of the queue and the state at reset -/

/-- Settles O1: the step function reads the queue in just this way. -/
theorem stepRunsTheFrontCommand : Obligations.StepRunsTheFrontCommand := fun _ _ _ => rfl

/-- Settles O54: at reset every circuit is the same FREE one, every roster entry absent, and every queue empty. -/
theorem resetHasTheLaws : Obligations.ResetHasTheLaws := by
  have hcircuit (c : CircuitNo) : State.reset.circuit c = Circuit.reset := circuits_replicate _ c
  have hentry (a : Fin 31) : State.reset.roster.entries.get a = RosterEntry.absent := by
    simp [State.reset, State.atPinReset, Roster.reset, Vector.get]
  have hpresence : PresenceLaw State.reset :=
    ⟨fun _ c => congrArg Circuit.state (hcircuit c), by decide, by decide, fun c h => by rw [hcircuit] at h; exact absurd h (by decide)⟩
  have htransfer : TransferLaw State.reset :=
    ⟨fun _ c => congrArg Circuit.state (hcircuit c), fun c => by rw [hcircuit]; decide, by decide⟩
  exact ⟨rfl, fun c => by rw [hcircuit]; decide, by decide, by decide, by decide, by decide, by decide, by decide, hpresence,
    by decide, fun a => by rw [hentry]; decide, fun h => absurd h (by decide), fun c => by rw [hcircuit]; decide,
    ⟨fun c h => by rw [hcircuit] at h; exact absurd h (by decide), fun c d h => by rw [hcircuit] at h; exact absurd h (by decide)⟩,
    htransfer⟩

/-- Settles O3: the pin reset builds its state anew, with the straps, the window, the bus and the queue of the old one. -/
theorem pinResetStopsEveryBlock : Obligations.PinResetStopsEveryBlock := by
  intro s
  have hcircuit (c : CircuitNo) : s.pinReset.circuit c = Circuit.reset := circuits_replicate _ c
  have hentry (a : Nat) (ha : a < 31) : s.pinReset.roster.entry a = ⟨false, 0⟩ := by
    simp [Roster.entry, ha, State.pinReset, State.atPinReset, Roster.reset, Vector.get, RosterEntry.absent]
  have hblocks : blocksReset s s.pinReset :=
    ⟨rfl, rfl, rfl, rfl, rfl, rfl, rfl, rfl, rfl, rfl, rfl, rfl, rfl, rfl, rfl, hentry, rfl, rfl, rfl, rfl, rfl, rfl, rfl, rfl,
      rfl, rfl, rfl, rfl, rfl, rfl⟩
  exact ⟨s.pinReset, rfl, rfl, rfl, rfl, rfl, rfl, rfl, rfl, rfl, rfl, rfl, rfl, rfl, hblocks, rfl,
    fun c => by rw [hcircuit]; decide, rfl, rfl, rfl, rfl, rfl⟩

/-! ## Rows out of place -/

/-- The row of a good frame is the hearing of its bytes. -/
theorem exec_frameRow_hear (k : Kind) (f : Frame) (s : State) : exec (frameRow k f) s = .next (s.hear false (frameBytes k f)) := by
  cases k <;> rfl

theorem hear_of_ne {s : State} (h : s.line.state ≠ .hearing) (truncated : Bool) (bytes : List Byte) :
    s.hear truncated bytes = s := if_neg h

theorem requestWaiting_iff (s : State) : s.requestWaiting = true ↔ waits s := by
  refine ⟨fun h => ?_, requestWaiting_of_waits⟩
  obtain ⟨hpost, hstate⟩ := (Bool.and_eq_true _ _).mp h
  refine ⟨by simpa using hpost, ?_⟩
  cases hs : s.station.state <;> simp [hs, StationState.serves] at hstate ⊢

/-- The row of a request kind is the row of one kind byte alone. -/
theorem requestRow_injective {b v : Byte} (h : requestKindOf b = requestKindOf v) : requestRow b = requestRow v := by
  have hb (x : Byte) : requestRow x = match requestKindOf x with
      | some .openR => .openRequest
      | some .listenR => .listenRequest
      | some .closeR => .closeRequest
      | some .abortR => .abortRequest
      | none => .badKindRequest := by
    obtain ⟨hnone, hbad⟩ | ⟨kind, hsome, hcode⟩ := requestKindOf_cases x
    · have hne {v : Byte} (hv : 1 ≤ v.toNat ∧ v.toNat ≤ 4) : x ≠ v := by
        rintro rfl
        omega
      rw [hnone, requestRow, if_neg (hne (by decide)), if_neg (hne (by decide)), if_neg (hne (by decide)),
        if_neg (hne (by decide))]
    · rw [hsome, hcode]
      cases kind <;> rfl
  rw [hb, hb, h]

/-- A taking does nothing unless a request of its kind waits (log 9). -/
theorem exec_requestRow_out_of_place {s : State} {b : Byte} (h : ¬waits s ∨ requestRow b ≠ requestRow (reqByte s 1)) :
    exec (requestRow b) s = .next s := by
  rw [exec_requestRow, State.takeIf, if_neg]
  rintro ⟨hwaiting, hkind⟩
  exact h.elim (· ((requestWaiting_iff s).mp hwaiting)) (· (requestRow_injective hkind).symm)

/-- Settles O17: each row tests the state in which its happening can arise. -/
theorem rowsOutOfPlaceDoNothing : Obligations.RowsOutOfPlaceDoNothing := by
  refine ⟨fun s address rate loop h => ?_, fun s h => ?_, fun s i hi h => ?_, fun s k f bytes h => ?_, fun s h => ?_, fun s h => ?_⟩
  · exact congrArg Host.Outcome.next (if_neg fun ⟨hlow, hreset⟩ => h.elim (by simp [hlow]) (· hreset))
  · show Host.Outcome.next _ = _
    cases hstate : s.station.state <;> cases hpass : s.station.startPass <;> simp_all
  · have hrow : ∃ b, i = requestRow b := by
      simp only [List.mem_cons, List.not_mem_nil, or_false] at hi
      obtain rfl | rfl | rfl | rfl | rfl := hi
      exacts [⟨1, rfl⟩, ⟨2, rfl⟩, ⟨3, rfl⟩, ⟨4, rfl⟩, ⟨0, rfl⟩]
    obtain ⟨b, rfl⟩ := hrow
    exact exec_requestRow_out_of_place h
  · rw [exec_frameRow_hear, hear_of_ne h]
    exact ⟨rfl, congrArg Host.Outcome.next (hear_of_ne h _ _), congrArg Host.Outcome.next (hear_of_ne h _ _)⟩
  · show Host.Outcome.next s.frameSent = _
    rw [State.frameSent]
    cases hstate : s.line.state <;> cases hflight : s.selector.inFlight <;> simp_all
  · show Host.Outcome.next s.frameCollided = _
    rw [State.frameCollided]
    cases hstate : s.line.state <;> cases hflight : s.selector.inFlight <;> simp_all

/-! ## Edges of the line -/

/-- Settles O24: the two rows, in each state of the Line Interface. -/
theorem edgesAndCollisionsMoveTheLine : Obligations.EdgesAndCollisionsMoveTheLine := by
  refine ⟨fun s => congrArg Host.Outcome.next ?_, fun s => rfl⟩
  rw [State.lineBusy]
  cases hloop : s.station.loop
  case true => rfl
  case false =>
    cases hstate : s.line.state
    case idle =>
      by_cases hround : s.arbiter.state = .round <;> simp [State.lineBusyToArbiter, hround, checkStart]
    all_goals rfl

/-! ## Changes of station state -/

theorem peek_of_sameWindow {s t : State} {offs : List Nat} (h : sameWindow s t offs) {a : Nat} (ha : a < 65536) (hout : a ∉ offs) :
    t.peek a = s.peek a := h a ha hout

/-- The bytes that raised causes can write lie in the attention queue and at its indices (R132). -/
theorem raiseBytes_range {s : State} {n a : Nat} (h : a ∈ raiseBytes s n) :
    (0x0F ≤ a ∧ a ≤ 0x12) ∨ (0x0600 ≤ a ∧ a < 0x0800) := by
  unfold raiseBytes at h
  split at h
  · exact absurd h (List.not_mem_nil)
  · obtain hmem | hmem := List.mem_append.mp h
    · simp at hmem
      omega
    · obtain ⟨i, -, hbytes⟩ := List.mem_flatMap.mp hmem
      have := mem_bytesFrom.mp hbytes
      omega

theorem raiseBytes_congr {s u : State} (h : u.notice.fill = s.notice.fill) (n : Nat) : raiseBytes u n = raiseBytes s n := by
  rw [raiseBytes, raiseBytes, h]

/-- A raise in a state that differs from another in its window and blocks but the Notice Unit's is a raise in that state. -/
theorem raise_after {s u : State} {offs : List Nat} (hnotice : u.notice = s.notice) (hmem : MemoryLaw u) (h : sameWindow s u offs)
    (p : NoticePair) : raisedIn s (u.raise p) p ∧ sameWindow s (u.raise p) (offs ++ raiseBytes s 1) := by
  refine ⟨raisedIn_congr hnotice (raise_raisedIn hmem p), ?_⟩
  rw [← raiseBytes_congr (congrArg Notice.fill hnotice)]
  exact sameWindow_trans h (raise_sameWindow u p)

theorem enterState_eq (s : State) (st : StationState) : s.enterState st = { s with
    station.state := st, notice := (s.enterState st).notice, window := (s.enterState st).window } := (raise_only _ _).eq

/-- A change of state writes the state field and raises STATION (R177). -/
theorem enterState_shows {s : State} (hmem : MemoryLaw s) (st : StationState) :
    raisedIn s (s.enterState st) (.station .station) ∧ (s.enterState st).peek 0x03 = st.code ∧
      sameWindow s (s.enterState st) ([0x03] ++ raiseBytes s 1) := by
  have hshown : (({ s with station.state := st } : State).poke offStationState st.code).peek 0x03 = st.code :=
    peek_poke_same _ _ _ hmem (by decide)
  have hraise := raise_after (s := s) (u := ({ s with station.state := st } : State).poke offStationState st.code) rfl
    (poke_wf _ _ _ hmem) (poke_sameWindow ({ s with station.state := st } : State) (by decide) _) (.station .station)
  exact ⟨hraise.1, (peek_raise_ne _ _ _ (by decide) (by decide) (by decide)).trans hshown, hraise.2⟩

/-- Settles O48: the expiries of the silence and the join timer set flags, and that of the mute timer changes the state. -/
theorem stationTimersExpire : Obligations.StationTimersExpire := by
  refine ⟨fun s => rfl, fun s => congrArg Host.Outcome.next ?_, fun s hmem => ⟨_, rfl, ?_⟩⟩
  · exact if_congr (and_congr_right fun _ => timerOut_iff (by decide)) rfl rfl
  · have hmute : (s.station.state = .muted ∧ timerOut Config.tMute s.station.muteTimer = true) ↔
        (s.station.state = .muted ∧ 262144 ≤ s.station.muteTimer.getD 0) := and_congr_right fun _ => timerOut_iff (by decide)
    by_cases hdue : s.station.state = .muted ∧ 262144 ≤ s.station.muteTimer.getD 0
    · rw [if_pos hdue, if_pos (hmute.mpr hdue)]
      obtain ⟨hraised, hstate, hwindow⟩ := enterState_shows (s := { s.setFullNext with
        line.txEnable := true
        arbiter.collisions := 0
        station.muteTimer := none
        station.joinTimer := some 0 }) hmem .joining
      exact ⟨enterState_eq _ _, raisedIn_congr rfl hraised, hstate, hwindow⟩
    · rw [if_neg hdue, if_neg (mt hmute.mp hdue)]

end Sys2Proof.Proofs
end

section
namespace Sys2Proof.Proofs

open Sys2Proof Sys2Proof.Machine Sys2Proof.Claims Sys2Proof.Safety Sys2Proof.Laws

/-! ## The arrival of a host write -/

/-- A host write of one byte has come to its turn (R130, log 11). -/
structure Arrived (s u : State) (a : Nat) (v : Byte) : Prop where
  frame : u = { s with landed := s.landed - 1, window := u.window }
  memory : MemoryLaw u
  lands : landsAt s u a v
  window : sameWindow s u [a]

theorem arrive_arrived {s : State} (hmem : MemoryLaw s) {a : Nat} (ha : a < 65536) (v : Byte) :
    Arrived s (s.arrive [(a, v)]) a v := by
  obtain ⟨hlanded, e⟩ | ⟨hlanded, e⟩ := arrive_cases s [(a, v)]
  · refine ⟨arrive_eq s _, ?_, ?_, ?_⟩ <;> rw [e]
    · exact poke_wf _ _ _ hmem
    · rw [landsAt, if_pos hlanded]
      exact peek_poke_same _ _ _ hmem ha
    · exact poke_sameWindow _ ha v
  · refine ⟨arrive_eq s _, ?_, ?_, ?_⟩ <;> rw [e]
    · exact hmem
    · rw [landsAt, if_neg hlanded]
      rfl
    · exact fun _ _ _ => rfl

theorem pokeEach_window {bytes : List (Nat × Byte)} (h : ∀ b ∈ bytes, b.1 < 65536) (s : State) :
    (s.pokeEach bytes).window = afterBytes s.window bytes := by
  induction bytes generalizing s with
  | nil => rfl
  | cons b rest ih =>
    refine (ih (fun b' hb => h b' (List.mem_cons_of_mem b hb)) (s.poke b.1 b.2)).trans ?_
    rw [State.poke, Nat.mod_eq_of_lt (h b List.mem_cons_self)]
    rfl

/-- The arrival of a host write, as the statements word it (R130, log 11). -/
theorem arrive_eq_arrived {bytes : List (Nat × Byte)} (h : ∀ b ∈ bytes, b.1 < 65536) (s : State) :
    s.arrive bytes = arrived s bytes := by
  refine (arrive_eq s bytes).trans ?_
  obtain ⟨hlanded, e⟩ | ⟨hlanded, e⟩ := arrive_cases s bytes
  · rw [e, pokeEach_window h, arrived, if_pos hlanded]
  · rw [e, arrived, if_neg hlanded]

section

variable {s u : State} {a : Nat} {v : Byte}

theorem Arrived.station (h : Arrived s u a v) : u.station = s.station := by rw [h.frame]
theorem Arrived.notice (h : Arrived s u a v) : u.notice = s.notice := by rw [h.frame]
theorem Arrived.requests (h : Arrived s u a v) : u.requests = s.requests := by rw [h.frame]
theorem Arrived.circuit (h : Arrived s u a v) (c : CircuitNo) : u.circuit c = s.circuit c := by rw [h.frame]; rfl

/-- What the block then writes elsewhere leaves the byte as it stands. -/
theorem Arrived.lands_of_sameWindow {t : State} {offs : List Nat} (h : Arrived s u a v) (g : sameWindow u t offs) (ha : a < 65536)
    (hout : a ∉ offs) : landsAt s t a v := (g a ha hout).trans h.lands

end

/-! ## Watched fields and their rows (R144) -/

/-- The command of a watched field's row. -/
def fieldRow (v : Byte) : WatchedField → Instr
  | .control => if v = 0x5A then .go else if v = 0xA5 then .restart else .controlOtherValue v
  | .interruptEnable => .interruptEnableWrite v
  | .requestPost => .requestPostIndexWrite v
  | .attentionTake => .attentionTakeIndexWrite v
  | .txPost c => .txPostIndexWrite c v
  | .rxRelease c => .rxReleaseIndexWrite c v
  | .gapAck c => .gapAck c v

theorem exec_fieldRow (w : WatchedField) (v : Byte) (s : State) : exec (fieldRow v w) s = .next (s.writeWatched w v) := by
  cases w with
  | control =>
    by_cases hgo : v = 0x5A
    · subst hgo
      rfl
    · by_cases hrestart : v = 0xA5
      · subst hrestart
        rfl
      · rw [fieldRow, if_neg hgo, if_neg hrestart]
        rfl
  | _ => rfl

theorem offset_of_watchedAt {a : Nat} {w : WatchedField} (h : watchedAt a = some w) : w.offset = a := by
  have hrecord (hrange : 0x0100 ≤ a ∧ a < 0x0500) : recordBase (Fin.ofNat 16 ((a - 0x0100) / 64)) + a % 64 = a := by
    show 0x0100 + 64 * (((a - 0x0100) / 64) % 16) + a % 64 = a
    omega
  simp only [watchedAt] at h
  by_cases hcontrol : a = offControl
  · rw [if_pos hcontrol] at h
    cases h
    exact hcontrol.symm
  by_cases henable : a = offInterruptEnable
  · rw [if_neg hcontrol, if_pos henable] at h
    cases h
    exact henable.symm
  by_cases hpost : a = offRequestPost
  · rw [if_neg hcontrol, if_neg henable, if_pos hpost] at h
    cases h
    exact hpost.symm
  by_cases htake : a = offAttentionTake
  · rw [if_neg hcontrol, if_neg henable, if_neg hpost, if_pos htake] at h
    cases h
    exact htake.symm
  rw [if_neg hcontrol, if_neg henable, if_neg hpost, if_neg htake, Option.ite_none_right_eq_some] at h
  obtain ⟨hrange, h⟩ := h
  by_cases htx : a % 64 = recTxPost
  · rw [if_pos htx] at h
    cases h
    exact (congrArg (recordBase _ + ·) htx.symm).trans (hrecord hrange)
  by_cases hrx : a % 64 = recRxRelease
  · rw [if_neg htx, if_pos hrx] at h
    cases h
    exact (congrArg (recordBase _ + ·) hrx.symm).trans (hrecord hrange)
  rw [if_neg htx, if_neg hrx, Option.ite_none_right_eq_some] at h
  obtain ⟨hgap, h⟩ := h
  cases h
  exact (congrArg (recordBase _ + ·) hgap.symm).trans (hrecord hrange)

/-- A search that only one element can answer. -/
theorem findSome?_eq_of_unique {α β : Type} {l : List α} {x : α} {g : α → Option β} (hx : x ∈ l) (h : ∀ y, y ≠ x → g y = none) :
    l.findSome? g = g x := by
  induction l with
  | nil => exact absurd hx List.not_mem_nil
  | cons y rest ih =>
    rw [List.findSome?_cons]
    by_cases hy : y = x
    · subst hy
      cases hg : g y with
      | some b => rfl
      | none =>
        refine List.findSome?_eq_none_iff.mpr fun z _ => ?_
        by_cases hz : z = y
        · rw [hz, hg]
        · exact h z hz
    · simp only [h y hy]
      exact ih ((List.mem_cons.mp hx).resolve_left (Ne.symm hy))

/-- The row of a watched byte, by the model's watched field there. -/
theorem watchedRow_eq (a : Nat) (v : Byte) : watchedRow a v = (watchedAt a).map (fieldRow v) := by
  unfold watchedRow watchedAt
  by_cases hcontrol : a = 0x0A
  · rw [if_pos hcontrol, if_pos (show a = offControl from hcontrol)]
    rfl
  by_cases henable : a = 0x0B
  · rw [if_neg hcontrol, if_neg (show ¬a = offControl from hcontrol), if_pos henable, if_pos (show a = offInterruptEnable from henable)]
    rfl
  by_cases hpost : a = 0x0C
  · rw [if_neg hcontrol, if_neg (show ¬a = offControl from hcontrol), if_neg henable, if_neg (show ¬a = offInterruptEnable from henable), if_pos hpost, if_pos (show a = offRequestPost from hpost)]
    rfl
  by_cases htake : a = 0x0E
  · rw [if_neg hcontrol, if_neg (show ¬a = offControl from hcontrol), if_neg henable, if_neg (show ¬a = offInterruptEnable from henable), if_neg hpost, if_neg (show ¬a = offRequestPost from hpost), if_pos htake, if_pos (show a = offAttentionTake from htake)]
    rfl
  rw [if_neg hcontrol, if_neg (show ¬a = offControl from hcontrol), if_neg henable, if_neg (show ¬a = offInterruptEnable from henable), if_neg hpost, if_neg (show ¬a = offRequestPost from hpost), if_neg htake, if_neg (show ¬a = offAttentionTake from htake)]
  have hval : (Fin.ofNat 16 ((a - 0x0100) / 64)).val = ((a - 0x0100) / 64) % 16 := rfl
  rw [findSome?_eq_of_unique (x := (Fin.ofNat 16 ((a - 0x0100) / 64) : CircuitNo)) (mem_allCircuits _) fun c hc => ?_]
  · simp only [recordBase, hval]
    by_cases hrange : 0x0100 ≤ a ∧ a < 0x0500
    · rw [if_pos hrange]
      by_cases htx : a % 64 = 0x30
      · rw [if_pos (show a % 64 = recTxPost from htx), if_pos (by omega)]
        rfl
      · rw [if_neg (show ¬a % 64 = recTxPost from htx), if_neg (by omega)]
        by_cases hrx : a % 64 = 0x31
        · rw [if_pos (show a % 64 = recRxRelease from hrx), if_pos (by omega)]
          rfl
        · rw [if_neg (show ¬a % 64 = recRxRelease from hrx), if_neg (by omega)]
          by_cases hgap : a % 64 = 0x32
          · rw [if_pos (show a % 64 = recGapAck from hgap), if_pos (by omega)]
            rfl
          · rw [if_neg (show ¬a % 64 = recGapAck from hgap), if_neg (by omega)]
            rfl
    · rw [if_neg hrange, if_neg (by omega), if_neg (by omega), if_neg (by omega)]
      rfl
  · have hne : c.val ≠ ((a - 0x0100) / 64) % 16 := fun h => hc (Fin.ext (h.trans hval.symm))
    have := c.isLt
    have hbase : recordBase c = 0x0100 + 64 * c.val := rfl
    rw [if_neg (by omega), if_neg (by omega), if_neg (by omega)]

theorem watchedAt_of_row {a : Nat} {v : Byte} {i : Instr} (h : i ∈ watchedRow a v) : ∃ w, watchedAt a = some w ∧ i = fieldRow v w := by
  rw [watchedRow_eq, Option.mem_def, Option.map_eq_some_iff] at h
  obtain ⟨w, hw, rfl⟩ := h
  exact ⟨w, hw, rfl⟩

theorem watchedAt_of_no_row {a : Nat} {v : Byte} (h : watchedRow a v = none) : watchedAt a = none := by
  rwa [watchedRow_eq, Option.map_eq_none_iff] at h

@[simp] theorem takeLane_off (s : State) (a : Nat) (v : Byte) : s.takeLane false a v = s := rfl

theorem takeLane_unwatched {on : Bool} {a : Nat} (h : on = true → watchedAt a = none) (s : State) (v : Byte) : s.takeLane on a v = s := by
  cases on with
  | false => rfl
  | true => simp [State.takeLane, h rfl]

theorem takeLane_watched {a : Nat} {w : WatchedField} (h : watchedAt a = some w) (s : State) (v : Byte) :
    s.takeLane true a v = s.takeField w v := by simp [State.takeLane, h]

/-! ## Host writes of a word -/

/-- The bytes of a host write reach memory, and no watched byte is among them (R129, R130). -/
theorem hostWrite_unwatched {s : State} {word : BitVec 15} {be1 be0 : Bool} {data : Half}
    (hlow : be0 = true → watchedAt (2 * word.toNat) = none) (hhigh : be1 = true → watchedAt (2 * word.toNat + 1) = none) :
    s.hostWrite word be1 be0 data = s.arrive (wordBytes word be1 be0 data) := by
  have hboth : bothWatched be1 be0 (2 * word.toNat) = false := by
    cases be1 <;> cases be0 <;> simp_all [bothWatched]
  simp only [State.hostWrite, hboth, Bool.false_eq_true, if_false, takeLane_unwatched hlow, takeLane_unwatched hhigh]

/-- Settles O8: the write arrives, and neither lane is taken by a block. -/
theorem hostWriteChangesOnlyItsBytes : Obligations.HostWriteChangesOnlyItsBytes := by
  intro s w be1 be0 data hmem hlow hhigh
  have hw : 2 * w.toNat + 1 < 65536 := by omega
  refine ⟨_, congrArg Host.Outcome.next (hostWrite_unwatched (fun h => watchedAt_of_no_row (hlow h))
    fun h => watchedAt_of_no_row (hhigh h)), arrive_eq s _, ?_⟩
  rw [wordBytes, lowByte_eq, highByte_eq]
  obtain ⟨hlanded, e⟩ | ⟨hlanded, e⟩ := arrive_cases s (laneBytes be0 (2 * w.toNat) (data.setWidth 8) ++
    laneBytes be1 (2 * w.toNat + 1) ((data >>> 8).setWidth 8))
  · simp only [e, landsAt, if_pos hlanded]
    have hsame (u : State) (a : Nat) (v : Byte) (hu : MemoryLaw u) (ha : a < 65536) : (u.poke a v).peek a = v :=
      peek_poke_same u a v hu ha
    cases be1 <;> cases be0 <;> simp only [laneBytes, State.pokeEach, if_true, if_false, Bool.false_eq_true, List.nil_append,
      List.append_nil, List.cons_append, List.foldl_cons, List.foldl_nil, false_imp_iff, true_imp_iff, true_and]
    · exact fun _ _ _ => rfl
    · exact ⟨hsame s _ _ hmem (by omega), poke_sameWindow s (by omega) _⟩
    · exact ⟨hsame s _ _ hmem hw, poke_sameWindow s hw _⟩
    · refine ⟨?_, hsame _ _ _ (poke_wf s _ _ hmem) hw, sameWindow_trans (poke_sameWindow s (by omega) _) (poke_sameWindow _ hw _)⟩
      rw [peek_poke_ne _ _ _ _ hw (by omega) (by omega)]
      exact hsame s _ _ hmem (by omega)
  · rw [e]
    exact ⟨fun _ => by rw [landsAt, if_neg hlanded]; rfl, fun _ => by rw [landsAt, if_neg hlanded]; rfl, fun _ _ _ => rfl⟩

/-- Two bytes written in either order leave the same window. -/
theorem write_comm {m : Memory} (hm : m.wf = true) {a b : Nat} (ha : a < 65536) (hb : b < 65536) (hne : a ≠ b) (v w : Byte) :
    Memory.write (Memory.write m a v) b w = Memory.write (Memory.write m b w) a v := by
  have hwf {m : Memory} {a : Nat} (h : m.wf = true) (ha : a < 65536) (v : Byte) : (Memory.write m a v).wf = true :=
    write_wfFrom m 0 a v ha (Nat.zero_le a) h
  refine wfFrom_ext _ _ 0 (hwf (hwf hm ha v) hb w) (hwf (hwf hm hb w) ha v) fun x => ?_
  by_cases hxa : x = a
  · subst hxa
    rw [read_write_other _ _ _ _ hne, read_write_same _ _ _ 0 hm, read_write_same _ _ _ 0 (hwf hm hb w)]
  · by_cases hxb : x = b
    · subst hxb
      rw [read_write_same _ _ _ 0 (hwf hm ha v), read_write_other _ _ _ _ (Ne.symm hne), read_write_same _ _ _ 0 hm]
    · rw [read_write_other _ _ _ _ hxb, read_write_other _ _ _ _ hxa, read_write_other _ _ _ _ hxa, read_write_other _ _ _ _ hxb]

/-- A watched field whose byte stands in memory already is taken by its block, and gives up its place (log 11). -/
theorem exec_fieldRow_standing (w : WatchedField) (v : Byte) (u : State) :
    exec (fieldRow v w) (standing u) = .next (u.takeField w v) := by
  rw [exec_fieldRow, State.writeWatched, State.arrive, if_neg (Nat.succ_ne_zero _)]
  rfl

theorem thenTaken_fieldRow (w w' : WatchedField) (v v' : Byte) (u : State) :
    thenTaken (fieldRow v w) (fieldRow v' w') u = .next ((u.takeField w v).takeField w' v') := by
  rw [thenTaken, exec_fieldRow_standing]
  exact exec_fieldRow_standing w' v' _

/-- Settles O9: the lane of a watched byte is taken as the command of its row takes it; of two, in the order that is drawn. -/
theorem watchedWritesAreTheirRows : Obligations.WatchedWritesAreTheirRows := by
  refine ⟨fun s w data i hi => ?_, fun s w data i hi => ?_, fun s w data hmem hhigh i hi => ?_, fun s w data hmem i hi j hj => ?_⟩
  · obtain ⟨field, hfield, rfl⟩ := watchedAt_of_row hi
    rw [exec_fieldRow, State.writeWatched, offset_of_watchedAt hfield]
    refine congrArg Host.Outcome.next ?_
    simp only [State.hostWrite, bothWatched, Bool.false_and, Bool.false_eq_true, if_false, takeLane_off, wordBytes, laneBytes,
      if_true, List.append_nil, takeLane_watched hfield, lowByte_eq]
  · obtain ⟨field, hfield, rfl⟩ := watchedAt_of_row hi
    rw [exec_fieldRow, State.writeWatched, offset_of_watchedAt hfield]
    refine congrArg Host.Outcome.next ?_
    simp only [State.hostWrite, bothWatched, Bool.true_and, Bool.false_and, Bool.false_eq_true, if_false, takeLane_off, wordBytes,
      laneBytes, if_true, List.nil_append, takeLane_watched hfield, highByte_eq]
  · obtain ⟨field, hfield, rfl⟩ := watchedAt_of_row hi
    have hnone := watchedAt_of_no_row hhigh
    rw [exec_fieldRow, State.writeWatched, offset_of_watchedAt hfield]
    refine congrArg Host.Outcome.next ?_
    have hunwatched (u : State) (v : Byte) : u.takeLane true (2 * w.toNat + 1) v = u := takeLane_unwatched (fun _ => hnone) u v
    simp only [State.hostWrite, bothWatched, Bool.true_and, hnone, Option.isSome_none, Bool.and_false, Bool.false_eq_true, if_false,
      wordBytes, laneBytes, if_true, List.cons_append, List.nil_append, takeLane_watched hfield, hunwatched, lowByte_eq, highByte_eq]
    refine congrArg (State.takeField · field _) ?_
    by_cases hlanded : s.landed = 0
    · have hw : 2 * w.toNat + 1 < 65536 := by omega
      simp only [State.arrive, hlanded, if_true, State.pokeEach, List.foldl_cons, List.foldl_nil, State.poke,
        Nat.mod_eq_of_lt hw, Nat.mod_eq_of_lt (show 2 * w.toNat < 65536 by omega),
        write_comm hmem (show 2 * w.toNat < 65536 by omega) hw (by omega)]
    · simp only [State.arrive, hlanded, if_false]
  · obtain ⟨low, hlow, rfl⟩ := watchedAt_of_row hi
    obtain ⟨high, hhigh, rfl⟩ := watchedAt_of_row hj
    refine ⟨_, rfl, ?_⟩
    have hbytes : wordBytes w true true data =
        [(2 * w.toNat, data.setWidth 8), (2 * w.toNat + 1, (data >>> 8).setWidth 8)] := wordBytes_eq w true true data
    have harrive : s.arrive (wordBytes w true true data) =
        arrived s [(2 * w.toNat, data.setWidth 8), (2 * w.toNat + 1, (data >>> 8).setWidth 8)] := by
      rw [hbytes]
      refine arrive_eq_arrived (fun b hb => ?_) s
      obtain rfl | hb := List.mem_cons.mp hb
      · show 2 * w.toNat < 65536
        omega
      · obtain rfl := List.mem_singleton.mp hb
        show 2 * w.toNat + 1 < 65536
        omega
    have hboth : bothWatched true true (2 * w.toNat) = true := by simp [bothWatched, hlow, hhigh]
    simp only [thenTaken_fieldRow, State.hostWrite, hboth, if_true, harrive, takeLane_watched hlow, takeLane_watched hhigh,
      lowByte_eq, highByte_eq]
    by_cases hfirst : Config.lowByteFirst s.choices = true
    · exact .inl (by rw [if_pos hfirst])
    · exact .inr (by rw [if_neg hfirst])

/-! ## The interrupt enable and the sticky flags -/

theorem takeInterruptEnable_eq (u : State) (v : Byte) : u.takeInterruptEnable v = { u with notice := { u.notice with
    irqEnable := v.getLsbD 0
    irq := v.getLsbD 0 && decide (u.notice.fill ≠ u.notice.takeCopy) } } := by
  have hne : (u.notice.fill != u.notice.takeCopy) = decide (u.notice.fill ≠ u.notice.takeCopy) := by
    by_cases h : u.notice.fill = u.notice.takeCopy <;> simp [h]
  rw [← hne]
  rfl

/-- Settles O10: the byte arrives, and the Notice Unit takes its bit 0. -/
theorem interruptEnableSetsIrqAfresh : Obligations.InterruptEnableSetsIrqAfresh := by
  intro s v hmem
  have harrived := arrive_arrived hmem (a := 0x0B) (by decide) v
  refine ⟨(s.arrive [(0x0B, v)]).takeField .interruptEnable v, rfl, ?_⟩
  generalize s.arrive [(0x0B, v)] = u at harrived
  rw [State.takeField, harrived.station]
  by_cases hreset : s.station.state = .reset
  · rw [if_pos hreset, if_pos hreset]
    exact ⟨harrived.frame, harrived.lands, harrived.window⟩
  · rw [if_neg hreset, if_neg hreset, takeInterruptEnable_eq, harrived.notice]
    exact ⟨by rw [harrived.frame], harrived.lands, harrived.window⟩

theorem stickyByte_eq (q : Quality) : q.stickyByte = flagsByte q := by
  rw [Quality.stickyByte, flagsByte]
  cases q.mutedSeen <;> cases q.wentGood <;> cases q.wentPoor <;> rfl

/-- The sticky flags' field is written as the flags stand, its high byte 0 (R133). -/
theorem showSticky_shows {s : State} (hmem : MemoryLaw s) :
    s.showSticky.peek 0x1A = flagsByte s.quality ∧ s.showSticky.peek 0x1B = 0 ∧ sameWindow s s.showSticky [0x1A, 0x1B] := by
  obtain ⟨hlow, hhigh⟩ := peek_pokeHalf_same s offSticky (s.quality.stickyByte.zeroExtend 16) hmem (by decide)
  refine ⟨hlow.trans ?_, hhigh.trans ?_, fun a ha hout => ?_⟩
  · rw [← stickyByte_eq, lowByte_eq]
    exact BitVec.setWidth_setWidth_of_le _ (by decide)
  · rw [highByte_eq]
    bv_omega
  · simp only [List.mem_cons, List.not_mem_nil, or_false, not_or] at hout
    exact peek_pokeHalf_ne _ _ _ _ (by decide) ha hout.1 hout.2

/-- Settles O11: by the lanes of the read. -/
theorem stickyReadReturnsAndClears : Obligations.StickyReadReturnsAndClears := by
  intro s be1 be0 hmem
  refine ⟨s.stickyRead be1 be0, rfl, fun h => ?_, fun h => ?_⟩
  · rw [State.stickyRead, if_pos h]
    rfl
  · rw [State.stickyRead, if_neg h]
    cases be0 with
    | false => exact ⟨rfl, fun h => (Bool.false_ne_true h).elim, fun _ _ _ => rfl⟩
    | true =>
      obtain ⟨hlow, hhigh, hwindow⟩ := showSticky_shows (s := { s with
        bus := ⟨lane be1 0, lane true s.quality.stickyByte⟩
        quality.wentPoor := false, quality.wentGood := false, quality.mutedSeen := false }) hmem
      refine ⟨?_, fun _ => ⟨hlow, hhigh⟩, hwindow⟩
      rw [← stickyByte_eq]
      rfl

end Sys2Proof.Proofs
end

section
namespace Sys2Proof.Proofs

open Sys2Proof Sys2Proof.Machine Sys2Proof.Claims Sys2Proof.Safety Sys2Proof.Laws

/-! ## Work on one circuit, the notices and the window -/

theorem onlyCircuit_trans {s t u : State} {c : CircuitNo} (h : onlyCircuit s t c) (g : onlyCircuit t u c) : onlyCircuit s u c :=
  ⟨g.1.trans (by rw [h.1]), fun d hd => (g.2 d hd).trans (h.2 d hd)⟩

theorem onlyCircuit_updCircuit (s : State) (c : CircuitNo) (f : Circuit → Circuit) : onlyCircuit s (s.updCircuit c f) c :=
  ⟨rfl, fun d hd => circuit_updCircuit_other s c d f hd⟩

theorem onlyCircuit_of_window {s t : State} (c : CircuitNo) (h : t = { s with window := t.window }) : onlyCircuit s t c :=
  ⟨h.trans (by rw [h]), fun d _ => by rw [h]; rfl⟩

theorem onlyCircuit_of_noticeOnly {s t : State} (c : CircuitNo) (h : NoticeOnly s t) : onlyCircuit s t c :=
  ⟨h.eq.trans (by rw [h.circuits]), fun d _ => h.circuit d⟩

theorem onlyCircuit_refl (s : State) (c : CircuitNo) : onlyCircuit s s c := ⟨rfl, fun _ _ => rfl⟩

theorem onlyCircuit_pokeRecord (s : State) (c : CircuitNo) (off : Nat) (v : Byte) : onlyCircuit s (s.pokeRecord c off v) c :=
  onlyCircuit_of_window c rfl

theorem onlyCircuit_pokeRecordHalf (s : State) (c : CircuitNo) (off : Nat) (v : Half) : onlyCircuit s (s.pokeRecordHalf c off v) c :=
  onlyCircuit_of_window c rfl

theorem onlyCircuit_raise (s : State) (c : CircuitNo) (p : NoticePair) : onlyCircuit s (s.raise p) c :=
  onlyCircuit_of_noticeOnly c (raise_only s p)

theorem onlyCircuit_testStall (s : State) (c : CircuitNo) : onlyCircuit s (s.testStall c) c := onlyCircuit_updCircuit s c _

theorem Arrived.onlyCircuit {s u t : State} {a : Nat} {v : Byte} {c : CircuitNo} (h : Arrived s u a v) (g : onlyCircuit u t c) :
    onlyCircuit { s with landed := s.landed - 1 } t c :=
  ⟨g.1.trans (by rw [h.frame]), fun d hd => (g.2 d hd).trans (h.circuit d)⟩

/-! ## Bytes that a raise leaves alone -/

theorem not_mem_raiseBytes {a : Nat} (h : a < 0x0F ∨ (0x12 < a ∧ a < 0x0600) ∨ 0x0800 ≤ a) (s : State) (n : Nat) :
    a ∉ raiseBytes s n := fun hmem => by
  have := raiseBytes_range hmem
  omega

theorem record_not_mem_raiseBytes (c : CircuitNo) {off : Nat} (hoff : off < 0x40) (s : State) (n : Nat) :
    recordBase c + off ∉ raiseBytes s n := by
  have := recordBase_range c
  exact not_mem_raiseBytes (by omega) s n

theorem mem_recordBytes_iff {c : CircuitNo} {offs : List Nat} {a : Nat} :
    a ∈ recordBytes c offs ↔ ∃ off ∈ offs, recordBase c + off = a := List.mem_map

theorem record_mem_recordBytes {c : CircuitNo} {offs : List Nat} {off : Nat} : recordBase c + off ∈ recordBytes c offs ↔ off ∈ offs := by
  simp [mem_recordBytes_iff]

theorem record_lt (c : CircuitNo) {off : Nat} (hoff : off < 0x40) : recordBase c + off < 65536 := by
  have := recordBase_range c
  omega

/-! ## Faults and posts -/

/-- A fault on a record writes its kind and raises FAULT (R136). -/
theorem recordFault_shows {s u : State} {c : CircuitNo} {offs : List Nat} (hnotice : u.notice = s.notice) (hmem : MemoryLaw u)
    (h : sameWindow s u offs) (kind : FaultKind) :
    (u.recordFault c kind).circuit c = { u.circuit c with faultKind := kind } ∧
      raisedIn s (u.recordFault c kind) (.circuit c .fault) ∧ (u.recordFault c kind).peek (recordBase c + 0x0F) = kind.code ∧
      sameWindow s (u.recordFault c kind) (offs ++ recordBytes c [0x0F] ++ raiseBytes s 1) := by
  have hpoke := pokeRecord_sameWindow (u.updCircuit c fun k => { k with faultKind := kind }) c (off := recFaultKind) (by decide) kind.code
  have hraise := raise_after (s := s)
    (u := (u.updCircuit c fun k => { k with faultKind := kind }).pokeRecord c recFaultKind kind.code) hnotice
    (pokeRecord_wf (s := u.updCircuit c fun k => { k with faultKind := kind }) hmem c _ _) (sameWindow_trans h hpoke)
    (.circuit c .fault)
  refine ⟨recordFault_circuit u c kind, hraise.1, ?_, hraise.2⟩
  have := recordBase_range c
  exact (peek_raise_ne _ _ _ (by omega) (by omega) (by omega)).trans
    (peek_pokeRecord_same (s := u.updCircuit c fun k => { k with faultKind := kind }) hmem c (by decide) _)

theorem onlyCircuit_recordFault (s : State) (c : CircuitNo) (kind : FaultKind) : onlyCircuit s (s.recordFault c kind) c :=
  onlyCircuit_trans (onlyCircuit_updCircuit s c _) (onlyCircuit_trans (onlyCircuit_pokeRecord _ c _ _) (onlyCircuit_raise _ c _))

/-- The port watches the records of configured circuits while it serves (R146). -/
theorem watchesCircuit_eq_false_iff (s : State) (c : CircuitNo) :
    s.watchesCircuit c = false ↔ s.station.circuitCount ≤ c.val ∨ s.station.state.serves = false := by
  rw [State.watchesCircuit, State.configured, Bool.and_eq_false_iff, decide_eq_false_iff_not, Nat.not_lt]

/-- Settles O14: the post arrives, and the circuit takes it as its state and its ring admit. -/
theorem txPostIsTakenOrFaults : Obligations.TxPostIsTakenOrFaults := by
  intro s c v hmem
  have hlt := record_lt c (off := 0x30) (by decide)
  have harrived := arrive_arrived hmem hlt v
  refine ⟨(s.arrive [(recordBase c + 0x30, v)]).takeField (.txPost c) v, rfl, ?_⟩
  generalize s.arrive [(recordBase c + 0x30, v)] = u at harrived
  have hk := harrived.circuit c
  have hwatches : u.watchesCircuit c = s.watchesCircuit c := by rw [State.watchesCircuit, State.configured, harrived.station]; rfl
  rw [State.takeField, hwatches, State.takePost, hk]
  by_cases hidle : s.station.circuitCount ≤ c.val ∨ s.station.state.serves = false ∨ (s.circuit c).state = .free ∨
      (s.circuit c).state = .ended
  · have hsame : (if s.watchesCircuit c = true then
        if (s.circuit c).state = .free ∨ (s.circuit c).state = .ended then u
        else if (s.circuit c).postFits v = true then
          if (s.circuit c).state.transfers = true then (u.updCircuit c fun k => { k with postedCopy := v }).testStall c
          else u.updCircuit c fun k => { k with postedCopy := v }
        else u.recordFault c .postFault
      else u) = u := by
      cases hw : s.watchesCircuit c with
      | false => rfl
      | true =>
        have := mt (watchesCircuit_eq_false_iff s c).mpr (by simp [hw])
        exact (if_pos rfl).trans (if_pos ((or_assoc.mpr hidle).resolve_left this))
    rw [if_pos hidle, hsame]
    exact ⟨harrived.onlyCircuit (onlyCircuit_refl u c), harrived.lands, harrived.frame, harrived.window⟩
  · rw [if_neg hidle]
    obtain ⟨hcount, hserves, hfree, hended⟩ : ¬s.station.circuitCount ≤ c.val ∧ ¬s.station.state.serves = false ∧
        ¬(s.circuit c).state = .free ∧ ¬(s.circuit c).state = .ended := by simpa only [not_or] using hidle
    have hw : s.watchesCircuit c = true := by
      rw [← Bool.not_eq_false, watchesCircuit_eq_false_iff]
      exact not_or.mpr ⟨hcount, hserves⟩
    rw [if_pos hw, if_neg (not_or.mpr ⟨hfree, hended⟩)]
    have hfits : ((s.circuit c).postFits v = true) ↔ (span (s.circuit c).txDone v ≤ (s.circuit c).txSize ∧
        span (s.circuit c).txDone (s.circuit c).postedCopy ≤ span (s.circuit c).txDone v) := by
      rw [Circuit.postFits, Bool.and_eq_true, decide_eq_true_iff, decide_eq_true_iff]
      rfl
    by_cases hpost : span (s.circuit c).txDone v ≤ (s.circuit c).txSize ∧
        span (s.circuit c).txDone (s.circuit c).postedCopy ≤ span (s.circuit c).txDone v
    · rw [if_pos hpost, if_pos (hfits.mpr hpost)]
      have hposted := onlyCircuit_updCircuit u c fun k => { k with postedCopy := v }
      by_cases htransfers : (s.circuit c).state.transfers = true
      · rw [if_pos htransfers, if_pos htransfers, testStall_circuit, circuit_updCircuit_same, hk]
        exact ⟨harrived.onlyCircuit (onlyCircuit_trans hposted (onlyCircuit_testStall _ c)), harrived.lands, harrived.notice,
          harrived.window, rfl⟩
      · rw [if_neg htransfers, if_neg htransfers, circuit_updCircuit_same, hk]
        exact ⟨harrived.onlyCircuit hposted, harrived.lands, harrived.notice, harrived.window, rfl⟩
    · rw [if_neg hpost, if_neg (mt hfits.mp hpost)]
      obtain ⟨hcircuit, hraised, hkind, hwindow⟩ :=
        recordFault_shows (c := c) harrived.notice harrived.memory harrived.window .postFault
      have hfault := recordFault_shows (c := c) rfl harrived.memory (fun _ _ _ => rfl : sameWindow u u []) .postFault
      refine ⟨harrived.onlyCircuit (onlyCircuit_recordFault u c _), harrived.lands_of_sameWindow hfault.2.2.2 hlt ?_,
        hcircuit.trans (by rw [hk]), hraised, hkind, sameWindow_mono hwindow ?_⟩
      · simp [record_mem_recordBytes, record_not_mem_raiseBytes c (off := 0x30) (by decide)]
      · simp [recordBytes]

/-! ## Releases and GAP-ACK -/

/-- The room that a release makes is due to be announced, as the statements word it (R115). -/
theorem creditDue_release (k : Circuit) (v : Byte) (step : Nat) :
    ({ k with releaseCopy := v } : Circuit).creditDue step = releaseOwesAck k v step := by
  have hlimit : ({ k with releaseCopy := v } : Circuit).limitNow = k.expectedSeq + BitVec.ofNat 6 (k.rxSize - span v k.rxFill) := rfl
  rw [Circuit.creditDue, hlimit, releaseOwesAck, before, Bool.eq_iff_iff]
  simp only [Bool.and_eq_true, Bool.or_eq_true, decide_eq_true_iff, beq_iff_eq]
  tauto

/-- A release within the filled slots, and the ACK it owes (R115, R151). -/
theorem takeRelease_taken {u : State} {c : CircuitNo} {v : Byte} (hfree : (u.circuit c).state ≠ .free)
    (hspan : span (u.circuit c).releaseCopy v ≤ span (u.circuit c).releaseCopy (u.circuit c).rxFill) :
    onlyCircuit u (u.takeRelease c v) c ∧ (u.takeRelease c v).notice = u.notice ∧ (u.takeRelease c v).window = u.window ∧
      (u.takeRelease c v).circuit c = { u.circuit c with
        releaseCopy := v
        ackOwed := (u.circuit c).ackOwed ||
          (decide ((u.circuit c).mode = .assured) && (u.circuit c).state.transfers &&
            releaseOwesAck (u.circuit c) v (u.station.creditStep.getD 1)) } := by
  have htaken := onlyCircuit_updCircuit u c fun k => { k with releaseCopy := v }
  have heq : u.takeRelease c v = if (u.circuit c).mode = .assured ∧ (u.circuit c).state.transfers = true ∧
      releaseOwesAck (u.circuit c) v (u.station.creditStep.getD 1) = true
    then (u.updCircuit c fun k => { k with releaseCopy := v }).oweAck c
    else u.updCircuit c fun k => { k with releaseCopy := v } := by
    rw [State.takeRelease, if_neg hfree, if_pos (show span _ v ≤ (u.circuit c).filledSpan from hspan)]
    simp only [circuit_updCircuit_same, creditDue_release]
  rw [heq]
  by_cases hdue : (u.circuit c).mode = .assured ∧ (u.circuit c).state.transfers = true ∧
      releaseOwesAck (u.circuit c) v (u.station.creditStep.getD 1) = true
  · obtain ⟨hmode, htransfers, howes⟩ := hdue
    rw [if_pos ⟨hmode, htransfers, howes⟩]
    refine ⟨onlyCircuit_trans htaken (onlyCircuit_updCircuit _ c _), rfl, rfl, ?_⟩
    have hflag : (decide ((u.circuit c).mode = .assured) && (u.circuit c).state.transfers &&
        releaseOwesAck (u.circuit c) v (u.station.creditStep.getD 1)) = true := by
      rw [decide_eq_true hmode, htransfers, howes]
      rfl
    rw [State.oweAck, circuit_updCircuit_same, circuit_updCircuit_same, hflag, Bool.or_true]
  · rw [if_neg hdue]
    refine ⟨htaken, rfl, rfl, ?_⟩
    have hnot : (decide ((u.circuit c).mode = .assured) && (u.circuit c).state.transfers &&
        releaseOwesAck (u.circuit c) v (u.station.creditStep.getD 1)) = false := by
      rw [← Bool.not_eq_true, Bool.and_eq_true, Bool.and_eq_true, decide_eq_true_iff, and_assoc]
      exact hdue
    rw [circuit_updCircuit_same, hnot, Bool.or_false]

theorem Arrived.watchesCircuit {s u : State} {a : Nat} {v : Byte} (h : Arrived s u a v) (c : CircuitNo) :
    u.watchesCircuit c = s.watchesCircuit c := by
  rw [State.watchesCircuit, State.configured, h.station]
  rfl

/-- Settles O15: the release and the acknowledgement of a gap arrive, and the circuit takes them where the port watches it. -/
theorem releaseAndGapAckAreTaken : Obligations.ReleaseAndGapAckAreTaken := by
  refine ⟨fun s c v hmem => ?_, fun s c v hmem => ?_⟩
  · have hlt := record_lt c (off := 0x31) (by decide)
    have harrived := arrive_arrived hmem hlt v
    refine ⟨(s.arrive [(recordBase c + 0x31, v)]).takeField (.rxRelease c) v, rfl, ?_⟩
    generalize s.arrive [(recordBase c + 0x31, v)] = u at harrived
    have hk := harrived.circuit c
    rw [State.takeField, harrived.watchesCircuit]
    by_cases hidle : s.station.circuitCount ≤ c.val ∨ s.station.state.serves = false ∨ (s.circuit c).state = .free
    · have hsame : (if s.watchesCircuit c = true then u.takeRelease c v else u) = u := by
        cases hw : s.watchesCircuit c with
        | false => rfl
        | true =>
          have := mt (watchesCircuit_eq_false_iff s c).mpr (by simp [hw])
          rw [if_pos rfl, State.takeRelease, hk]
          exact if_pos ((or_assoc.mpr hidle).resolve_left this)
      rw [if_pos hidle, hsame]
      exact ⟨harrived.onlyCircuit (onlyCircuit_refl u c), harrived.lands, harrived.frame, harrived.window⟩
    · rw [if_neg hidle]
      obtain ⟨hcount, hserves, hfree⟩ : ¬s.station.circuitCount ≤ c.val ∧ ¬s.station.state.serves = false ∧
          ¬(s.circuit c).state = .free := by simpa only [not_or] using hidle
      have hw : s.watchesCircuit c = true := by
        rw [← Bool.not_eq_false, watchesCircuit_eq_false_iff]
        exact not_or.mpr ⟨hcount, hserves⟩
      rw [if_pos hw]
      by_cases hspan : span (s.circuit c).releaseCopy v ≤ span (s.circuit c).releaseCopy (s.circuit c).rxFill
      · obtain ⟨honly, hnotice, hwindow, hcircuit⟩ :=
          takeRelease_taken (u := u) (c := c) (v := v) (hk ▸ hfree) (by rw [hk]; exact hspan)
        rw [if_pos hspan]
        have hpeek (a : Nat) : (u.takeRelease c v).peek a = u.peek a := by rw [State.peek, hwindow]; rfl
        exact ⟨harrived.onlyCircuit honly, (hpeek _).trans harrived.lands, hnotice.trans harrived.notice,
          fun a ha hout => (hpeek a).trans (harrived.window a ha hout),
          hcircuit.trans (by rw [hk, harrived.station])⟩
      · have hfault : u.takeRelease c v = u.recordFault c .releaseFault := by
          rw [State.takeRelease, hk, if_neg hfree]
          exact if_neg hspan
        rw [if_neg hspan, hfault]
        obtain ⟨hcircuit, hraised, hkind, hwindow⟩ :=
          recordFault_shows (c := c) harrived.notice harrived.memory harrived.window .releaseFault
        have hwrites := recordFault_shows (c := c) rfl harrived.memory (fun _ _ _ => rfl : sameWindow u u []) .releaseFault
        refine ⟨harrived.onlyCircuit (onlyCircuit_recordFault u c _), harrived.lands_of_sameWindow hwrites.2.2.2 hlt ?_,
          hcircuit.trans (by rw [hk]), hraised, hkind, sameWindow_mono hwindow ?_⟩
        · simp [record_mem_recordBytes, record_not_mem_raiseBytes c (off := 0x31) (by decide)]
        · simp [recordBytes]
  · have hlt := record_lt c (off := 0x32) (by decide)
    have harrived := arrive_arrived hmem hlt v
    refine ⟨(s.arrive [(recordBase c + 0x32, v)]).takeField (.gapAck c) v, rfl, ?_⟩
    generalize s.arrive [(recordBase c + 0x32, v)] = u at harrived
    rw [State.takeField, harrived.watchesCircuit]
    by_cases hidle : s.station.circuitCount ≤ c.val ∨ s.station.state.serves = false
    · rw [if_pos hidle, (watchesCircuit_eq_false_iff s c).mpr hidle]
      exact ⟨harrived.onlyCircuit (onlyCircuit_refl u c), harrived.notice, harrived.lands, harrived.circuit c, harrived.window⟩
    · have hw : s.watchesCircuit c = true := by
        rw [← Bool.not_eq_false, watchesCircuit_eq_false_iff]
        exact hidle
      rw [if_neg hidle, if_pos hw, State.takeGapAck]
      have honly := onlyCircuit_updCircuit u c fun k => { k with firstGap := none }
      have hcircuit : (u.updCircuit c fun k => { k with firstGap := none }).circuit c = { s.circuit c with firstGap := none } := by
        rw [circuit_updCircuit_same, harrived.circuit c]
      have hnotice : (u.updCircuit c fun k => { k with firstGap := none }).notice = s.notice := harrived.notice
      have hmemory : MemoryLaw (u.updCircuit c fun k => { k with firstGap := none }) := harrived.memory
      have hpeek (a : Nat) : (u.updCircuit c fun k => { k with firstGap := none }).peek a = u.peek a := rfl
      generalize (u.updCircuit c fun k => { k with firstGap := none }) = w at *
      have hshown := peek_pokeHalf_same w (recordBase c + recFirstGap) 0xFFFF hmemory (record_lt c (off := 0x19) (by decide))
      have hwindow : sameWindow u (w.pokeRecordHalf c recFirstGap 0xFFFF) (recordBytes c [0x18, 0x19]) := by
        intro a ha hout
        simp only [recordBytes, List.map_cons, List.map_nil, List.mem_cons, List.not_mem_nil, or_false, not_or] at hout
        exact (peek_pokeHalf_ne _ _ _ _ (record_lt c (off := 0x19) (by decide)) ha hout.1 hout.2).trans (hpeek a)
      refine ⟨harrived.onlyCircuit (onlyCircuit_trans honly (onlyCircuit_pokeRecordHalf w c _ _)), hnotice,
        harrived.lands_of_sameWindow hwindow hlt ?_, hcircuit, hshown, sameWindow_mono (sameWindow_trans harrived.window hwindow) ?_⟩
      · simp [record_mem_recordBytes]
      · simp [recordBytes]

/-! ## The request post index -/

/-- Settles O12: the value arrives, and the Request Unit takes it or refuses it. -/
theorem requestPostIsTakenOrFaults : Obligations.RequestPostIsTakenOrFaults := by
  intro s v hmem
  have harrived := arrive_arrived hmem (a := 0x0C) (by decide) v
  refine ⟨(s.arrive [(0x0C, v)]).takeField .requestPost v, rfl, ?_⟩
  generalize s.arrive [(0x0C, v)] = u at harrived
  rw [State.takeField, harrived.station]
  by_cases hreset : s.station.state = .reset
  · rw [if_pos hreset, if_pos hreset]
    exact ⟨harrived.lands, harrived.frame.trans (by rw [harrived.frame]), harrived.frame, harrived.window⟩
  rw [if_neg hreset, if_neg hreset, State.takeRequestPost, harrived.requests]
  by_cases hfits : span s.requests.take v ≤ 16 ∧ span s.requests.take s.requests.postCopy ≤ span s.requests.take v
  · rw [if_pos hfits, if_pos (show span s.requests.take v ≤ Config.requestRoom ∧ _ from hfits)]
    exact ⟨harrived.lands, by rw [harrived.frame], by rw [harrived.frame], harrived.window⟩
  · rw [if_neg hfits, if_neg (show ¬(span s.requests.take v ≤ Config.requestRoom ∧ _) from hfits)]
    have hrefusal := writeRefusal_eq u v 0xFF 0 .queueFault
    have hmemory := writeRefusal_wf harrived.memory v 0xFF 0 .queueFault
    have hwindow := writeRefusal_sameWindow u v 0xFF 0 .queueFault
    have hshown {i : Nat} (hi : i < 6) := peek_writeRefusal harrived.memory v 0xFF 0 .queueFault hi
    generalize u.writeRefusal v 0xFF 0 .queueFault = w at *
    have hnotice : w.notice = s.notice := by rw [hrefusal]; exact harrived.notice
    have hrequests : w.requests = { s.requests with
        refusal := ⟨v, 0xFF, 0, 23⟩, refusalCount := s.requests.refusalCount + 1 } := by
      rw [hrefusal, ← harrived.requests]
      rfl
    have hraise := raise_after hnotice hmemory (sameWindow_trans harrived.window hwindow) (.station .refused)
    have honly := raise_only w (.station .refused)
    have hpeek {i : Nat} (hi : i < 6) : (w.raise (.station .refused)).peek (0x2A + i) =
        (refusalBytes u v 0xFF 0 .queueFault).getD i 0 :=
      (peek_raise_ne _ _ _ (by omega) (by omega) (by omega)).trans (hshown hi)
    refine ⟨?_, ?_, honly.requests.trans hrequests, hraise.1, hpeek (i := 0) (by decide), hpeek (i := 1) (by decide),
      hpeek (i := 2) (by decide), hpeek (i := 3) (by decide), ⟨?_, ?_⟩, hraise.2⟩
    · refine ((raise_sameWindow w (.station .refused) _ (by decide) (not_mem_raiseBytes (by decide) _ _)).trans
        (hwindow _ (by decide) ?_)).trans harrived.lands
      rw [mem_bytesFrom]
      decide
    · refine honly.eq.trans ?_
      rw [honly.requests, hrefusal, harrived.frame]
      rfl
    · exact (hpeek (i := 4) (by decide)).trans (by rw [← harrived.requests, ← lowByte_eq]; rfl)
    · exact (hpeek (i := 5) (by decide)).trans (by rw [← harrived.requests, ← highByte_eq]; rfl)

end Sys2Proof.Proofs
end

section
namespace Sys2Proof.Proofs

open Sys2Proof Sys2Proof.Machine Sys2Proof.Claims Sys2Proof.Safety Sys2Proof.Laws

/-! ## The slots of the attention queue -/

/-- The slot of the entry `k` places after the fill index (R132). -/
def entrySlot (n : Notice) (k : Nat) : Nat := 0x0600 + 8 * ((n.fill.toNat + k) % 64)

theorem entrySlot_range (n : Notice) (k : Nat) : 0x0600 ≤ entrySlot n k ∧ entrySlot n k + 8 ≤ 0x0800 := by
  unfold entrySlot
  omega

theorem entrySlot_zero (n : Notice) : entrySlot n 0 = entryOffset n.fill := rfl

/-- The slots after a fill index that has moved on. -/
theorem entrySlot_add {n n' : Notice} {j : Nat} (h : n'.fill = n.fill + BitVec.ofNat 8 j) (k : Nat) :
    entrySlot n' k = entrySlot n (j + k) := by
  have hfill : n'.fill.toNat % 64 = (n.fill.toNat + j) % 64 := by
    rw [h, BitVec.toNat_add, BitVec.toNat_ofNat]
    omega
  unfold entrySlot
  omega

/-- Slots of different places within the queue do not meet. -/
theorem entrySlot_apart (n : Notice) {j k a : Nat} (hj : j < 64) (hk : k < 64) (hne : j ≠ k)
    (ha : entrySlot n j ≤ a ∧ a < entrySlot n j + 8) : ¬(entrySlot n k ≤ a ∧ a < entrySlot n k + 8) := by
  unfold entrySlot at *
  omega

theorem mem_raiseBytes {s : State} {n a : Nat} :
    a ∈ raiseBytes s n ↔ n ≠ 0 ∧ ((0x0F ≤ a ∧ a ≤ 0x12) ∨ ∃ i, i < n ∧ entrySlot s.notice i ≤ a ∧ a < entrySlot s.notice i + 8) := by
  unfold raiseBytes
  split
  · next h => simp [h]
  · next h =>
    have hindices : a ∈ [0x0F, 0x10, 0x11, 0x12] ↔ 0x0F ≤ a ∧ a ≤ 0x12 := by
      simp only [List.mem_cons, List.not_mem_nil, or_false]
      omega
    rw [List.mem_append, hindices, List.mem_flatMap]
    simp only [List.mem_range, mem_bytesFrom]
    exact ⟨fun hmem => ⟨h, hmem⟩, fun hmem => hmem.2⟩

theorem raiseBytes_mono {s : State} {m n : Nat} (h : m ≤ n) : raiseBytes s m ⊆ raiseBytes s n := by
  intro a ha
  obtain ⟨hm, ha⟩ := mem_raiseBytes.mp ha
  refine mem_raiseBytes.mpr ⟨by omega, ha.imp_right ?_⟩
  rintro ⟨i, hi, hslot⟩
  exact ⟨i, by omega, hslot⟩

/-- The bytes of further causes, after the fill index has moved on. -/
theorem raiseBytes_add {s t : State} {j m n : Nat} (h : t.notice.fill = s.notice.fill + BitVec.ofNat 8 j) (hn : j + m ≤ n) :
    raiseBytes t m ⊆ raiseBytes s n := by
  intro a ha
  obtain ⟨hm, ha⟩ := mem_raiseBytes.mp ha
  refine mem_raiseBytes.mpr ⟨by omega, ha.imp_right ?_⟩
  rintro ⟨i, hi, hslot⟩
  rw [entrySlot_add h] at hslot
  exact ⟨j + i, by omega, hslot⟩

/-! ## Writing an entry (R158) -/

/-- The eight bytes of an entry with a given detail (R137). -/
def entryWith (u : State) (sequence : Byte) (p : NoticePair) (detail : Byte) : List Byte :=
  [sequence, p.sourceByte, p.causeByte, detail] ++ u.snapshotOf p

theorem entryWith_length (u : State) (sequence : Byte) (p : NoticePair) (detail : Byte) :
    (entryWith u sequence p detail).length = 8 := by
  rw [entryWith, List.length_append, snapshotOf_length]
  rfl

theorem entryWith_detailOf (u : State) (sequence : Byte) (p : NoticePair) :
    entryWith u sequence p (u.detailOf p) = entryBytes u sequence p := (entryBytes_eq u sequence p).symm

/-- The entry of a GAP has its missing count as the detail (R159). -/
theorem entryWith_gap (u : State) (sequence : Byte) (c : CircuitNo) (missing : Byte) :
    entryWith u sequence (.circuit c .gap) missing = entryBytes u sequence (.circuit c .gap) missing := rfl

theorem peek_writeEntry_slot {s : State} (hmem : MemoryLaw s) (p : NoticePair) (detail : Byte) {i : Nat} (hi : i < 8) :
    (s.writeEntry p detail).peek (entrySlot s.notice 0 + i) = (entryWith s s.notice.sequence p detail).getD i 0 := by
  have hrange := entryOffset_range s.notice.fill
  have hlength := entryWith_length s s.notice.sequence p detail
  have hfill : entryOffset s.notice.fill + i ≠ offAttentionFill := by
    show _ ≠ 0x0F
    omega
  have hsequence : entryOffset s.notice.fill + i ≠ offAttentionSequence := by
    show _ ≠ 0x10
    omega
  rw [entrySlot_zero, State.writeEntry]
  simp only [peek_updateIrq]
  rw [peek_poke_ne _ _ _ _ (by decide) (by omega) hfill, peek_poke_ne _ _ _ _ (by decide) (by omega) hsequence]
  exact peek_pokeBytes_same _ hmem _ i (by rw [← entryWith, hlength]; omega) (by rw [← entryWith, hlength]; exact hi)

/-- An entry reaches its slot, the sequence and the fill index alone. -/
theorem peek_writeEntry_other (s : State) (p : NoticePair) (detail : Byte) {a : Nat} (ha : a < 65536) (hfill : a ≠ 0x0F)
    (hsequence : a ≠ 0x10) (hslot : ¬(entrySlot s.notice 0 ≤ a ∧ a < entrySlot s.notice 0 + 8)) :
    (s.writeEntry p detail).peek a = s.peek a := by
  have hrange := entryOffset_range s.notice.fill
  have hlength := entryWith_length s s.notice.sequence p detail
  have hfill' : a ≠ offAttentionFill := hfill
  have hsequence' : a ≠ offAttentionSequence := hsequence
  rw [entrySlot_zero] at hslot
  rw [State.writeEntry]
  simp only [peek_updateIrq]
  rw [peek_poke_ne _ _ _ _ (by decide) ha hfill', peek_poke_ne _ _ _ _ (by decide) ha hsequence']
  exact peek_pokeBytes_ne _ s _ a (by rw [← entryWith, hlength]; omega) ha (by rw [← entryWith, hlength]; omega)

/-! ## Draining the pending set (R161) -/

/-- A pair that drains: it leaves the pending set, and its entry is written. -/
def drainedOne (s : State) (p : NoticePair) (rest : List NoticePair) : State :=
  (({ s with notice.waiting := rest } : State).showWaiting).writeEntry p
    ((({ s with notice.waiting := rest } : State).showWaiting).detailOf p)

theorem drainedOne_only (s : State) (p : NoticePair) (rest : List NoticePair) : NoticeOnly s (drainedOne s p rest) := by
  have hwaiting : NoticeOnly s { s with notice.waiting := rest } := by constructor <;> rfl
  exact (hwaiting.trans (showWaiting_only _)).trans (writeEntry_only _ p _)

theorem drainedOne_notice (s : State) (p : NoticePair) (rest : List NoticePair) (hroom : ¬64 ≤ s.notice.count) :
    (drainedOne s p rest).notice = { s.notice with
      waiting := rest
      sequence := s.notice.sequence + 1
      fill := s.notice.fill + 1
      held := s.notice.held ++ [p]
      irq := s.notice.irqEnable } := by
  have hne : (s.notice.fill + 1 != s.notice.takeCopy) = true := by simpa using fill_succ_ne_takeCopy hroom
  rw [drainedOne, writeEntry_notice]
  show ({ s.notice with
      waiting := rest
      sequence := s.notice.sequence + 1
      fill := s.notice.fill + 1
      held := s.notice.held ++ [p]
      irq := s.notice.irqEnable && s.notice.fill + 1 != s.notice.takeCopy } : Notice) = _
  rw [hne, Bool.and_true]

theorem drainedOne_wf {s : State} (hmem : MemoryLaw s) (p : NoticePair) (rest : List NoticePair) : MemoryLaw (drainedOne s p rest) :=
  writeEntry_wf (showWaiting_wf (s := { s with notice.waiting := rest }) hmem) p _

theorem drainedOne_sameWindow (s : State) (p : NoticePair) (rest : List NoticePair) :
    sameWindow s (drainedOne s p rest) (raiseBytes s 1) := by
  intro a ha hout
  have hbytes := mt mem_raiseBytes.mpr hout
  simp only [ne_eq, Nat.one_ne_zero, not_false_eq_true, true_and, Nat.lt_one_iff, exists_eq_left, not_or] at hbytes
  obtain ⟨hindices, hslot⟩ := hbytes
  refine (peek_writeEntry_other ({ s with notice.waiting := rest } : State).showWaiting p _ ha (by omega) (by omega) hslot).trans ?_
  refine showWaiting_sameWindow ({ s with notice.waiting := rest } : State) a ha ?_
  simp only [List.mem_cons, List.not_mem_nil, or_false]
  omega

theorem peek_drainedOne {s : State} (hmem : MemoryLaw s) (p : NoticePair) (rest : List NoticePair) :
    (drainedOne s p rest).peek 0x0F = s.notice.fill + 1 ∧ (drainedOne s p rest).peek 0x10 = s.notice.sequence + 1 ∧
      (drainedOne s p rest).peek 0x11 = (if rest = [] then 0 else 1) ∧
      (drainedOne s p rest).peek 0x12 = BitVec.ofNat 8 rest.length ∧
      ∀ i, i < 8 → (drainedOne s p rest).peek (entrySlot s.notice 0 + i) = (entryBytes s s.notice.sequence p).getD i 0 := by
  have hwaiting : NoticeOnly s { s with notice.waiting := rest } := by constructor <;> rfl
  have honly := hwaiting.trans (showWaiting_only { s with notice.waiting := rest })
  obtain ⟨hflag, hcount⟩ := peek_showWaiting (s := { s with notice.waiting := rest }) hmem
  have hwf := showWaiting_wf (s := { s with notice.waiting := rest }) hmem
  have hnotice : ({ s with notice.waiting := rest } : State).showWaiting.notice = { s.notice with waiting := rest } := rfl
  unfold drainedOne
  generalize ({ s with notice.waiting := rest } : State).showWaiting = u at *
  obtain ⟨hsequence, hfill⟩ := peek_writeEntry_indices hwf p (u.detailOf p)
  have hbelow {a : Nat} (h : a = 0x11 ∨ a = 0x12) : (u.writeEntry p (u.detailOf p)).peek a = u.peek a := by
    have := entrySlot_range u.notice 0
    exact peek_writeEntry_other u p _ (by omega) (by omega) (by omega) (by omega)
  have hslot : entrySlot u.notice 0 = entrySlot s.notice 0 := by rw [hnotice]; rfl
  refine ⟨hfill.trans (by rw [hnotice]), hsequence.trans (by rw [hnotice]), (hbelow (.inl rfl)).trans (hflag.trans ?_),
    (hbelow (.inr rfl)).trans hcount, fun i hi => ?_⟩
  · simp
  · rw [← hslot, peek_writeEntry_slot hwf p _ hi, entryWith_detailOf, entryBytes_congr honly, hnotice]

theorem drainPairs_step (s : State) (p : NoticePair) (rest : List NoticePair) (hroom : ¬64 ≤ s.notice.count) :
    s.drainPairs (p :: rest) = (drainedOne s p rest).drainPairs rest := (drainPairs_cons s p rest).trans (if_neg hroom)

/-- Nothing drained. -/
theorem drainedFrom_refl {s : State} (h : min s.notice.waiting.length (64 - span s.notice.takeCopy s.notice.fill) = 0) :
    drainedFrom s s [] := by
  unfold drainedFrom
  simp only [h]
  exact ⟨by simp, fun hne => absurd rfl hne, fun k hk => absurd hk (Nat.not_lt_zero k), fun _ _ _ => rfl⟩

/-- A pair drained, and then the rest. -/
theorem drainedFrom_cons {s t : State} {p : NoticePair} {rest : List NoticePair} (hmem : MemoryLaw s)
    (hl : s.notice.waiting = p :: rest) (hroom : ¬64 ≤ s.notice.count) (h : drainedFrom (drainedOne s p rest) t []) :
    drainedFrom s t [] := by
  have hnotice := drainedOne_notice s p rest hroom
  have honly := drainedOne_only s p rest
  have hwindow := drainedOne_sameWindow s p rest
  obtain ⟨hfill, hsequence, hflag, hcount, hentry⟩ := peek_drainedOne hmem p rest
  generalize drainedOne s p rest = u at *
  have hspan : span s.notice.takeCopy (s.notice.fill + 1) = s.notice.count + 1 := count_fill_succ (Nat.lt_of_not_le hroom)
  have hroom' : s.notice.count < 64 := Nat.lt_of_not_le hroom
  have hufill : u.notice.fill = s.notice.fill + BitVec.ofNat 8 1 := by rw [hnotice]; rfl
  have huspan : span u.notice.takeCopy u.notice.fill = s.notice.count + 1 := by rw [hnotice]; exact hspan
  have huwaiting : u.notice.waiting = rest := by rw [hnotice]
  have hmin : min (p :: rest).length (64 - span s.notice.takeCopy s.notice.fill) =
      min rest.length (64 - (s.notice.count + 1)) + 1 := by
    rw [List.length_cons]
    show min (rest.length + 1) (64 - s.notice.count) = _
    omega
  unfold drainedFrom at h ⊢
  simp only [huwaiting, huspan, List.nil_append] at h
  simp only [hl, hmin, List.nil_append]
  have hn : min rest.length (64 - (s.notice.count + 1)) ≤ 63 := by omega
  generalize min rest.length (64 - (s.notice.count + 1)) = n at *
  obtain ⟨htnotice, htshown, htentries, htwindow⟩ := h
  have hadd (x : Byte) : x + 1 + BitVec.ofNat 8 n = x + BitVec.ofNat 8 (n + 1) := by
    rw [BitVec.add_assoc, BitVec.ofNat_add, BitVec.add_comm (BitVec.ofNat 8 n)]
    rfl
  have htnotice' : t.notice = { s.notice with
      held := s.notice.held ++ (p :: rest).take (n + 1)
      waiting := (p :: rest).drop (n + 1)
      fill := s.notice.fill + BitVec.ofNat 8 (n + 1)
      sequence := s.notice.sequence + BitVec.ofNat 8 (n + 1)
      irq := s.notice.irqEnable } := by
    rw [htnotice, hnotice]
    simp only [hadd, List.take_succ_cons, List.drop_succ_cons, List.append_assoc, List.singleton_append, ite_self]
  refine ⟨htnotice'.trans ?_, fun _ => ?_, fun k hk q hq => ?_, ?_⟩
  · rw [if_neg (Nat.succ_ne_zero n)]
  · by_cases hzero : n = 0
    · have hsame {a : Nat} (ha : 0x0F ≤ a ∧ a ≤ 0x12) : t.peek a = u.peek a :=
        htwindow a (by omega) (fun hin => (mem_raiseBytes.mp hin).1 hzero)
      rw [hsame (by decide), hsame (by decide), hsame (by decide), hsame (by decide), htnotice', hzero]
      exact ⟨hfill, hsequence, hflag, hcount⟩
    · exact htshown hzero
  · cases k with
    | zero =>
      obtain rfl : p = q := by simpa using hq
      intro i hi
      have hrange := entrySlot_range s.notice 0
      have hout : entrySlot s.notice 0 + i ∉ raiseBytes u n := fun hin => by
        obtain ⟨-, hbelow | ⟨j, hj, hslot⟩⟩ := mem_raiseBytes.mp hin
        · omega
        · rw [entrySlot_add hufill] at hslot
          exact entrySlot_apart s.notice (j := 0) (k := 1 + j) (by decide) (by omega) (by omega) (by omega) hslot
      refine ((htwindow _ (by omega) hout).trans (hentry i hi)).trans ?_
      simp
    | succ k =>
      have hq' : q ∈ rest[k]? := by simpa using hq
      intro i hi
      have hshown := htentries k (by omega) q hq' i hi
      have hslot : entrySlot u.notice k = entrySlot s.notice (k + 1) := by rw [entrySlot_add hufill, Nat.add_comm]
      rw [entryBytes_congr honly, hnotice] at hshown
      have hsequence' : s.notice.sequence + 1 + BitVec.ofNat 8 k = s.notice.sequence + BitVec.ofNat 8 (k + 1) := by
        rw [BitVec.add_assoc, BitVec.ofNat_add, BitVec.add_comm (BitVec.ofNat 8 k)]
        rfl
      rw [← hsequence', ← hshown]
      have hslot' : 0x0600 + 8 * ((s.notice.fill.toNat + (k + 1)) % 64) = 0x0600 + 8 * (((s.notice.fill + 1).toNat + k) % 64) := by
        have := hslot
        rw [hnotice] at this
        exact this.symm
      rw [hslot']
  · exact sameWindow_mono (sameWindow_trans hwindow htwindow)
      (List.append_subset.mpr ⟨raiseBytes_mono (by omega), raiseBytes_add hufill (by omega)⟩)

/-- The pending set drains into the room there is (R161). -/
theorem drainPairs_drainedFrom {l : List NoticePair} {s : State} (hl : s.notice.waiting = l) (hmem : MemoryLaw s) :
    drainedFrom s (s.drainPairs l) [] := by
  induction l generalizing s with
  | nil => exact drainedFrom_refl (by rw [hl]; exact Nat.zero_min _)
  | cons p rest ih =>
    by_cases hroom : 64 ≤ s.notice.count
    · rw [(drainPairs_cons s p rest).trans (if_pos hroom)]
      refine drainedFrom_refl ?_
      show min _ (64 - s.notice.count) = 0
      omega
    · rw [drainPairs_step s p rest hroom]
      exact drainedFrom_cons hmem hl hroom
        (ih (by rw [drainedOne_notice s p rest hroom]) (drainedOne_wf hmem p rest))

end Sys2Proof.Proofs
end

section
namespace Sys2Proof.Proofs

open Sys2Proof Sys2Proof.Machine Sys2Proof.Claims Sys2Proof.Safety Sys2Proof.Laws

/-! ## Taking attention entries (R162) -/

/-- An entry's bytes depend neither on the Notice Unit nor on the window and the count of landed writes. -/
theorem entryBytes_blocks {s t : State} {n : Notice} {k : Nat} {w : Memory}
    (h : t = { s with notice := n, landed := k, window := w }) (sequence : Byte) (p : NoticePair) :
    entryBytes t sequence p = entryBytes s sequence p := by
  rw [h]
  rfl

/-- A drain of up to the room there is does not bring the fill index round to the take index (R163). -/
theorem fill_add_ne_take {fill take : Byte} {n : Nat} (hn : n ≠ 0) (hroom : n ≤ 64 - span take fill) :
    fill + BitVec.ofNat 8 n ≠ take := fun h => by
  rw [span] at hroom
  bv_omega

/-- With IRQ set afresh before a drain rather than after it, the drain leaves the same (R163). -/
theorem drainedFrom_irq {s b d : State} {offs : List Nat}
    (hb : b = { s with notice := b.notice, landed := b.landed, window := b.window }) (hwindow : sameWindow s b offs)
    (h : drainedFrom b d []) :
    drainedFrom { s with notice := { b.notice with irq := b.notice.irqEnable && decide (b.notice.fill ≠ b.notice.takeCopy) } }
      d.updateIrq offs := by
  obtain ⟨hnotice, hshown, hentries, hdrained⟩ := h
  have hn : min b.notice.waiting.length (64 - span b.notice.takeCopy b.notice.fill) ≤ 64 - span b.notice.takeCopy b.notice.fill :=
    Nat.min_le_right _ _
  refine ⟨?_, fun hne => ?_, fun k hk p hp i hi => ?_, ?_⟩
  · show ({ d.notice with irq := d.notice.irqEnable && d.notice.fill != d.notice.takeCopy } : Notice) = _
    rw [hnotice]
    simp only
    by_cases hzero : min b.notice.waiting.length (64 - span b.notice.takeCopy b.notice.fill) = 0
    · have hbne : (b.notice.fill != b.notice.takeCopy) = decide (b.notice.fill ≠ b.notice.takeCopy) := by
        by_cases h : b.notice.fill = b.notice.takeCopy <;> simp [h]
      rw [hzero, if_pos rfl, ← hbne, show b.notice.fill + BitVec.ofNat 8 0 = b.notice.fill from BitVec.add_zero _]
    · have hne : (b.notice.fill + BitVec.ofNat 8 (min b.notice.waiting.length (64 - span b.notice.takeCopy b.notice.fill)) !=
          b.notice.takeCopy) = true := by simpa using fill_add_ne_take hzero hn
      rw [if_neg hzero, hne, Bool.and_true]
  · exact hshown hne
  · refine (hentries k hk p hp i hi).trans ?_
    rw [entryBytes_blocks hb]
    rfl
  · exact sameWindow_trans hwindow hdrained

/-- Settles O13: the accepted value frees the entries it passes, and the pending set drains into the room. -/
theorem takingAttentionDrainsThePendingSet : Obligations.TakingAttentionDrainsThePendingSet := by
  refine ⟨fun s v hmem => ?_, fun s hmem => ⟨s.drainWaiting, rfl, (drainWaiting_only s).eq, drainPairs_drainedFrom rfl hmem⟩⟩
  have harrived := arrive_arrived hmem (a := 0x0E) (by decide) v
  refine ⟨(s.arrive [(0x0E, v)]).takeField .attentionTake v, rfl, ?_⟩
  generalize s.arrive [(0x0E, v)] = u at harrived
  rw [State.takeField, harrived.station]
  by_cases htaken : s.station.state ≠ .reset ∧ span s.notice.takeCopy v ≤ span s.notice.takeCopy s.notice.fill
  · obtain ⟨hreset, hspan⟩ := htaken
    rw [if_neg hreset, if_pos ⟨hreset, hspan⟩, State.takeAttention, harrived.notice,
      if_pos (show span s.notice.takeCopy v ≤ s.notice.count from hspan)]
    have hb : ({ u with notice := { s.notice with takeCopy := v, held := s.notice.held.drop (span s.notice.takeCopy v) } } : State) =
        { s with
          notice := { s.notice with takeCopy := v, held := s.notice.held.drop (span s.notice.takeCopy v) }
          landed := s.landed - 1
          window := u.window } := by
      rw [harrived.frame]
    have hlanded : ({ u with
        notice := { s.notice with takeCopy := v, held := s.notice.held.drop (span s.notice.takeCopy v) } } : State).landed =
        s.landed - 1 := by rw [hb]
    have hpeek (a : Nat) : ({ u with
        notice := { s.notice with takeCopy := v, held := s.notice.held.drop (span s.notice.takeCopy v) } } : State).peek a =
        u.peek a := rfl
    have hmemory : MemoryLaw { u with
        notice := { s.notice with takeCopy := v, held := s.notice.held.drop (span s.notice.takeCopy v) } } := harrived.memory
    have hnotice : ({ u with
        notice := { s.notice with takeCopy := v, held := s.notice.held.drop (span s.notice.takeCopy v) } } : State).notice =
        { s.notice with takeCopy := v, held := s.notice.held.drop (span s.notice.takeCopy v) } := rfl
    generalize ({ u with
        notice := { s.notice with takeCopy := v, held := s.notice.held.drop (span s.notice.takeCopy v) } } : State) = b at *
    have hframe : b = { s with notice := b.notice, landed := b.landed, window := b.window } := by rw [hb]
    have hwindow : sameWindow s b [0x0E] := fun a ha hout => (hpeek a).trans (harrived.window a ha hout)
    have hdrained : drainedFrom b b.drainWaiting [] := drainPairs_drainedFrom rfl hmemory
    have honly := drainWaiting_only b
    have hirq := drainedFrom_irq hframe hwindow hdrained
    rw [hnotice] at hirq
    refine ⟨?_, ?_, hirq⟩
    · show ({ b.drainWaiting with notice := _ } : State) = _
      rw [honly.eq, hb]
      rfl
    · exact (hdrained.2.2.2 0x0E (by decide) (not_mem_raiseBytes (by decide) _ _)).trans ((hpeek _).trans harrived.lands)
  · have hsame : (if s.station.state = .reset then u else u.takeAttention v) = u := by
      by_cases hreset : s.station.state = .reset
      · exact if_pos hreset
      · rw [if_neg hreset, State.takeAttention, harrived.notice]
        exact if_neg fun hspan => htaken ⟨hreset, hspan⟩
    rw [if_neg htaken, hsame]
    exact ⟨harrived.frame.trans (by rw [harrived.frame]), harrived.lands, harrived.notice, harrived.window⟩

end Sys2Proof.Proofs
end

section
namespace Sys2Proof.Proofs

open Sys2Proof Sys2Proof.Machine Sys2Proof.Claims Sys2Proof.Safety Sys2Proof.Laws

/-! ## Frames on the line -/

theorem frameLineBits_length (bytes : List Byte) : (frameLineBits bytes).length = 10 * bytes.length := by
  induction bytes with
  | nil => rfl
  | cons b rest ih =>
    cases rest with
    | nil => rfl
    | cons c rest =>
      rw [frameLineBits, List.length_append, ih]
      · simp only [lineBits, List.length_cons, List.length_append, List.length_map, List.length_nil]
        omega
      · exact List.cons_ne_nil c rest

/-- Settles O52: by the round trip of each field. -/
theorem framesSurviveTheLine : Obligations.FramesSurviveTheLine := by
  intro k f h
  have hlength := FrameLength.frameBytes_length k f
  exact ⟨classify_frameBytes h, hlength, by rw [frameLineBits_length, hlength]⟩

/-- The damaged tests, as the statements word them (R7). -/
theorem isDamaged_eq (bytes : List Byte) : isDamaged bytes = !countAndCheckFit bytes := by
  rw [isDamaged, countAndCheckFit]
  simp only [Bool.decide_and, Bool.and_assoc]
  rfl

theorem sourceOf_eq (bytes : List Byte) : sourceOf bytes = sourceField bytes := (BitVec.setWidth_eq_extractLsb' (by decide)).symm

theorem classify_damaged {truncated : Bool} {bytes : List Byte} (h : truncated = true ∨ isDamaged bytes = true) :
    classify truncated bytes = .damaged := by
  rw [isDamaged_eq] at h
  rw [classify, if_pos (by simpa using h)]

/-! ## The ends of frames and rounds -/

/-- A 16-bit field that was written. -/
theorem pokeHalf_shows {s : State} (hmem : MemoryLaw s) {a : Nat} (ha : a + 1 < 65536) (v : Half) :
    shows (s.pokeHalf a v) a v ∧ sameWindow s (s.pokeHalf a v) [a, a + 1] ∧ MemoryLaw (s.pokeHalf a v) := by
  refine ⟨peek_pokeHalf_same s a v hmem ha, fun x hx hout => ?_, pokeHalf_wf s a v hmem⟩
  simp only [List.mem_cons, List.not_mem_nil, or_false, not_or] at hout
  exact peek_pokeHalf_ne _ _ _ _ ha hx hout.1 hout.2

theorem shows_of_sameWindow {s t : State} {offs : List Nat} {a : Nat} {v : Half} (h : sameWindow s t offs) (ha : a + 1 < 65536)
    (hlow : a ∉ offs) (hhigh : a + 1 ∉ offs) (hshown : shows s a v) : shows t a v :=
  ⟨(h a (by omega) hlow).trans hshown.1, (h (a + 1) ha hhigh).trans hshown.2⟩

/-- A frame end without a source keeps B (R40). -/
theorem frameEnd_none (s : State) :
    s.frameEnd none = { s with arbiter := if s.arbiter.state = .busy then roundBegun s s.arbiter else s.arbiter } := by
  unfold State.frameEnd
  split
  · rw [beginRound_eq_roundBegun]
    rfl
  · rfl

/-- Settles O22: the two beginnings of a round test the line and the round timer. -/
theorem roundBeginsAfterSettlingAndSilence : Obligations.RoundBeginsAfterSettlingAndSilence := by
  refine ⟨fun s hline hquiet => congrArg Host.Outcome.next ?_, fun s hstate htimer => congrArg Host.Outcome.next ?_,
    fun s h => congrArg Host.Outcome.next ?_, fun s h => congrArg Host.Outcome.next ?_⟩
  · rw [State.lineSettled, if_pos ⟨hline, hquiet⟩]
    show (if s.arbiter.state = .waiting then ({ s with line.state := .idle } : State).beginRound else { s with line.state := .idle }) = _
    rw [beginRound_eq_roundBegun]
    by_cases hwaiting : s.arbiter.state = .waiting
    · rw [if_pos hwaiting, if_pos hwaiting]
      rfl
    · rw [if_neg hwaiting, if_neg hwaiting]
  · rw [if_pos ((silenceDue_iff s.arbiter).mpr ⟨hstate, htimer⟩), beginRound_eq_roundBegun]
  · rw [State.lineSettled, if_neg]
    rintro ⟨hline, hquiet⟩
    have hquiet' : 20 ≤ s.line.quiet := hquiet
    exact h.elim (· hline) fun hlt => by omega
  · rw [if_neg]
    intro hdue
    obtain ⟨hstate, htimer⟩ := (silenceDue_iff s.arbiter).mp hdue
    exact h.elim (· hstate) fun hlt => by omega

/-! ## Damaged and malformed frames -/

theorem countUp_eq (n : Half) : countUp n = if n = 0xFFFF then 0xFFFF else n + 1 := by
  unfold countUp
  split
  · assumption
  · rfl

theorem hear_damaged {s : State} {truncated : Bool} {bytes : List Byte} (hline : s.line.state = .hearing)
    (h : truncated = true ∨ isDamaged bytes = true) :
    s.hear truncated bytes = ({ s with line := heardLine s.line bytes (if truncated then 20 else 0) } : State).damagedEnd := by
  rw [State.hear, if_pos hline, classify_damaged h]
  rfl

theorem hear_malformed {s : State} {bytes : List Byte} (hline : s.line.state = .hearing) (h : isMalformed bytes) :
    s.hear false bytes = ({ s with line := heardLine s.line bytes } : State).malformedEnd (sourceField bytes) := by
  rw [State.hear, if_pos hline, h]
  rfl

theorem countDamaged_eq (s : State) : s.countDamaged = { s with
    quality := { s.quality with damagedHeard := s.quality.damagedHeard + 1, d := countUp s.quality.d }
    window := s.countDamaged.window } := rfl

theorem countDamaged_shows {s : State} (hmem : MemoryLaw s) :
    shows s.countDamaged 0x20 (s.quality.damagedHeard + 1) ∧ shows s.countDamaged 0x26 (countUp s.quality.d) ∧
      sameWindow s s.countDamaged [0x20, 0x21, 0x26, 0x27] := by
  obtain ⟨hheard, hwindow, hmem'⟩ := pokeHalf_shows (s := { s with
    quality.damagedHeard := s.quality.damagedHeard + 1, quality.d := countUp s.quality.d }) hmem (a := 0x20) (by decide)
    (s.quality.damagedHeard + 1)
  obtain ⟨hd, hwindow', -⟩ := pokeHalf_shows hmem' (a := 0x26) (by decide) (countUp s.quality.d)
  exact ⟨shows_of_sameWindow hwindow' (by decide) (by decide) (by decide) hheard, hd, sameWindow_trans hwindow hwindow'⟩

/-- Settles O25: the bytes are classed damaged, counted, and end the round with full-next set. -/
theorem damagedFramesAreCounted : Obligations.DamagedFramesAreCounted := by
  intro s bytes truncated hmem h
  refine ⟨s.hear truncated bytes, by cases truncated <;> rfl, ?_⟩
  by_cases hline : s.line.state = .hearing
  · rw [if_pos hline, hear_damaged hline h, State.damagedEnd, frameEnd_none]
    obtain ⟨hheard, hd, hwindow⟩ := countDamaged_shows
      (s := { s with line := heardLine s.line bytes (if truncated then 20 else 0) }) hmem
    refine ⟨?_, hheard, hd, hwindow⟩
    rw [← countUp_eq, countDamaged_eq]
    rfl
  · rw [if_neg hline, hear_of_ne hline]

theorem countMalformed_shows {s : State} (hmem : MemoryLaw s) :
    shows s.countMalformed 0x22 (s.quality.malformed + 1) ∧ sameWindow s s.countMalformed [0x22, 0x23] := by
  obtain ⟨hshown, hwindow, -⟩ := pokeHalf_shows (s := { s with quality.malformed := s.quality.malformed + 1 }) hmem (a := 0x22)
    (by decide) (s.quality.malformed + 1)
  exact ⟨hshown, hwindow⟩

/-- The source of a frame that is no new peer's: none, or a present peer's, whose age goes back to 0 (R23). -/
theorem rosterSource_known {s : State} {a : Address} (hown : a ≠ s.station.address) (h : a = 31 ∨ s.roster.isPresent a = true) :
    s.rosterSource a = { s with roster.entries := (s.rosterSource a).roster.entries } ∧
      ∀ b, b < 31 → (s.rosterSource a).roster.entry b = if b = a.toNat then ⟨true, 0⟩ else s.roster.entry b := by
  by_cases h31 : a = 31
  · have hsame : s.rosterSource a = s := if_pos (.inl h31)
    rw [hsame]
    refine ⟨rfl, fun b hb => (if_neg ?_).symm⟩
    rintro rfl
    rw [h31] at hb
    exact absurd hb (by decide)
  · rw [rosterSource_of_present h31 hown (h.resolve_left h31), State.refreshPeer, setEntry_of_ne_31 h31]
    refine ⟨rfl, fun b hb => ?_⟩
    rw [← entry_setEntry h31 _ hb, setEntry_of_ne_31 h31]

/-- A frame end with a source in BUSY: B is the source, unless it is 31 (R40). -/
theorem frameEnd_some {s : State} (hbusy : s.arbiter.state = .busy) (a : Address) :
    s.frameEnd (some a) = { s with arbiter := roundBegun s { s.arbiter with base := if a = 31 then s.arbiter.base else a } } := by
  rw [State.frameEnd, if_pos hbusy, beginRound_eq_roundBegun]
  rfl

/-- Settles O26: the frame is counted, its source refreshed, and the round ended. -/
theorem malformedFramesAreCounted : Obligations.MalformedFramesAreCounted := by
  intro s bytes hmem hbad hline hbusy hown hknown
  refine ⟨s.hear false bytes, rfl, ?_⟩
  rw [hear_malformed hline hbad, State.malformedEnd]
  obtain ⟨hshown, hwindow⟩ := countMalformed_shows (s := { s with line := heardLine s.line bytes }) hmem
  have hcounted : ({ s with line := heardLine s.line bytes } : State).countMalformed = { s with
      line := heardLine s.line bytes
      quality.malformed := s.quality.malformed + 1
      window := ({ s with line := heardLine s.line bytes } : State).countMalformed.window } := rfl
  generalize ({ s with line := heardLine s.line bytes } : State).countMalformed = u at *
  have hstation : u.station = s.station := by rw [hcounted]
  have hroster : u.roster = s.roster := by rw [hcounted]
  rw [duplicate_of_ne (hstation ▸ hown)]
  obtain ⟨hsource, hentries⟩ := rosterSource_known (s := u) (hstation ▸ hown) (hroster ▸ hknown)
  show let t := (u.rosterSource (sourceField bytes)).frameEnd (some (sourceField bytes)); _
  have hpeek (a : Nat) : (u.rosterSource (sourceField bytes)).peek a = u.peek a := by rw [hsource]; rfl
  generalize u.rosterSource (sourceField bytes) = v at *
  have harbiter : v.arbiter = s.arbiter := by rw [hsource, hcounted]
  rw [frameEnd_some (harbiter ▸ hbusy), harbiter]
  refine ⟨?_, fun a ha => (hentries a ha).trans (by rw [hroster]), ⟨(hpeek _).trans hshown.1, (hpeek _).trans hshown.2⟩,
    fun a ha hout => (hpeek a).trans (hwindow a ha hout)⟩
  generalize v.roster.entries = entries at *
  subst hsource
  rw [hcounted]
  rfl

end Sys2Proof.Proofs
end

section
namespace Sys2Proof.Proofs

open Sys2Proof Sys2Proof.Machine Sys2Proof.Claims Sys2Proof.Safety Sys2Proof.Laws

/-! ## Raising a pair if there is one -/

theorem raiseOption_wf {u : State} (hmem : MemoryLaw u) (due : Option NoticePair) : MemoryLaw (u.raiseOption due) := by
  cases due with
  | none => exact hmem
  | some p => exact raiseWith_wf u p _ hmem

theorem raiseOption_sameWindow (u : State) (due : Option NoticePair) : sameWindow u (u.raiseOption due) (raiseBytes u 1) := by
  cases due with
  | none => exact fun _ _ _ => rfl
  | some p => exact raise_sameWindow u p

/-- A raise, if there is one, in a state that differs from another in its window and blocks but the Notice Unit's. -/
theorem raiseOption_after {s u : State} {offs : List Nat} (hnotice : u.notice = s.notice) (hmem : MemoryLaw u)
    (h : sameWindow s u offs) (due : Option NoticePair) :
    raisedIfAny s (u.raiseOption due) due ∧ sameWindow s (u.raiseOption due) (offs ++ raiseBytes s 1) := by
  refine ⟨?_, ?_⟩
  · cases due with
    | none => exact ⟨fun p hp => (Option.not_mem_none p hp).elim, fun _ => hnotice⟩
    | some p =>
      refine ⟨fun q hq => ?_, (fun h => by cases h)⟩
      obtain rfl := Option.mem_some_iff.mp hq
      exact (raise_after hnotice hmem h p).1
  · rw [← raiseBytes_congr (congrArg Notice.fill hnotice)]
    exact sameWindow_trans h (raiseOption_sameWindow u due)

/-- Bytes below the attention queue, but its indices, that a raise leaves alone. -/
theorem peek_raiseOption_ne (u : State) (due : Option NoticePair) {a : Nat} (ha : a < 65536)
    (h : a < 0x0F ∨ (0x12 < a ∧ a < 0x0600) ∨ 0x0800 ≤ a) : (u.raiseOption due).peek a = u.peek a :=
  raiseOption_sameWindow u due a ha (not_mem_raiseBytes h u 1)

theorem peek_record_raiseOption (u : State) (due : Option NoticePair) (c : CircuitNo) {off : Nat} (hoff : off < 0x40) :
    (u.raiseOption due).peek (recordBase c + off) = u.peek (recordBase c + off) :=
  raiseOption_sameWindow u due _ (record_lt c hoff) (record_not_mem_raiseBytes c hoff u 1)

/-! ## A circuit goes FREE (R79) -/

/-- Circuit `c` of `s` has gone FREE in `u`, with a completion or none. -/
structure FreedAs (s u : State) (c : CircuitNo) (done : Option Completion) : Prop where
  only : CircuitOnly c s u
  circuit : u.circuit c = freed (s.circuit c) done
  orphans : u.orphans = movedConfirm s c
  selector : u.selector = flightForgets s c true
  notice : u.notice = s.notice
  wf : MemoryLaw u
  drops : showsDrops s u
  window : sameWindow s u ([0x30, 0x31] ++ freedBytes c)
  state : u.peek (recordBase c) = 0
  completion : ∀ d ∈ done, showsCompletion u c d
  unsent : (s.circuit c).state.live = true →
    u.peek (recordBase c + 0x20) = (s.circuit c).postedCopy - (s.circuit c).txDone

theorem goFree_freedAs {s : State} (hmem : MemoryLaw s) (c : CircuitNo) (done : Option Completion) :
    FreedAs s (s.goFree c done) c done := by
  cases done with
  | some d =>
    have h := goFree_freedWith hmem c d
    exact ⟨h.only, h.circuit, goFree_orphans s c d, h.selector, h.notice, h.wf, h.drops, h.window, h.state,
      fun d' hd => (Option.mem_some_iff.mp hd) ▸ h.completion, h.unsent⟩
  | none =>
    have hquiet : s.goFree c none = (quieted s c).setCircuitState c .free := rfl
    have hlater : sameWindow (quieted s c) (s.goFree c none) (recordBytes c [0x00]) := by
      rw [hquiet]
      exact setCircuitState_sameWindow _ c .free
    have hbelow (x : Nat) (hx : x < 0x0100) : (s.goFree c none).peek x = (quieted s c).peek x :=
      hlater x (by omega) (not_mem_recordBytes hx)
    exact {
      only := goFree_only s c _
      circuit := goFree_option_circuit s c none
      orphans := goFree_option_orphans s c none
      selector := goFree_option_selector s c none
      notice := by rw [hquiet]; exact quieted_notice s c
      wf := by rw [hquiet]; exact setCircuitState_wf (quieted_wf hmem c) c .free
      drops := showsDrops_congr_right (by rw [hquiet]; rfl) (hbelow _ (by decide)) (hbelow _ (by decide)) (quieted_showsDrops hmem c)
      window := sameWindow_mono (sameWindow_trans (withUnsent_sameWindow s c)
        (sameWindow_trans (releaseOwed_sameWindow_quieted s c) hlater)) (by simp [freedBytes, recordBytes])
      state := by rw [hquiet]; exact peek_setCircuitState (quieted_wf hmem c) c .free
      completion := fun d hd => (Option.not_mem_none d hd).elim
      unsent := fun hlive => (hlater _ (record_lt c (by decide)) (by simp [recordBytes])).trans (peek_unsent_quieted hmem hlive) }

/-- Going FREE with the request in flight completed, raising DONE, leaves what the statements say (R79, R157). -/
theorem freeWith_freedIn {s : State} (hmem : MemoryLaw s) (c : CircuitNo) (outcome : CompletionOutcome) :
    freedIn s (s.freeWith c outcome) c (completedWith (s.circuit c) outcome) ∧
      (s.freeWith c outcome).selector = flightForgets s c true ∧
      sameWindow s (s.freeWith c outcome) ([0x30, 0x31] ++ freedBytes c ++ raiseBytes s 1) := by
  have hdone : (s.circuit c).completes outcome = completedWith (s.circuit c) outcome := completes_eq _ _
  have heq : s.freeWith c outcome = (s.goFree c (completedWith (s.circuit c) outcome)).raiseOption
      (doneOf c (completedWith (s.circuit c) outcome)) := by rw [State.freeWith, hdone]
  rw [heq]
  have hfreed := goFree_freedAs hmem c (completedWith (s.circuit c) outcome)
  generalize completedWith (s.circuit c) outcome = done at *
  generalize s.goFree c done = u at *
  obtain ⟨hraised, hwindow⟩ := raiseOption_after hfreed.notice hfreed.wf hfreed.window (doneOf c done)
  have honly := raiseOption_only u (doneOf c done)
  refine ⟨⟨fun d hd => (honly.circuit d).trans (hfreed.only.others d hd), (honly.circuit c).trans hfreed.circuit,
    honly.orphans.trans hfreed.orphans, ?_, ?_, fun hlive => ?_, ?_, fun d hd => ?_⟩, honly.selector.trans hfreed.selector, hwindow⟩
  · exact showsDrops_congr_right honly.orphans (peek_raiseOption_ne u _ (by decide) (by decide))
      (peek_raiseOption_ne u _ (by decide) (by decide)) hfreed.drops
  · exact (peek_record_raiseOption u _ c (off := 0) (by decide)).trans hfreed.state
  · exact (peek_record_raiseOption u _ c (by decide)).trans (hfreed.unsent hlive)
  · cases done with
    | none => exact hraised.2 rfl
    | some d => exact hraised.1 _ rfl
  · exact showsCompletion_congr (fun off _ hoff => peek_record_raiseOption u _ c hoff) (hfreed.completion d hd)

/-- What a circuit's going FREE is said of depends on the circuits, the orphan list, the station and the Notice Unit alone, and on
the drop count's bytes. -/
theorem freedIn_congr {s u t : State} {c : CircuitNo} {done : Option Completion} (hcircuits : ∀ d, u.circuit d = s.circuit d)
    (horphans : u.orphans = s.orphans) (hstation : u.station = s.station) (hnotice : u.notice = s.notice)
    (hlow : u.peek 0x30 = s.peek 0x30) (hhigh : u.peek 0x31 = s.peek 0x31) (h : freedIn u t c done) : freedIn s t c done := by
  obtain ⟨hothers, hcircuit, horphan, hdrops, hstate, hunsent, hraised, hcompletion⟩ := h
  rw [hcircuits c] at hcircuit hunsent
  rw [movedConfirm, hcircuits c, horphans, hstation] at horphan
  refine ⟨fun d hd => (hothers d hd).trans (hcircuits d), hcircuit, horphan, ?_, hstate, hunsent, ?_, hcompletion⟩
  · exact showsDrops_congr (by rw [horphans]) hlow hhigh hdrops
  · cases done with
    | none => exact Eq.trans hraised hnotice
    | some d => exact raisedIn_congr hnotice hraised

/-! ## An OPEN circuit enters ENDED (R85, R91) -/

/-- The circuit in ENDED before ENDED is raised. -/
def endedQuiet (s : State) (c : CircuitNo) (cause : EndCause) (confirm : Bool) : State :=
  ((((if confirm then s.oweControl c .confirm else s.clearControl c).clearAckPoll c).updCircuit c fun k =>
    { k with dataRetryTimer := none, probeTimer := none, retryTimer := none, endCause := cause }).writeUnsent c |>.pokeRecord c
      recEndCause cause.code).setCircuitState c .ended

theorem enterEnded_eq (s : State) (c : CircuitNo) (cause : EndCause) (confirm : Bool) :
    s.enterEnded c cause confirm = (endedQuiet s c cause confirm).raise (.circuit c .ended) := rfl

/-- What the record shows of a circuit in ENDED. -/
structure EndedShows (s u : State) (c : CircuitNo) (cause : EndCause) : Prop where
  notice : u.notice = s.notice
  wf : MemoryLaw u
  window : sameWindow s u (recordBytes c [0x00, 0x02, 0x20])
  state : u.peek (recordBase c) = 6
  cause : u.peek (recordBase c + 0x02) = cause.code
  unsent : u.peek (recordBase c + 0x20) = (s.circuit c).postedCopy - (s.circuit c).txDone

/-- The owed state of a circuit that enters ENDED. -/
def endedOwed (s : State) (c : CircuitNo) (cause : EndCause) (confirm : Bool) : State :=
  ((if confirm then s.oweControl c .confirm else s.clearControl c).clearAckPoll c).updCircuit c fun k =>
    { k with dataRetryTimer := none, probeTimer := none, retryTimer := none, endCause := cause }

theorem endedOwed_frame (s : State) (c : CircuitNo) (cause : EndCause) (confirm : Bool) :
    (endedOwed s c cause confirm).notice = s.notice ∧ (endedOwed s c cause confirm).window = s.window ∧
      ((endedOwed s c cause confirm).circuit c).postedCopy = (s.circuit c).postedCopy ∧
      ((endedOwed s c cause confirm).circuit c).txDone = (s.circuit c).txDone := by
  unfold endedOwed
  rw [circuit_updCircuit_same, clearAckPoll_circuit]
  cases confirm
  · simp only [Bool.false_eq_true, if_false, clearControl_circuit]
    exact ⟨rfl, rfl, trivial, trivial⟩
  · simp only [if_true, oweControl_circuit]
    exact ⟨rfl, rfl, trivial, trivial⟩

theorem endedQuiet_shows {s : State} (hmem : MemoryLaw s) (c : CircuitNo) (cause : EndCause) (confirm : Bool) :
    EndedShows s (endedQuiet s c cause confirm) c cause := by
  obtain ⟨hnotice, hwindow, hposted, hdone⟩ := endedOwed_frame s c cause confirm
  have heq : endedQuiet s c cause confirm =
      (((endedOwed s c cause confirm).writeUnsent c).pokeRecord c recEndCause cause.code).setCircuitState c .ended := rfl
  rw [heq, State.writeUnsent, hposted, hdone]
  generalize endedOwed s c cause confirm = v at *
  have hsame (n : Byte) : (v.updCircuit c fun k => { k with unsentCount := n }).window = s.window := hwindow
  have hsame' (n : Byte) : (v.updCircuit c fun k => { k with unsentCount := n }).notice = s.notice := hnotice
  generalize hn : (s.circuit c).postedCopy - (s.circuit c).txDone = n at *
  have hwindow := hsame n
  have hnotice := hsame' n
  generalize v.updCircuit c (fun k => { k with unsentCount := n }) = w at *
  have hw : MemoryLaw w := by rw [MemoryLaw, hwindow]; exact hmem
  have hstart : sameWindow s w [] := fun a _ _ => by rw [State.peek, hwindow]; rfl
  have hunsent := pokeRecord_sameWindow w c (off := recUnsent) (by decide) n
  have hwf := pokeRecord_wf hw c recUnsent n
  have hshown := peek_pokeRecord_same hw c (off := recUnsent) (by decide) n
  have hnotice' : (w.pokeRecord c recUnsent n).notice = s.notice := hnotice
  generalize w.pokeRecord c recUnsent n = x at *
  have hcause := pokeRecord_sameWindow x c (off := recEndCause) (by decide) cause.code
  have hwf' := pokeRecord_wf hwf c recEndCause cause.code
  have hshown' := peek_pokeRecord_same hwf c (off := recEndCause) (by decide) cause.code
  have hnotice'' : (x.pokeRecord c recEndCause cause.code).notice = s.notice := hnotice'
  generalize x.pokeRecord c recEndCause cause.code = y at *
  have hstate := setCircuitState_sameWindow y c .ended
  exact {
    notice := hnotice''
    wf := setCircuitState_wf hwf' c .ended
    window := sameWindow_mono (sameWindow_trans (sameWindow_trans (sameWindow_trans hstart hunsent) hcause) hstate)
      (by simp [recordBytes, recUnsent, recEndCause])
    state := peek_setCircuitState hwf' c .ended
    cause := (hstate _ (record_lt c (by decide)) (by simp [recordBytes])).trans hshown'
    unsent := (hstate _ (record_lt c (by decide)) (by simp [recordBytes])).trans
      ((hcause (recordBase c + 0x20) (record_lt c (by decide)) (by simp [recordBytes, recEndCause])).trans (hshown.trans hn.symm)) }

theorem enterEnded_shows {s : State} (hmem : MemoryLaw s) (c : CircuitNo) (cause : EndCause) (confirm : Bool) :
    raisedIn s (s.enterEnded c cause confirm) (.circuit c .ended) ∧ (s.enterEnded c cause confirm).peek (recordBase c) = 6 ∧
      (s.enterEnded c cause confirm).peek (recordBase c + 0x02) = cause.code ∧
      (s.enterEnded c cause confirm).peek (recordBase c + 0x20) = (s.circuit c).postedCopy - (s.circuit c).txDone ∧
      sameWindow s (s.enterEnded c cause confirm) (recordBytes c [0x00, 0x02, 0x20] ++ raiseBytes s 1) := by
  have h := endedQuiet_shows hmem c cause confirm
  rw [enterEnded_eq]
  obtain ⟨hraised, hwindow⟩ := raise_after h.notice h.wf h.window (.circuit c .ended)
  have hrecord {off : Nat} (hoff : off < 0x40) := peek_record_raiseOption (endedQuiet s c cause confirm) (some (.circuit c .ended)) c hoff
  exact ⟨hraised, (hrecord (off := 0) (by decide)).trans h.state, (hrecord (by decide)).trans h.cause,
    (hrecord (by decide)).trans h.unsent, hwindow⟩

end Sys2Proof.Proofs
end

section
namespace Sys2Proof.Proofs

open Sys2Proof Sys2Proof.Machine Sys2Proof.Claims Sys2Proof.Safety Sys2Proof.Laws

/-! ## Good frames of a present peer -/

/-- A good frame's present set is examined where it is a ROLL (R30). -/
def examined (u : State) (k : Kind) (f : Frame) : State := if k = .roll then u.examineRoll f else u

/-- A good frame of a present peer, to whatever station it is addressed (R12, R23, R38). -/
theorem exec_frameRow_from {s : State} {k : Kind} {f : Frame} (h : hearsFrom k f s) (hpresent : s.roster.isPresent f.src = true) :
    exec (frameRow k f) s = .next (((examined (heardFrom s k f) k f).tableFrame k f).frameEnd (some f.src)) := by
  obtain ⟨-, hline, -, -, hrules, hown⟩ := h
  have hheard : s.hear false (frameBytes k f) = ({ s with line := heardLine s.line (frameBytes k f) } : State).goodEnd k f := by
    rw [State.hear, if_pos hline, classify_frameBytes hrules]
    rfl
  have hdup : ({ s with line := heardLine s.line (frameBytes k f) } : State).countGood.duplicate f.src = false :=
    duplicate_of_ne hown
  have hroster : ({ s with line := heardLine s.line (frameBytes k f) } : State).countGood.rosterSource f.src = heardFrom s k f :=
    rosterSource_of_present (src_ne_31 hrules) hown hpresent
  rw [exec_frameRow_hear, hheard, State.goodEnd]
  simp only [hdup, hroster, Bool.false_eq_true, if_false]
  rfl

theorem frameEnd_arbiter (v : State) (a : Option Address) : ∃ x, v.frameEnd a = { v with arbiter := x } := ⟨_, frameEnd_eq v a⟩

/-- Where the table leaves the other blocks and the count of good frames alone, a frame does what every good frame does to them. -/
theorem heardBlocks_from {s v : State} {k : Kind} {f : Frame} (hmem : MemoryLaw s) (h : hearsFrom k f s)
    (hv : v = { heardFrom s k f with circuits := v.circuits, orphans := v.orphans, notice := v.notice, window := v.window })
    (hcount : ∀ a ∈ heardBytes, v.peek a = (heardFrom s k f).peek a) : heardBlocks k f s (v.frameEnd (some f.src)) := by
  obtain ⟨-, -, hbusy, -, hrules, -⟩ := h
  have hsrc := src_ne_31 hrules
  have hroster : v.roster = s.roster.setEntry f.src ⟨true, 0⟩ := by rw [hv]; rfl
  rw [heardFrom_eq hsrc] at hv
  have harb : v.arbiter = s.arbiter := by rw [hv]
  rw [frameEnd_eq_roundBegun (harb ▸ hbusy) hsrc, harb]
  refine ⟨?_, fun a ha => ?_, ?_⟩
  · generalize v.circuits = c, v.orphans = o, v.notice = n, v.window = w at hv
    subst hv
    rfl
  · exact (congrArg (Roster.entry · a) hroster).trans (entry_setEntry hsrc _ ha)
  · have hshown : shows (heardFrom s k f) 0x1E (s.quality.goodHeard + 1) := peek_pokeHalf_same _ _ _ hmem (by decide)
    exact ⟨(hcount _ (by decide)).trans hshown.1, (hcount _ (by decide)).trans hshown.2⟩

theorem heardFrom_wf {s : State} (hmem : MemoryLaw s) (k : Kind) (f : Frame) : MemoryLaw (heardFrom s k f) := pokeHalf_wf _ _ _ hmem

theorem circuit_heardFrom (s : State) (k : Kind) (f : Frame) (d : CircuitNo) : (heardFrom s k f).circuit d = s.circuit d := rfl

theorem peek_heardFrom (s : State) (k : Kind) (f : Frame) {a : Nat} (ha : a < 65536) (hout : a ≠ 0x1E ∧ a ≠ 0x1F) :
    (heardFrom s k f).peek a = s.peek a := heardFrom_sameWindow s k f a ha (by simpa [heardBytes] using hout)

theorem sameWindow_of_heardFrom {s v : State} {k : Kind} {f : Frame} {offs : List Nat}
    (h : sameWindow (heardFrom s k f) v offs) : sameWindow s v (heardBytes ++ offs) :=
  sameWindow_trans (heardFrom_sameWindow s k f) h

/-- With no frame in flight no flag of one is forgotten (R54). -/
theorem flightForgets_of_none {s : State} (h : s.selector.inFlight = none) (c : CircuitNo) (control : Bool) :
    flightForgets s c control = s.selector := by
  rw [flightForgets, h, Option.map_none, ← h]

/-- A good frame that the Circuit Table takes: what the table leaves is all that shows beside the hearing of the frame. -/
theorem frame_taken {s v : State} {k : Kind} {f : Frame} {offs : List Nat} (hmem : MemoryLaw s) (h : hears k f s) (hk : k ≠ .roll)
    (htable : (heardFrom s k f).tableFrame k f = v) (honly : CircuitsOnly (heardFrom s k f) v) (hselector : v.selector = s.selector)
    (hwindow : sameWindow (heardFrom s k f) v offs) (hlow : 0x1E ∉ offs) (hhigh : 0x1F ∉ offs) :
    ∃ x, exec (frameRow k f) s = .next { v with arbiter := x } ∧ heardBlocks k f s { v with arbiter := x } := by
  obtain ⟨hfrom, -, hpresent⟩ := h
  obtain ⟨x, hx⟩ := frameEnd_arbiter v (some f.src)
  refine ⟨x, ?_, ?_⟩
  · rw [exec_frameRow_from hfrom hpresent, examined, if_neg hk, htable, hx]
  · rw [← hx]
    refine heardBlocks_from hmem hfrom ((circuitsOnly_eq honly).trans ?_) fun a ha => ?_
    · have : v.selector = (heardFrom s k f).selector := hselector
      rw [this]
    · simp only [heardBytes, List.mem_cons, List.not_mem_nil, or_false] at ha
      obtain rfl | rfl := ha
      · exact hwindow _ (by decide) hlow
      · exact hwindow _ (by decide) hhigh

/-- A good frame that leaves no mark beside its hearing. -/
theorem frame_passes {s : State} {k : Kind} {f : Frame} (hmem : MemoryLaw s) (h : hears k f s) (hk : k ≠ .roll)
    (htable : (heardFrom s k f).tableFrame k f = heardFrom s k f) :
    ∃ t, exec (frameRow k f) s = .next t ∧ heardBlocks k f s t ∧ allCircuitsSame s t ∧ t.notice = s.notice ∧
      t.orphans = s.orphans ∧ sameWindow s t heardBytes := by
  obtain ⟨x, hexec, hblocks⟩ := frame_taken hmem h hk htable (.refl _) rfl (fun _ _ _ => rfl : sameWindow _ _ [])
    List.not_mem_nil List.not_mem_nil
  exact ⟨_, hexec, hblocks, fun _ => rfl, rfl, rfl, heardFrom_sameWindow s k f⟩

/-! ## Frames that reach a circuit (R65) -/

theorem tableFrame_circuit {u : State} {k : Kind} {f : Frame} (hdst : f.dst = u.station.address) (hcall : k ≠ .call) (hroll : k ≠ .roll) :
    u.tableFrame k f = u.takeCircuitFrame k f := by
  unfold State.tableFrame
  rw [if_neg (not_not.mpr hdst)]
  cases k with
  | call => exact absurd rfl hcall
  | roll => exact absurd rfl hroll
  | _ => rfl

theorem matchesPeer_of_reaches {f : Frame} {s : State} (h : reaches f s) : (s.circuit f.dstCircuit).matchesPeer f = true := by
  rw [Circuit.matchesPeer, Bool.and_eq_true, beq_iff_eq, beq_iff_eq]
  exact h.2

/-- What a frame that reaches its circuit does, by the circuit's state. -/
theorem takeCircuitFrame_of_reaches {u : State} {k : Kind} {f : Frame} (h : reaches f u) :
    ((u.circuit f.dstCircuit).state = .opened → u.takeCircuitFrame k f = u.openFrame k f.dstCircuit f) ∧
    ((u.circuit f.dstCircuit).state = .draining → u.takeCircuitFrame k f = u.drainingFrame k f.dstCircuit f) ∧
    ((u.circuit f.dstCircuit).state = .clearing → u.takeCircuitFrame k f = u.clearingFrame k f.dstCircuit) ∧
    ((u.circuit f.dstCircuit).state = .ended → u.takeCircuitFrame k f = u.endedFrame k f.dstCircuit f) := by
  have hconfigured : u.configured f.dstCircuit = true := decide_eq_true h.1
  have hmatches := matchesPeer_of_reaches h
  refine ⟨fun hs => ?_, fun hs => ?_, fun hs => ?_, fun hs => ?_⟩ <;>
    simp [State.takeCircuitFrame, hconfigured, hs, hmatches]

/-! ## Clearing from the peer -/

theorem hears_inFlight {k : Kind} {f : Frame} {s : State} (h : hears k f s) : s.selector.inFlight = none := by
  obtain ⟨⟨-, -, -, hflight, -⟩, -⟩ := h
  exact hflight

theorem hears_keepsRules {k : Kind} {f : Frame} {s : State} (h : hears k f s) : keepsRules k f = true := by
  obtain ⟨⟨-, -, -, -, hrules, -⟩, -⟩ := h
  exact hrules

/-- A matching frame that frees its circuit with a completion (R79, R84, R86). -/
theorem frame_frees {s u : State} {k : Kind} {f : Frame} {outcome : CompletionOutcome} (hmem : MemoryLaw s) (h : hears k f s)
    (hk : k ≠ .roll) (honly : CircuitsOnly (heardFrom s k f) u) (hselector : u.selector = s.selector)
    (hwindow : u.window = (heardFrom s k f).window)
    (htable : (heardFrom s k f).tableFrame k f = u.freeWith f.dstCircuit outcome) :
    ∃ x, let t : State := { u.freeWith f.dstCircuit outcome with arbiter := x }
      exec (frameRow k f) s = .next t ∧ heardBlocks k f s t ∧
      freedIn u t f.dstCircuit (completedWith (u.circuit f.dstCircuit) outcome) ∧
      sameWindow s t (heardBytes ++ ([0x30, 0x31] ++ freedBytes f.dstCircuit ++ raiseBytes u 1)) := by
  have hu : MemoryLaw u := by rw [MemoryLaw, hwindow]; exact heardFrom_wf hmem k f
  have hflight : u.selector.inFlight = none := hselector ▸ hears_inFlight h
  obtain ⟨hfreed, hforgets, hbytes⟩ := freeWith_freedIn hu f.dstCircuit outcome
  have hsame : sameWindow (heardFrom s k f) (u.freeWith f.dstCircuit outcome)
      ([0x30, 0x31] ++ freedBytes f.dstCircuit ++ raiseBytes u 1) := fun a ha hout =>
    (hbytes a ha hout).trans (by rw [State.peek, hwindow]; rfl)
  have hapart {a : Nat} (ha : a = 0x1E ∨ a = 0x1F) : a ∉ [0x30, 0x31] ++ freedBytes f.dstCircuit ++ raiseBytes u 1 := by
    have hrecord : a ∉ freedBytes f.dstCircuit := not_mem_recordBytes (by omega)
    have hraise := not_mem_raiseBytes (a := a) (by omega) u 1
    simp only [List.mem_append, List.mem_cons, List.not_mem_nil, or_false, not_or]
    exact ⟨⟨by omega, hrecord⟩, hraise⟩
  obtain ⟨x, hexec, hblocks⟩ := frame_taken hmem h hk htable (honly.trans (freeWith_only u f.dstCircuit outcome).rest)
    (hforgets.trans ((flightForgets_of_none hflight _ _).trans hselector)) hsame (hapart (.inl rfl)) (hapart (.inr rfl))
  exact ⟨x, hexec, hblocks, hfreed, sameWindow_of_heardFrom hsame⟩

theorem hears_dst {k : Kind} {f : Frame} {s : State} (h : hears k f s) : f.dst = (heardFrom s k f).station.address := h.2.1

/-- Settles O37: by the state of the circuit that the frame reaches. -/
theorem peerClearAndConfirmEndTheCircuit : Obligations.PeerClearAndConfirmEndTheCircuit := by
  refine ⟨fun s f hmem h hreaches hstate => ?_, fun s f hmem h hreaches hstate => ?_, fun s f hmem h hreaches hstate => ?_,
    fun s f hmem h hreaches hstate => ?_⟩
  · have htable : (heardFrom s .clear f).tableFrame .clear f = (heardFrom s .clear f).enterEnded f.dstCircuit .peerCleared true :=
      (tableFrame_circuit (hears_dst h) (by decide) (by decide)).trans ((takeCircuitFrame_of_reaches (u := heardFrom s .clear f) hreaches).1 hstate)
    obtain ⟨hraised, hcode, hcause, hunsent, hwindow⟩ := enterEnded_shows (heardFrom_wf hmem .clear f) f.dstCircuit .peerCleared true
    have hcircuit := enterEnded_circuit (heardFrom s .clear f) f.dstCircuit .peerCleared true
    have horphans := enterEnded_orphans (heardFrom s .clear f) f.dstCircuit .peerCleared true
    have honly := enterEnded_only (heardFrom s .clear f) f.dstCircuit .peerCleared true
    have hselector : ((heardFrom s .clear f).enterEnded f.dstCircuit .peerCleared true).selector = s.selector := by
      rw [enterEnded_selector]
      exact flightForgets_of_none (s := heardFrom s .clear f) (show s.selector.inFlight = none from hears_inFlight h) _ _
    generalize (heardFrom s .clear f).enterEnded f.dstCircuit .peerCleared true = v at *
    have hapart {a : Nat} (ha : a = 0x1E ∨ a = 0x1F) :
        a ∉ recordBytes f.dstCircuit [0x00, 0x02, 0x20] ++ raiseBytes (heardFrom s .clear f) 1 := fun hin =>
      (List.mem_append.mp hin).elim (not_mem_recordBytes (by omega)) (not_mem_raiseBytes (by omega) _ _)
    obtain ⟨x, hexec, hblocks⟩ := frame_taken hmem h (by decide) htable honly.rest hselector hwindow
      (hapart (.inl rfl)) (hapart (.inr rfl))
    exact ⟨_, hexec, hblocks, honly.others, horphans, hcircuit, raisedIn_congr (u := heardFrom s .clear f) rfl hraised, hcode, hcause,
      hunsent, fun a ha hout => sameWindow_of_heardFrom hwindow a ha (by rwa [List.append_assoc] at hout)⟩
  · have hfrees (outcome : CompletionOutcome)
        (htable : (heardFrom s .clear f).tableFrame .clear f = (heardFrom s .clear f).clearedByPeer f.dstCircuit outcome) :
        ∃ t, exec (.clearReceived f) s = .next t ∧ heardBlocks .clear f s t ∧
          freedIn (s.updCircuit f.dstCircuit fun k => { k with controlOwed := some .confirm }) t f.dstCircuit
            (completedWith (s.circuit f.dstCircuit) outcome) ∧
          sameWindow s t (heardBytes ++ [0x30, 0x31] ++ freedBytes f.dstCircuit ++ raiseBytes s 1) := by
      obtain ⟨x, hexec, hblocks, hfreed, hwindow⟩ := frame_frees (u := (heardFrom s .clear f).oweControl f.dstCircuit .confirm) hmem h
        (by decide) (oweControl_only _ _ _).rest rfl rfl htable
      have hinFlight : (((heardFrom s .clear f).oweControl f.dstCircuit .confirm).circuit f.dstCircuit).inFlight =
          (s.circuit f.dstCircuit).inFlight := by rw [oweControl_circuit]; rfl
      have hdone : completedWith (((heardFrom s .clear f).oweControl f.dstCircuit .confirm).circuit f.dstCircuit) outcome =
          completedWith (s.circuit f.dstCircuit) outcome := by rw [completedWith, hinFlight]
      rw [hdone] at hfreed
      refine ⟨_, hexec, hblocks, freedIn_congr (u := (heardFrom s .clear f).oweControl f.dstCircuit .confirm)
        (fun d => rfl) rfl rfl rfl (peek_heardFrom s .clear f (a := 0x30) (by decide) (by decide))
        (peek_heardFrom s .clear f (a := 0x31) (by decide) (by decide)) hfreed, ?_⟩
      rw [List.append_assoc, List.append_assoc]
      exact hwindow
    have hdst := tableFrame_circuit (k := .clear) (hears_dst h) (by decide) (by decide)
    obtain hdraining | hclearing := hstate
    · rw [if_pos hdraining]
      exact hfrees _ (hdst.trans ((takeCircuitFrame_of_reaches (u := heardFrom s .clear f) hreaches).2.1 hdraining))
    · rw [if_neg (by rw [hclearing]; decide)]
      exact hfrees _ (hdst.trans ((takeCircuitFrame_of_reaches (u := heardFrom s .clear f) hreaches).2.2.1 hclearing))
  · have htable : (heardFrom s .clear f).tableFrame .clear f = (heardFrom s .clear f).oweControl f.dstCircuit .confirm :=
      ((tableFrame_circuit (hears_dst h) (by decide) (by decide)).trans ((takeCircuitFrame_of_reaches (u := heardFrom s .clear f) hreaches).2.2.2 hstate)).trans
        (if_pos h.1.1)
    obtain ⟨x, hexec, hblocks⟩ := frame_taken hmem h (by decide) htable (oweControl_only _ _ _).rest rfl
      (fun _ _ _ => rfl : sameWindow _ _ []) List.not_mem_nil List.not_mem_nil
    exact ⟨_, hexec, hblocks, (oweControl_only (heardFrom s .clear f) f.dstCircuit .confirm).others, rfl, rfl,
      oweControl_circuit (heardFrom s .clear f) f.dstCircuit .confirm, heardFrom_sameWindow s .clear f⟩
  · have htable : (heardFrom s .confirm f).tableFrame .confirm f = (heardFrom s .confirm f).freeWith f.dstCircuit .done :=
      (tableFrame_circuit (hears_dst h) (by decide) (by decide)).trans ((takeCircuitFrame_of_reaches (u := heardFrom s .confirm f) hreaches).2.2.1 hstate)
    obtain ⟨x, hexec, hblocks, hfreed, hwindow⟩ := frame_frees hmem h (by decide) (.refl _) rfl rfl htable
    refine ⟨_, hexec, hblocks, freedIn_congr (u := heardFrom s .confirm f) (fun d => rfl) rfl rfl rfl
      (peek_heardFrom s .confirm f (a := 0x30) (by decide) (by decide))
      (peek_heardFrom s .confirm f (a := 0x31) (by decide) (by decide)) hfreed, ?_⟩
    rw [List.append_assoc, List.append_assoc]
    exact hwindow

/-! ## Stray and discarded frames (R65, R68, R77) -/

theorem isStray_takeCircuitFrame {u : State} {k : Kind} {f : Frame} (h : isStray u f = true) : u.takeCircuitFrame k f = u.strayFrame k f := by
  unfold isStray at h
  unfold State.takeCircuitFrame
  by_cases hcount : u.station.circuitCount ≤ f.dstCircuit.val
  · have hconfigured : u.configured f.dstCircuit = false := decide_eq_false (Nat.not_lt.mpr hcount)
    simp [hconfigured]
  · have hconfigured : u.configured f.dstCircuit = true := decide_eq_true (Nat.lt_of_not_le hcount)
    have hmatches : ((u.circuit f.dstCircuit).peer ≠ f.src ∨ (u.circuit f.dstCircuit).peerCircuit ≠ some f.srcCircuit) →
        (u.circuit f.dstCircuit).matchesPeer f = false := by
      rw [Circuit.matchesPeer, Bool.and_eq_false_iff, beq_eq_false_iff_ne, beq_eq_false_iff_ne]
      exact id
    rw [decide_eq_false hcount, Bool.false_or] at h
    simp only [hconfigured, Bool.not_true, Bool.false_eq_true, if_false]
    cases hs : (u.circuit f.dstCircuit).state <;> simp only [hs, decide_eq_true_iff] at h ⊢
    case calling => rw [if_neg h]
    all_goals simp [hmatches h]

/-- The orphan list after the reply that a stray frame draws (R77). -/
def strayOrphans (s : State) (k : Kind) (f : Frame) : Orphans :=
  match strayReply k f.dstCircuit with
  | some reply => withOrphan s.station.state s.orphans f.src f.srcCircuit reply
  | none => s.orphans

/-- The reply that a stray frame, or DATA to a circuit that ended without its peer knowing, draws goes on the orphan list. -/
theorem strayFrame_replies {s : State} {k : Kind} {f : Frame} (hmem : MemoryLaw s) (hk : k ≠ .roll) (h : hears k f s)
    (htable : (heardFrom s k f).tableFrame k f = (heardFrom s k f).strayFrame k f) :
    ∃ t, exec (frameRow k f) s = .next t ∧ heardBlocks k f s t ∧ allCircuitsSame s t ∧ t.notice = s.notice ∧
      t.orphans = strayOrphans s k f ∧ showsDrops s t ∧ sameWindow s t (heardBytes ++ [0x30, 0x31]) := by
  have hsilent (hsame : (heardFrom s k f).strayFrame k f = heardFrom s k f) :
      ∃ t, exec (frameRow k f) s = .next t ∧ heardBlocks k f s t ∧ allCircuitsSame s t ∧ t.notice = s.notice ∧
        t.orphans = s.orphans ∧ showsDrops s t ∧ sameWindow s t (heardBytes ++ [0x30, 0x31]) := by
    obtain ⟨t, hexec, hblocks, hcircuits, hnotice, horphans, hwindow⟩ := frame_passes hmem h hk (htable.trans hsame)
    refine ⟨t, hexec, hblocks, hcircuits, hnotice, horphans, ?_, sameWindow_mono hwindow (List.subset_append_left _ _)⟩
    rw [showsDrops, if_pos (by rw [horphans])]
    exact ⟨hwindow _ (by decide) (by decide), hwindow _ (by decide) (by decide)⟩
  cases k with
  | data => exact frameRow_adds_orphan hmem h hk htable
  | ack => exact frameRow_adds_orphan hmem h hk htable
  | answer => exact frameRow_adds_orphan hmem h hk htable
  | clear => exact frameRow_adds_orphan hmem h hk htable
  | call => exact hsilent rfl
  | refuse => exact hsilent rfl
  | confirm => exact hsilent rfl
  | roll => exact absurd rfl hk

/-- A frame that its circuit's state discards leaves no mark (R65, R68, R84). -/
theorem discards_takeCircuitFrame {u : State} {k : Kind} {f : Frame} (hstray : isStray u f = false)
    (h : discards (u.circuit f.dstCircuit) k f = true) : u.takeCircuitFrame k f = u := by
  unfold isStray at hstray
  obtain ⟨hcount, hstray⟩ := Bool.or_eq_false_iff.mp hstray
  have hconfigured : u.configured f.dstCircuit = true := decide_eq_true (Nat.lt_of_not_le (of_decide_eq_false hcount))
  have hmatches : ¬((u.circuit f.dstCircuit).peer ≠ f.src ∨ (u.circuit f.dstCircuit).peerCircuit ≠ some f.srcCircuit) →
      (u.circuit f.dstCircuit).matchesPeer f = true := by
    rw [Circuit.matchesPeer, Bool.and_eq_true, beq_iff_eq, beq_iff_eq, not_or, not_not, not_not]
    exact id
  unfold State.takeCircuitFrame
  simp only [hconfigured, Bool.not_true, Bool.false_eq_true, if_false]
  cases hs : (u.circuit f.dstCircuit).state with
  | free => simp [hs] at hstray
  | listening => simp [hs] at hstray
  | calling =>
    simp only [hs, decide_eq_false_iff_not, not_not] at hstray
    simp only [hstray, if_true]
    cases k <;> simp [discards, hs] at h <;> simp [State.callingFrame, h]
  | opened =>
    simp only [hs, decide_eq_false_iff_not] at hstray
    simp only [hmatches hstray, if_true]
    cases k <;> simp [discards, hs] at h <;> rfl
  | draining =>
    simp only [hs, decide_eq_false_iff_not] at hstray
    simp only [hmatches hstray, if_true]
    cases k <;> simp [discards, hs] at h <;> rfl
  | clearing =>
    simp only [hs, decide_eq_false_iff_not] at hstray
    simp only [hmatches hstray, if_true]
    cases k <;> simp [discards, hs] at h <;> rfl
  | ended =>
    simp only [hs, decide_eq_false_iff_not] at hstray
    simp only [hmatches hstray, if_true]
    cases k <;> simp [discards, hs] at h <;> simp [State.endedFrame, h]

/-- A discarded frame is neither a CALL nor a ROLL. -/
theorem discards_kind {c : Circuit} {k : Kind} {f : Frame} (h : discards c k f = true) : k ≠ .call ∧ k ≠ .roll := by
  unfold discards at h
  cases c.state <;> cases k <;> simp at h ⊢

/-- Settles O38: by whether the frame matches its circuit, and by the circuit's state. -/
theorem strayAndDiscardedFrames : Obligations.StrayAndDiscardedFrames := by
  refine ⟨fun s k f hmem hcall hroll h hcase => ?_, fun s k f hmem h hstray hdiscards => ?_, fun s k f hmem hroll h hpresent hdst => ?_⟩
  · suffices htable : (heardFrom s k f).takeCircuitFrame k f = (heardFrom s k f).strayFrame k f by
      obtain ⟨t, hexec, hblocks, hcircuits, hnotice, horphans, hdrops, hwindow⟩ :=
        strayFrame_replies hmem hroll h ((tableFrame_circuit (hears_dst h) hcall hroll).trans htable)
      exact ⟨t, hexec, hblocks, hcircuits, hnotice, horphans.trans (by cases k <;> rfl), hdrops, hwindow⟩
    by_cases hstray : isStray s f = true
    · exact isStray_takeCircuitFrame (u := heardFrom s k f) hstray
    · obtain ⟨rfl, hended, hcause⟩ := hcase.resolve_left hstray
      have hnot : isStray s f = false := Bool.eq_false_iff.mpr hstray
      unfold isStray at hnot
      obtain ⟨hcount, hmatch⟩ := Bool.or_eq_false_iff.mp hnot
      simp only [hended, decide_eq_false_iff_not, not_or, not_not] at hmatch
      have hreaches : reaches f (heardFrom s .data f) := ⟨Nat.lt_of_not_le (of_decide_eq_false hcount), hmatch.1, hmatch.2⟩
      exact ((takeCircuitFrame_of_reaches (u := heardFrom s .data f) hreaches).2.2.2 hended).trans (if_neg hcause)
  · obtain ⟨hcall, hroll⟩ := discards_kind hdiscards
    exact frame_passes hmem h hroll ((tableFrame_circuit (hears_dst h) hcall hroll).trans
      (discards_takeCircuitFrame (u := heardFrom s k f) hstray hdiscards))
  · have htable : (heardFrom s k f).tableFrame k f = heardFrom s k f := if_pos hdst
    obtain ⟨x, hx⟩ := frameEnd_arbiter (heardFrom s k f) (some f.src)
    refine ⟨{ heardFrom s k f with arbiter := x }, ?_, ?_, fun _ => rfl, rfl, rfl, heardFrom_sameWindow s k f⟩
    · rw [exec_frameRow_from h hpresent, examined, if_neg hroll, htable, hx]
    · rw [← hx]
      exact heardBlocks_from hmem h rfl fun _ _ => rfl

/-- Settles O29: a ROLL that lacks the own bit sets ROLL owed before the round begins. -/
theorem rollWithoutTheOwnBitOwesARoll : Obligations.RollWithoutTheOwnBitOwesARoll := by
  intro s f hmem h hpresent
  have hexamined : examined (heardFrom s .roll f) .roll f = heardFrom { s with
      selector.rollOwed := s.selector.rollOwed ||
        (decide (s.station.state = .active) && !presentBit f.payload s.station.address.toNat) } .roll f := by
    rw [examined, if_pos rfl, State.examineRoll]
    obtain ⟨-, -, -, -, -, hown⟩ := h
    by_cases hdue : s.station.state = .active ∧ presentBit f.payload s.station.address.toNat = false
    · obtain ⟨hactive, hbit⟩ := hdue
      rw [if_pos ⟨hactive, hown, hbit⟩, hactive, hbit]
      simp only [decide_true, Bool.not_false, Bool.and_true, Bool.or_true]
      rfl
    · have hflag : (decide (s.station.state = .active) && !presentBit f.payload s.station.address.toNat) = false := by
        rw [← Bool.not_eq_true, Bool.and_eq_true, decide_eq_true_iff, Bool.not_eq_true']
        exact hdue
      rw [if_neg (fun ⟨hactive, _, hbit⟩ => hdue ⟨hactive, hbit⟩), hflag, Bool.or_false]
  have htable (u : State) : u.tableFrame .roll f = u := by
    unfold State.tableFrame
    split <;> rfl
  have hblocks := heardBlocks_from (k := .roll) (f := f) (s := { s with
    selector.rollOwed := s.selector.rollOwed ||
      (decide (s.station.state = .active) && !presentBit f.payload s.station.address.toNat) }) hmem h rfl fun _ _ => rfl
  obtain ⟨x, hx⟩ := frameEnd_arbiter (heardFrom { s with
    selector.rollOwed := s.selector.rollOwed ||
      (decide (s.station.state = .active) && !presentBit f.payload s.station.address.toNat) } .roll f) (some f.src)
  refine ⟨_, (exec_frameRow_from h hpresent).trans (by rw [hexamined, htable]), hblocks, ?_⟩
  rw [hx]
  exact ⟨fun _ => rfl, rfl, rfl, heardFrom_sameWindow s .roll f⟩

end Sys2Proof.Proofs
end

section
namespace Sys2Proof.Proofs

open Sys2Proof Sys2Proof.Machine Sys2Proof.Claims Sys2Proof.Safety Sys2Proof.Laws

/-! ## A loss, before the pair it raises (R91) -/

/-- The loss of circuit `c` but for the pair it raises. -/
def lostQuiet (s : State) (c : CircuitNo) (cause : EndCause) : State :=
  match (s.circuit c).state with
  | .opened => endedQuiet s c cause false
  | .calling | .draining | .clearing => s.goFree c (lossCompletion (s.circuit c) cause)
  | .listening => if cause = .lostHalted then s.goFree c (lossCompletion (s.circuit c) cause) else s
  | .ended | .free => s

/-- A loss frees a circuit in these states (R91, R96). -/
def freesOnLoss (k : Circuit) (cause : EndCause) : Bool :=
  match k.state with
  | .calling | .draining | .clearing => true
  | .listening => decide (cause = .lostHalted)
  | .opened | .ended | .free => false

theorem freeWith_eq_raiseOption (s : State) (c : CircuitNo) (outcome : CompletionOutcome) :
    s.freeWith c outcome = (s.goFree c (completedWith (s.circuit c) outcome)).raiseOption
      (doneOf c (completedWith (s.circuit c) outcome)) := by
  rw [State.freeWith, completes_eq]

theorem doneOf_completedWith (k : Circuit) (c : CircuitNo) (outcome : CompletionOutcome) :
    doneOf c (completedWith k outcome) = if k.inFlight.isSome then some (.circuit c .done) else none := by
  cases h : k.inFlight <;> simp [doneOf, completedWith, h]

theorem lose_eq_raiseOption (s : State) (c : CircuitNo) (cause : EndCause) :
    s.lose c cause = (lostQuiet s c cause).raiseOption (lossPair (s.circuit c) c cause) := by
  unfold State.lose lostQuiet lossPair lossCompletion
  cases (s.circuit c).state with
  | opened => rfl
  | free => rfl
  | ended => rfl
  | calling => exact (freeWith_eq_raiseOption s c .lost).trans (by rw [doneOf_completedWith])
  | draining => exact (freeWith_eq_raiseOption s c .lost).trans (by rw [doneOf_completedWith])
  | clearing => exact (freeWith_eq_raiseOption s c .unconfirmed).trans (by rw [doneOf_completedWith])
  | listening =>
    by_cases h : cause = .lostHalted
    · simp only [h, if_true, true_and]
      exact (freeWith_eq_raiseOption s c .lost).trans (by rw [doneOf_completedWith])
    · simp only [h, if_false, false_and]
      rfl

/-- Circuit `c` of `s` has been lost in `u` with a cause, but for the pair the loss raises. -/
structure LostAs (s u : State) (c : CircuitNo) (cause : EndCause) : Prop where
  only : CircuitOnly c s u
  circuit : u.circuit c = lostWith (s.circuit c) cause
  orphans : u.orphans = if freesOnLoss (s.circuit c) cause then movedConfirm s c else s.orphans
  selector : (s.circuit c).state.live = true ∨ (s.circuit c).state = .calling → u.selector = flightForgets s c true
  notice : u.notice = s.notice
  wf : MemoryLaw u
  drops : showsDrops s u
  window : sameWindow s u ([0x30, 0x31] ++ lossBytes c)
  state : (u.circuit c).state ≠ (s.circuit c).state → u.peek (recordBase c) = (u.circuit c).state.code
  shows : lossShows u c (s.circuit c) cause

theorem showsDrops_of_sameWindow {s u : State} {offs : List Nat} (horphans : u.orphans = s.orphans) (h : sameWindow s u offs)
    (hlow : 0x30 ∉ offs) (hhigh : 0x31 ∉ offs) : showsDrops s u := by
  rw [showsDrops, if_pos (by rw [horphans])]
  exact ⟨h _ (by decide) hlow, h _ (by decide) hhigh⟩

theorem lostAs_of_freedAs {s u : State} {c : CircuitNo} {cause : EndCause} (hfrees : freesOnLoss (s.circuit c) cause = true)
    (hwith : lostWith (s.circuit c) cause = freed (s.circuit c) (lossCompletion (s.circuit c) cause))
    (h : FreedAs s u c (lossCompletion (s.circuit c) cause)) : LostAs s u c cause where
  only := h.only
  circuit := h.circuit.trans hwith.symm
  orphans := h.orphans.trans (if_pos hfrees).symm
  selector := fun _ => h.selector
  notice := h.notice
  wf := h.wf
  drops := h.drops
  window := sameWindow_mono h.window (by simp [freedBytes, lossBytes, recordBytes])
  state := fun _ => by rw [h.circuit]; exact h.state
  shows := ⟨fun hopened => by simp [freesOnLoss, hopened] at hfrees, h.unsent, h.completion⟩

theorem lostAs_refl {s : State} (hmem : MemoryLaw s) (c : CircuitNo) (cause : EndCause)
    (hstate : (s.circuit c).state = .free ∨ (s.circuit c).state = .ended ∨ ((s.circuit c).state = .listening ∧ cause ≠ .lostHalted)) :
    LostAs s s c cause := by
  have hnot : (s.circuit c).state.live = false ∧ (s.circuit c).state ≠ .calling ∧ (s.circuit c).state ≠ .opened ∧
      freesOnLoss (s.circuit c) cause = false ∧ lossCompletion (s.circuit c) cause = none ∧
      lostWith (s.circuit c) cause = s.circuit c := by
    obtain h | h | ⟨h, hcause⟩ := hstate <;> simp [freesOnLoss, lossCompletion, lostWith, CircuitState.live, h]
    simp [hcause]
  obtain ⟨hlive, hcalling, hopened, hfrees, hnone, hlost⟩ := hnot
  refine ⟨.refl c s, hlost.symm, by rw [hfrees]; rfl, fun h => ?_, rfl, hmem, ?_, fun _ _ _ => rfl, fun h => absurd rfl h,
    fun h => absurd h hopened, fun h => ?_, fun d hd => ?_⟩
  · rw [hlive] at h
    exact absurd (h.resolve_left (by decide)) hcalling
  · exact showsDrops_of_sameWindow (offs := []) rfl (fun _ _ _ => rfl) (by decide) (by decide)
  · rw [hlive] at h
    exact absurd h (by decide)
  · rw [hnone] at hd
    exact absurd hd (Option.not_mem_none d)

theorem endedQuiet_only (s : State) (c : CircuitNo) (cause : EndCause) (confirm : Bool) : CircuitOnly c s (endedQuiet s c cause confirm) := by
  unfold endedQuiet
  refine .trans (.trans (.trans (.trans (.trans ?_ (clearAckPoll_only _ c)) (updCircuit_only _ c _)) (writeUnsent_only _ c))
    (circuitOnly_pokeRecord c c _ _ _)) (setCircuitState_only _ c .ended)
  cases confirm
  · exact clearControl_only s c
  · exact oweControl_only s c .confirm

theorem lostAs_endedQuiet {s : State} (hmem : MemoryLaw s) (c : CircuitNo) (cause : EndCause) (hopened : (s.circuit c).state = .opened) :
    LostAs s (endedQuiet s c cause false) c cause := by
  have h := endedQuiet_shows hmem c cause false
  have hraise := raise_only (endedQuiet s c cause false) (.circuit c .ended)
  have horphans := enterEnded_orphans s c cause false
  have hselector := enterEnded_selector s c cause false
  have hcircuit := enterEnded_circuit s c cause false
  have honly := endedQuiet_only s c cause false
  have hlost : lostWith (s.circuit c) cause = endedWith (s.circuit c) cause none := by rw [lostWith, hopened]
  rw [enterEnded_eq] at horphans hselector hcircuit
  generalize endedQuiet s c cause false = u at *
  rw [hraise.orphans] at horphans
  rw [hraise.selector] at hselector
  rw [hraise.circuit] at hcircuit
  refine ⟨honly, hcircuit.trans hlost.symm, ?_, fun _ => hselector, h.notice, h.wf, ?_, ?_, fun _ => ?_,
    ⟨fun _ => h.cause, fun _ => h.unsent, fun d hd => ?_⟩⟩
  · simp [freesOnLoss, hopened, horphans]
  · exact showsDrops_of_sameWindow horphans h.window (not_mem_recordBytes (by decide)) (not_mem_recordBytes (by decide))
  · exact sameWindow_mono h.window (by simp [lossBytes, recordBytes])
  · rw [hcircuit]
    exact h.state
  · simp [lossCompletion, hopened] at hd

/-- What the loss of a circuit leaves, by its state. -/
theorem lostQuiet_lostAs {s : State} (hmem : MemoryLaw s) (c : CircuitNo) (cause : EndCause) : LostAs s (lostQuiet s c cause) c cause := by
  unfold lostQuiet
  have hfreed := goFree_freedAs hmem c (lossCompletion (s.circuit c) cause)
  cases h : (s.circuit c).state with
  | opened => exact lostAs_endedQuiet hmem c cause h
  | free => exact lostAs_refl hmem c cause (.inl h)
  | ended => exact lostAs_refl hmem c cause (.inr (.inl h))
  | calling => exact lostAs_of_freedAs (by simp [freesOnLoss, h]) (by simp only [lostWith, lossCompletion, h]) hfreed
  | draining => exact lostAs_of_freedAs (by simp [freesOnLoss, h]) (by simp only [lostWith, lossCompletion, h]) hfreed
  | clearing => exact lostAs_of_freedAs (by simp [freesOnLoss, h]) (by simp only [lostWith, lossCompletion, h]) hfreed
  | listening =>
    by_cases hcause : cause = .lostHalted
    · simp only [hcause, if_true]
      subst hcause
      exact lostAs_of_freedAs (by simp [freesOnLoss, h]) (by simp only [lostWith, lossCompletion, h, if_true]) hfreed
    · simp only [hcause, if_false]
      exact lostAs_refl hmem c cause (.inr (.inr ⟨h, hcause⟩))

/-- What a loss shows, with the pair it raises. -/
structure LossShown (s t : State) (c : CircuitNo) (cause : EndCause) : Prop where
  only : CircuitOnly c s t
  circuit : t.circuit c = lostWith (s.circuit c) cause
  orphans : t.orphans = if freesOnLoss (s.circuit c) cause then movedConfirm s c else s.orphans
  selector : (s.circuit c).state.live = true ∨ (s.circuit c).state = .calling → t.selector = flightForgets s c true
  drops : showsDrops s t
  state : (t.circuit c).state ≠ (s.circuit c).state → t.peek (recordBase c) = (t.circuit c).state.code
  shows : lossShows t c (s.circuit c) cause
  raised : raisedIfAny s t (lossPair (s.circuit c) c cause)
  window : sameWindow s t ([0x30, 0x31] ++ lossBytes c ++ raiseBytes s 1)

theorem lossShows_congr {s t : State} {c : CircuitNo} {k : Circuit} {cause : EndCause}
    (hrecord : ∀ off < 0x40, t.peek (recordBase c + off) = s.peek (recordBase c + off)) (h : lossShows s c k cause) :
    lossShows t c k cause := by
  obtain ⟨hopened, hlive, hdone⟩ := h
  exact ⟨fun hs => (hrecord _ (by decide)).trans (hopened hs), fun hs => (hrecord _ (by decide)).trans (hlive hs),
    fun d hd => showsCompletion_congr (fun off _ hoff => hrecord off hoff) (hdone d hd)⟩

theorem lose_shown {s : State} (hmem : MemoryLaw s) (c : CircuitNo) (cause : EndCause) : LossShown s (s.lose c cause) c cause := by
  rw [lose_eq_raiseOption]
  have hlost := lostQuiet_lostAs hmem c cause
  generalize lostQuiet s c cause = u at *
  obtain ⟨hraised, hwindow⟩ := raiseOption_after hlost.notice hlost.wf hlost.window (lossPair (s.circuit c) c cause)
  have honly := raiseOption_only u (lossPair (s.circuit c) c cause)
  have hrecord {off : Nat} (hoff : off < 0x40) := peek_record_raiseOption u (lossPair (s.circuit c) c cause) c hoff
  exact {
    only := hlost.only.trans (honly.circuitOnly c)
    circuit := (honly.circuit c).trans hlost.circuit
    orphans := honly.orphans.trans hlost.orphans
    selector := fun h => honly.selector.trans (hlost.selector h)
    drops := showsDrops_congr_right honly.orphans (peek_raiseOption_ne u _ (by decide) (by decide))
      (peek_raiseOption_ne u _ (by decide) (by decide)) hlost.drops
    state := fun h => by
      rw [honly.circuit c] at h ⊢
      exact (hrecord (off := 0) (by decide)).trans (hlost.state h)
    shows := lossShows_congr (fun off hoff => hrecord hoff) hlost.shows
    raised := hraised
    window := hwindow }

/-! ## Retries that run out -/

/-- A circuit that differs from that of `s` in its retry timer goes FREE as the one of `s` does (R64, R83). -/
theorem freeWith_stopped {s : State} (hmem : MemoryLaw s) (c : CircuitNo) (outcome : CompletionOutcome) :
    let t := (s.updCircuit c fun k => { k with retryTimer := none }).freeWith c outcome
    t = { s with
      selector := flightForgets s c true
      orphans := t.orphans
      circuits := t.circuits
      notice := t.notice
      window := t.window } ∧
    freedIn s t c (completedWith (s.circuit c) outcome) ∧ sameWindow s t ([0x30, 0x31] ++ freedBytes c ++ raiseBytes s 1) := by
  have hsame : (s.updCircuit c fun k => { k with retryTimer := none }).circuit c = { s.circuit c with retryTimer := none } :=
    circuit_updCircuit_same s c _
  have honly := updCircuit_only s c fun k => { k with retryTimer := none }
  have hframe : (s.updCircuit c fun k => { k with retryTimer := none }).notice = s.notice ∧
      (s.updCircuit c fun k => { k with retryTimer := none }).window = s.window ∧
      (s.updCircuit c fun k => { k with retryTimer := none }).orphans = s.orphans ∧
      (s.updCircuit c fun k => { k with retryTimer := none }).selector = s.selector := ⟨rfl, rfl, rfl, rfl⟩
  generalize s.updCircuit c (fun k => { k with retryTimer := none }) = u at *
  obtain ⟨hnotice, hwindow, horphans, hselector⟩ := hframe
  have hu : MemoryLaw u := by rw [MemoryLaw, hwindow]; exact hmem
  obtain ⟨⟨hrest, hcircuit, hmoved, hdrops, hstate, hunsent, hraised, hdone⟩, hforgets, hbytes⟩ := freeWith_freedIn hu c outcome
  have hcompleted : completedWith (u.circuit c) outcome = completedWith (s.circuit c) outcome := by rw [hsame]
  have hflight : flightForgets u c true = flightForgets s c true := by rw [flightForgets, flightForgets, hselector, hsame]
  have hmovedS : movedConfirm u c = movedConfirm s c := by rw [movedConfirm, movedConfirm, hsame, horphans, honly.rest.station]
  have hpeek (a : Nat) : u.peek a = s.peek a := by rw [State.peek, State.peek, hwindow]
  have hall := honly.trans (freeWith_only u c outcome)
  rw [hcompleted] at hcircuit hraised hdone
  rw [hflight] at hforgets
  rw [hsame] at hcircuit hunsent
  generalize u.freeWith c outcome = t at *
  refine ⟨(circuitsOnly_eq hall.rest).trans (by rw [hforgets]), ⟨fun d hd => (hrest d hd).trans (honly.others d hd), hcircuit, hmoved.trans hmovedS,
    showsDrops_congr (by rw [horphans]) (hpeek _) (hpeek _) hdrops, hstate, hunsent, ?_, hdone⟩, fun a ha hout => ?_⟩
  · cases h : completedWith (s.circuit c) outcome with
    | none => rw [h] at hraised; exact Eq.trans hraised hnotice
    | some d => rw [h] at hraised; exact raisedIn_congr hnotice hraised
  · exact (hbytes a ha (by rwa [raiseBytes_congr (congrArg Notice.fill hnotice)])).trans (hpeek a)

/-- CALL_RETRY_EXPIRY with its test read as a bound (R64). -/
theorem exec_callRetryExpiry (s : State) (c : CircuitNo) :
    exec (.callRetryExpiry c) s = .next (if (s.circuit c).state = .calling ∧ 131072 ≤ (s.circuit c).retryTimer.getD 0 then
      if (s.circuit c).sendCount < 4 then
        (s.updCircuit c fun k => { k with retryTimer := none }).updCircuit c fun k => { k with callOwed := true }
      else (s.updCircuit c fun k => { k with retryTimer := none }).freeWith c .noAnswer
    else s) :=
  congrArg _ (if_congr (and_congr_right fun _ => timerOut_iff (by decide)) rfl rfl)

/-- CLEAR_RETRY_EXPIRY with its test read as a bound (R83). -/
theorem exec_clearRetryExpiry (s : State) (c : CircuitNo) :
    exec (.clearRetryExpiry c) s = .next (if (s.circuit c).state = .clearing ∧ 131072 ≤ (s.circuit c).retryTimer.getD 0 then
      if (s.circuit c).sendCount < 4 then (s.updCircuit c fun k => { k with retryTimer := none }).oweControl c .clear
      else (s.updCircuit c fun k => { k with retryTimer := none }).freeWith c .unconfirmed
    else s) :=
  congrArg _ (if_congr (and_congr_right fun _ => timerOut_iff (by decide)) rfl rfl)

/-- Settles O49: by the sends made, below 4 or not. -/
theorem callAndClearRetriesRunOut : Obligations.CallAndClearRetriesRunOut := by
  refine ⟨fun s c hmem => ?_, fun s c hmem => ?_⟩
  · by_cases hdue : (s.circuit c).state = .calling ∧ 131072 ≤ (s.circuit c).retryTimer.getD 0
    · by_cases hsends : (s.circuit c).sendCount < 4
      · refine ⟨_, (exec_callRetryExpiry s c).trans (congrArg _ ((if_pos hdue).trans (if_pos hsends))), ?_⟩
        rw [if_pos hdue, if_pos hsends]
        exact ⟨rfl, ((updCircuit_only s c _).trans (updCircuit_only _ c _)).others, by
          rw [circuit_updCircuit_same, circuit_updCircuit_same]⟩
      · refine ⟨_, (exec_callRetryExpiry s c).trans (congrArg _ ((if_pos hdue).trans (if_neg hsends))), ?_⟩
        rw [if_pos hdue, if_neg hsends]
        exact freeWith_stopped hmem c .noAnswer
    · exact ⟨_, (exec_callRetryExpiry s c).trans (congrArg _ (if_neg hdue)), by rw [if_neg hdue]⟩
  · by_cases hdue : (s.circuit c).state = .clearing ∧ 131072 ≤ (s.circuit c).retryTimer.getD 0
    · by_cases hsends : (s.circuit c).sendCount < 4
      · refine ⟨_, (exec_clearRetryExpiry s c).trans (congrArg _ ((if_pos hdue).trans (if_pos hsends))), ?_⟩
        rw [if_pos hdue, if_pos hsends]
        exact ⟨rfl, ((updCircuit_only s c _).trans (oweControl_only _ c _)).others, by
          rw [oweControl_circuit, circuit_updCircuit_same]⟩
      · refine ⟨_, (exec_clearRetryExpiry s c).trans (congrArg _ ((if_pos hdue).trans (if_neg hsends))), ?_⟩
        rw [if_pos hdue, if_neg hsends]
        exact freeWith_stopped hmem c .unconfirmed
    · exact ⟨_, (exec_clearRetryExpiry s c).trans (congrArg _ (if_neg hdue)), by rw [if_neg hdue]⟩

/-- The data retry of circuit `c` has run out for the last time (R107). -/
def retriesSpent (s : State) (c : CircuitNo) : State :=
  s.updCircuit c fun k => { k with dataRetryCount := 7, dataRetryTimer := none }

/-- A loss depends on its circuit but for the data retry, which it leaves stopped with the count as it stands. -/
theorem lose_retriesSpent {s : State} (hmem : MemoryLaw s) (c : CircuitNo) (htransfers : (s.circuit c).state.transfers = true) :
    let t := (retriesSpent s c).lose c .lostRetries
    t = { s with
      selector := flightForgets s c true
      orphans := t.orphans
      circuits := t.circuits
      notice := t.notice
      window := t.window } ∧
    sameCircuits s t c ∧ t.circuit c = lostWith { s.circuit c with dataRetryCount := 7 } .lostRetries ∧
    t.orphans = (if (s.circuit c).state = .draining then movedConfirm s c else s.orphans) ∧
    t.peek (recordBase c) = (t.circuit c).state.code ∧ lossShows t c (s.circuit c) .lostRetries ∧ showsDrops s t ∧
    raisedIfAny s t (lossPair (s.circuit c) c .lostRetries) ∧ sameWindow s t ([0x30, 0x31] ++ lossBytes c ++ raiseBytes s 1) := by
  have hsame : (retriesSpent s c).circuit c = { s.circuit c with dataRetryCount := 7, dataRetryTimer := none } :=
    circuit_updCircuit_same s c _
  have honly : CircuitOnly c s (retriesSpent s c) := updCircuit_only s c _
  have hframe : (retriesSpent s c).notice = s.notice ∧ (retriesSpent s c).window = s.window ∧
      (retriesSpent s c).orphans = s.orphans ∧ (retriesSpent s c).selector = s.selector := ⟨rfl, rfl, rfl, rfl⟩
  generalize retriesSpent s c = u at *
  obtain ⟨hnotice, hwindow, horphans, hselector⟩ := hframe
  have h := lose_shown (s := u) (by rw [MemoryLaw, hwindow]; exact hmem) c .lostRetries
  have hstate : (s.circuit c).state = .opened ∨ (s.circuit c).state = .draining := by
    cases hs : (s.circuit c).state <;> simp [hs, CircuitState.transfers] at htransfers ⊢
  have hustate : (u.circuit c).state = (s.circuit c).state := by rw [hsame]
  have hlive : (u.circuit c).state.live = true := by
    rw [hustate]
    obtain hs | hs := hstate <;> rw [hs] <;> rfl
  have hmoved : movedConfirm u c = movedConfirm s c := by rw [movedConfirm, movedConfirm, hsame, horphans, honly.rest.station]
  have hflight : flightForgets u c true = flightForgets s c true := by rw [flightForgets, flightForgets, hselector, hsame]
  have hlost : lostWith (u.circuit c) .lostRetries = lostWith { s.circuit c with dataRetryCount := 7 } .lostRetries ∧
      ((lostWith (u.circuit c) .lostRetries).state ≠ (u.circuit c).state) := by
    rw [hsame]
    obtain hs | hs := hstate <;> simp [lostWith, hs, completedWith]
  have hdone : lossCompletion (u.circuit c) .lostRetries = lossCompletion (s.circuit c) .lostRetries := by rw [hsame]; rfl
  have hfrees : (if freesOnLoss (u.circuit c) .lostRetries then movedConfirm u c else u.orphans) =
      if (s.circuit c).state = .draining then movedConfirm s c else s.orphans := by
    rw [hmoved, horphans, hsame]
    obtain hs | hs := hstate <;> simp [freesOnLoss, hs]
  have hpair : lossPair (u.circuit c) c .lostRetries = lossPair (s.circuit c) c .lostRetries := by rw [hsame]; rfl
  have hpeek (a : Nat) : u.peek a = s.peek a := by rw [State.peek, State.peek, hwindow]
  have hshown := h.state (by rw [h.circuit]; exact hlost.2)
  have hall := honly.trans h.only
  refine ⟨(circuitsOnly_eq hall.rest).trans (by rw [h.selector (.inl hlive), hflight]), hall.others, h.circuit.trans hlost.1,
    h.orphans.trans hfrees, hshown, ?_, showsDrops_congr (by rw [horphans]) (hpeek _) (hpeek _) h.drops, ?_, fun a ha hout => ?_⟩
  · have hshows := h.shows
    rw [lossShows, hdone, hsame] at hshows
    exact hshows
  · have hraised := h.raised
    rw [hpair] at hraised
    exact ⟨fun p hp => raisedIn_congr hnotice (hraised.1 p hp), fun hnone => (hraised.2 hnone).trans hnotice⟩
  · exact (h.window a ha (by rwa [raiseBytes_congr (congrArg Notice.fill hnotice)])).trans (hpeek a)

/-- DATA_RETRY_EXPIRY with its tests read as bounds (R107). -/
theorem exec_dataRetryExpiry (s : State) (c : CircuitNo) :
    exec (.dataRetryExpiry c) s = .next (if (s.circuit c).mode = .assured ∧ (s.circuit c).state.transfers = true ∧
        131072 ≤ (s.circuit c).dataRetryTimer.getD 0 then
      if 7 ≤ (s.circuit c).dataRetryCount + 1 then (retriesSpent s c).lose c .lostRetries
      else s.updCircuit c fun k =>
        { k with dataRetryCount := k.dataRetryCount + 1, resendPoint := some k.oldestSeq, dataRetryTimer := some 0 }
    else s) :=
  congrArg _ (if_congr (and_congr_right fun _ => and_congr_right fun _ => timerOut_iff (by decide)) rfl rfl)

/-- Settles O50: by the count of expiries, below 7 or not. -/
theorem dataRetriesAndProbesRunOut : Obligations.DataRetriesAndProbesRunOut := by
  refine ⟨fun s c hmem => ?_, fun s c => ?_⟩
  · by_cases hdue : (s.circuit c).mode = .assured ∧ (s.circuit c).state.transfers = true ∧
        131072 ≤ (s.circuit c).dataRetryTimer.getD 0
    · by_cases hcount : (s.circuit c).dataRetryCount + 1 < 7
      · refine ⟨_, (exec_dataRetryExpiry s c).trans (congrArg _ ((if_pos hdue).trans (if_neg (Nat.not_le.mpr hcount)))), ?_⟩
        rw [if_pos hdue, if_pos hcount]
        exact ⟨rfl, (updCircuit_only s c _).others, circuit_updCircuit_same s c _⟩
      · refine ⟨_, (exec_dataRetryExpiry s c).trans (congrArg _ ((if_pos hdue).trans (if_pos (Nat.not_lt.mp hcount)))), ?_⟩
        rw [if_pos hdue, if_neg hcount]
        exact lose_retriesSpent hmem c hdue.2.1
    · exact ⟨_, (exec_dataRetryExpiry s c).trans (congrArg _ (if_neg hdue)), by rw [if_neg hdue]⟩
  · by_cases hdue : (s.circuit c).probeTimer.getD 0 < 131072
    · refine ⟨s, congrArg _ (if_neg fun h => ?_), rfl, fun _ _ => rfl, (if_pos hdue).symm⟩
      exact Nat.not_le.mpr hdue ((timerOut_iff (by decide)).mp h)
    · refine ⟨s.probeOut c, congrArg _ (if_pos ((timerOut_iff (by decide)).mpr (Nat.not_lt.mp hdue))), rfl,
        (probeOut_only s c).others, ?_⟩
      rw [if_neg hdue, State.probeOut, testStall_circuit, circuit_updCircuit_same]
      rfl

end Sys2Proof.Proofs
end

section
namespace Sys2Proof.Proofs

open Sys2Proof Sys2Proof.Machine Sys2Proof.Claims Sys2Proof.Safety Sys2Proof.Laws

/-! ## A pair raised, seen from a later state -/

/-- A raise shows in a later state that keeps the attention queue and what the entry tells. -/
theorem raisedIn_later {s u t : State} {p : NoticePair} {offs : List Nat} (h : raisedIn s u p) (hnotice : t.notice = u.notice)
    (hsame : sameWindow u t offs) (hoffs : ∀ a ∈ offs, a < 0x0600 ∨ 0x0800 ≤ a)
    (hentry : ∀ n, entryBytes t n p = entryBytes u n p) : raisedIn s t p := by
  unfold raisedIn at h ⊢
  rw [hnotice]
  by_cases hheld : p ∈ s.notice.held
  · rw [if_pos hheld] at h ⊢
    exact h
  by_cases hfull : 64 ≤ s.notice.count
  · rw [if_neg hheld, if_pos hfull] at h ⊢
    exact h
  rw [if_neg hheld, if_neg hfull] at h ⊢
  obtain ⟨hheld, hslot⟩ := h
  refine ⟨hheld, fun i hi => ?_⟩
  rw [hentry, ← hslot i hi]
  refine hsame _ (by omega) fun hin => ?_
  have := hoffs _ hin
  omega

/-! ## The end of a quality window (R170) -/

theorem clearWindowCounts_shows {s : State} (hmem : MemoryLaw s) :
    (∀ a ∈ bytesFrom 0x26 4, s.clearWindowCounts.peek a = 0) ∧ sameWindow s s.clearWindowCounts (bytesFrom 0x26 4) := by
  obtain ⟨hd, hwindow, hmem'⟩ := pokeHalf_shows (s := { s with quality.d := 0, quality.k := 0 }) hmem (a := 0x26) (by decide) 0
  obtain ⟨hk, hwindow', -⟩ := pokeHalf_shows hmem' (a := 0x28) (by decide) 0
  have hd' := shows_of_sameWindow hwindow' (by decide) (by decide) (by decide) hd
  refine ⟨fun a ha => ?_, sameWindow_trans hwindow hwindow'⟩
  have ha' : a = 0x26 ∨ a = 0x27 ∨ a = 0x28 ∨ a = 0x29 := by
    have := mem_bytesFrom.mp ha
    omega
  obtain rfl | rfl | rfl | rfl := ha'
  · exact hd'.1
  · exact hd'.2
  · exact hk.1
  · exact hk.2

theorem clearWindowCounts_eq (s : State) :
    s.clearWindowCounts = { s with quality.d := 0, quality.k := 0, window := s.clearWindowCounts.window } := rfl

/-- The level and its sticky flag, before QUALITY is raised (R170, R171). -/
def levelChanged (s : State) (level : Level) : State :=
  ((match level with
    | .poor => { ({ s with quality.level := level } : State).poke offLevel level.code with
        quality := { s.quality with level := level, wentPoor := true } }
    | .good => { ({ s with quality.level := level } : State).poke offLevel level.code with
        quality := { s.quality with level := level, wentGood := true } } : State)).showSticky

theorem changeLevel_eq (s : State) (level : Level) : s.changeLevel level = (levelChanged s level).raise (.station .quality) := by
  cases level <;> rfl

theorem levelChanged_shows {s : State} (hmem : MemoryLaw s) (level : Level) :
    levelChanged s level = { s with quality := (levelChanged s level).quality, window := (levelChanged s level).window } ∧
    (levelChanged s level).quality = (match level with
      | .poor => { s.quality with level := .poor, wentPoor := true }
      | .good => { s.quality with level := .good, wentGood := true }) ∧
    (levelChanged s level).peek 0x13 = level.code ∧ (levelChanged s level).peek 0x1A = flagsByte (levelChanged s level).quality ∧
    sameWindow s (levelChanged s level) [0x13, 0x1A, 0x1B] ∧ MemoryLaw (levelChanged s level) := by
  have hshow (q : Quality) : let u : State := { s.poke offLevel level.code with quality := q }
      u.showSticky.peek 0x13 = level.code ∧ u.showSticky.peek 0x1A = flagsByte q ∧ sameWindow s u.showSticky [0x13, 0x1A, 0x1B] ∧
        MemoryLaw u.showSticky := by
    intro u
    have hu : MemoryLaw u := poke_wf s offLevel level.code hmem
    have hpoked : sameWindow s u [0x13] := poke_sameWindow s (a := offLevel) (by decide) level.code
    have hlevel : u.peek 0x13 = level.code := peek_poke_same s offLevel level.code hmem (by decide)
    obtain ⟨hflags, -, hsticky⟩ := showSticky_shows hu
    exact ⟨(hsticky _ (by decide) (by decide)).trans hlevel, hflags, sameWindow_trans hpoked hsticky, pokeHalf_wf _ _ _ hu⟩
  cases level with
  | poor => exact ⟨rfl, rfl, hshow _⟩
  | good => exact ⟨rfl, rfl, hshow _⟩

/-- A window's end that changes the level: QUALITY is raised, and then D and K are cleared (R170). -/
theorem endWindow_changes {s : State} (hmem : MemoryLaw s) (level : Level) :
    let t := ({ s.changeLevel level with quality.windowTimer := some 0 } : State).clearWindowCounts
    t = { s with quality := t.quality, notice := t.notice, window := t.window } ∧ (∀ a ∈ bytesFrom 0x26 4, t.peek a = 0) ∧
    t.quality = { (levelChanged s level).quality with d := 0, k := 0, windowTimer := some 0 } ∧
    raisedIn s t (.station .quality) ∧ t.peek 0x13 = level.code ∧ t.peek 0x1A = flagsByte t.quality ∧
    sameWindow s t ([0x13, 0x1A, 0x1B] ++ bytesFrom 0x26 4 ++ raiseBytes s 1) := by
  obtain ⟨hframe, -, hlevel, hflags, hwindow, hwf⟩ := levelChanged_shows hmem level
  rw [changeLevel_eq]
  generalize levelChanged s level = u at *
  have hnotice : u.notice = s.notice := by rw [hframe]
  have honly := raise_only u (.station .quality)
  have hv := raiseWith_wf u (.station .quality) (u.detailOf (.station .quality)) hwf
  obtain ⟨hraised, hwindow'⟩ := raise_after hnotice hwf hwindow (.station .quality)
  have hbelow {a : Nat} (ha : 0x12 < a ∧ a < 0x0600) : (u.raise (.station .quality)).peek a = u.peek a :=
    raise_sameWindow u _ a (by omega) (not_mem_raiseBytes (.inr (.inl ha)) u 1)
  have hveq := honly.eq
  change MemoryLaw (u.raise (.station .quality)) at hv
  generalize u.raise (.station .quality) = v at *
  obtain ⟨hzero, hcleared⟩ := clearWindowCounts_shows (s := { v with quality.windowTimer := some 0 }) hv
  have hteq := clearWindowCounts_eq { v with quality.windowTimer := some 0 }
  generalize ({ v with quality.windowTimer := some 0 } : State).clearWindowCounts = t at *
  have hsame : sameWindow v t (bytesFrom 0x26 4) := hcleared
  have hquality : t.quality = { u.quality with d := 0, k := 0, windowTimer := some 0 } := by rw [hteq, hveq]
  have hcounts {a : Nat} (ha : a ∈ bytesFrom 0x26 4) : 0x26 ≤ a ∧ a < 0x2A := mem_bytesFrom.mp ha
  refine ⟨by rw [hteq, hveq, hframe], hzero, hquality, ?_, ?_, ?_, ?_⟩
  · exact raisedIn_later hraised (by rw [hteq]) hsame (fun a ha => .inl (by have := hcounts ha; omega)) fun n => by rw [hteq]; rfl
  · exact (hsame _ (by decide) (by decide)).trans ((hbelow (by decide)).trans hlevel)
  · rw [hquality]
    exact (hsame _ (by decide) (by decide)).trans ((hbelow (by decide)).trans hflags)
  · exact sameWindow_mono (sameWindow_trans hwindow' hsame) (by
      intro a
      simp only [List.mem_append]
      tauto)

theorem endWindow_eq (s : State) (q : QualityParams) :
    s.endWindow q = ({ (if q.nextLevel s.quality.level (s.quality.d.toNat + s.quality.k.toNat) = s.quality.level then s
      else s.changeLevel (q.nextLevel s.quality.level (s.quality.d.toNat + s.quality.k.toNat)) : State) with
        quality.windowTimer := some 0 } : State).clearWindowCounts := rfl

theorem nextLevel_rise {q : QualityParams} {level : Level} {sum : Nat} (h : level = .good ∧ q.high ≤ sum) :
    q.nextLevel level sum = .poor := by
  obtain ⟨rfl, hsum⟩ := h
  exact if_pos hsum

theorem nextLevel_fall {q : QualityParams} {level : Level} {sum : Nat} (h : level = .poor ∧ sum ≤ q.low) :
    q.nextLevel level sum = .good := by
  obtain ⟨rfl, hsum⟩ := h
  exact if_pos hsum

theorem nextLevel_stays {q : QualityParams} {level : Level} {sum : Nat} (hrise : ¬(level = .good ∧ q.high ≤ sum))
    (hfall : ¬(level = .poor ∧ sum ≤ q.low)) : q.nextLevel level sum = level := by
  cases level with
  | good => exact if_neg fun h => hrise ⟨rfl, h⟩
  | poor => exact if_neg fun h => hfall ⟨rfl, h⟩

theorem exec_qualityWindowEnd {s : State} {q : QualityParams} (hparams : s.quality.params = some q) :
    exec .qualityWindowEnd s = .next (if 65536 * 2 ^ q.exponent ≤ s.quality.windowTimer.getD 0 then s.endWindow q else s) := by
  have hexec : exec .qualityWindowEnd s = .next (if timerOut q.window s.quality.windowTimer then s.endWindow q else s) := by
    show execQualityWindowEnd s = _
    unfold execQualityWindowEnd
    rw [hparams]
  rw [hexec]
  exact congrArg _ (if_congr (timerOut_iff (Nat.mul_pos (by decide) (Nat.pow_pos (by decide)))) rfl rfl)

/-- RX_IDLE_EXPIRY with its tests read as bounds (R165). -/
theorem exec_rxIdleExpiry (s : State) (c : CircuitNo) :
    exec (.rxIdleExpiry c) s = .next (if 16384 ≤ (s.circuit c).rxIdleTimer.getD 0 then
      if 0 < span (s.circuit c).releaseCopy (s.circuit c).rxFill then
        (s.updCircuit c fun k => { k with rxIdleTimer := none }).raise (.circuit c .dataIn)
      else s.updCircuit c fun k => { k with rxIdleTimer := none }
    else s) := by
  refine congrArg _ (if_congr (timerOut_iff (by decide)) ?_ rfl)
  rfl

/-- Settles O51: by whether the timer stands at its limit, and by the sum's place against the thresholds. -/
theorem idleAndQualityTimersRunOut : Obligations.IdleAndQualityTimersRunOut := by
  refine ⟨fun s c hmem => ?_, fun s q hmem hparams hdue => ?_, fun s hearly => ?_⟩
  · have hstopped := onlyCircuit_updCircuit s c fun k => { k with rxIdleTimer := none }
    have hcircuit := circuit_updCircuit_same s c fun k => { k with rxIdleTimer := none }
    by_cases hdue : 16384 ≤ (s.circuit c).rxIdleTimer.getD 0
    · by_cases hfilled : 0 < span (s.circuit c).releaseCopy (s.circuit c).rxFill
      · refine ⟨_, (exec_rxIdleExpiry s c).trans (congrArg _ ((if_pos hdue).trans (if_pos hfilled))),
          onlyCircuit_trans hstopped (onlyCircuit_raise _ c _), ?_, ?_⟩
        · rw [if_pos hdue, (raise_only _ _).circuit]
          exact hcircuit
        · rw [if_pos ⟨hdue, hfilled⟩]
          exact raise_after (u := s.updCircuit c fun k => { k with rxIdleTimer := none }) rfl hmem
            (fun _ _ _ => rfl : sameWindow s _ []) _
      · refine ⟨_, (exec_rxIdleExpiry s c).trans (congrArg _ ((if_pos hdue).trans (if_neg hfilled))), hstopped, ?_, ?_⟩
        · rw [if_pos hdue]
          exact hcircuit
        · rw [if_neg fun h => hfilled h.2]
          exact ⟨rfl, rfl⟩
    · refine ⟨s, (exec_rxIdleExpiry s c).trans (congrArg _ (if_neg hdue)), onlyCircuit_refl s c, (if_neg hdue).symm, ?_⟩
      rw [if_neg fun h => hdue h.1]
      exact ⟨rfl, rfl⟩
  · rw [exec_qualityWindowEnd hparams, if_pos hdue]
    refine ⟨_, rfl, ?_⟩
    have hend := endWindow_eq s q
    have hpoor := (levelChanged_shows hmem .poor).2.1
    have hgood := (levelChanged_shows hmem .good).2.1
    by_cases hrise : s.quality.level = .good ∧ q.high ≤ s.quality.d.toNat + s.quality.k.toNat
    · obtain ⟨heq, hzero, hquality, hraised, hlevel, hflags, hwindow⟩ := endWindow_changes hmem .poor
      rw [hend, nextLevel_rise hrise, if_neg (by rw [hrise.1]; decide), if_pos hrise]
      exact ⟨heq, hzero, hquality.trans (by rw [hpoor]), hraised, hlevel, hflags, hwindow⟩
    by_cases hfall : s.quality.level = .poor ∧ s.quality.d.toNat + s.quality.k.toNat ≤ q.low
    · obtain ⟨heq, hzero, hquality, hraised, hlevel, hflags, hwindow⟩ := endWindow_changes hmem .good
      rw [hend, nextLevel_fall hfall, if_neg (by rw [hfall.1]; decide), if_neg hrise, if_pos hfall]
      exact ⟨heq, hzero, hquality.trans (by rw [hgood]), hraised, hlevel, hflags, hwindow⟩
    · obtain ⟨hzero, hwindow⟩ := clearWindowCounts_shows (s := { s with quality.windowTimer := some 0 }) hmem
      rw [hend, if_pos (nextLevel_stays hrise hfall), if_neg hrise, if_neg hfall]
      exact ⟨rfl, hzero, rfl, rfl, hwindow⟩
  · cases hparams : s.quality.params with
    | none =>
      show execQualityWindowEnd s = _
      unfold execQualityWindowEnd
      rw [hparams]
    | some q =>
      rw [exec_qualityWindowEnd hparams, if_neg (Nat.not_le.mpr (hearly q hparams))]

end Sys2Proof.Proofs
end

section
namespace Sys2Proof.Proofs

open Sys2Proof Sys2Proof.Machine Sys2Proof.Claims Sys2Proof.Safety Sys2Proof.Laws

/-! ## Runs of byte writes -/

theorem pokeEach_append (l m : List (Nat × Byte)) (s : State) : s.pokeEach (l ++ m) = (s.pokeEach l).pokeEach m :=
  List.foldl_append

theorem pokeEach_wf (l : List (Nat × Byte)) {s : State} (hmem : MemoryLaw s) : MemoryLaw (s.pokeEach l) := by
  induction l generalizing s with
  | nil => exact hmem
  | cons b rest ih => exact ih (poke_wf s b.1 b.2 hmem)

/-- A run of writes leaves the bytes that none of them names. -/
theorem peek_pokeEach_ne {l : List (Nat × Byte)} (hrange : ∀ b ∈ l, b.1 < 65536) (s : State) {a : Nat} (ha : a < 65536)
    (hout : ∀ b ∈ l, b.1 ≠ a) : (s.pokeEach l).peek a = s.peek a := by
  induction l generalizing s with
  | nil => rfl
  | cons b rest ih =>
    rw [List.forall_mem_cons] at hrange hout
    exact (ih hrange.2 _ hout.2).trans (peek_poke_ne s b.1 a b.2 hrange.1 ha fun h => hout.1 h.symm)

/-- A run of writes to different bytes leaves each as it was written. -/
theorem peek_pokeEach_same {l : List (Nat × Byte)} (hrange : ∀ b ∈ l, b.1 < 65536) (hnodup : (l.map Prod.fst).Nodup) {s : State}
    (hmem : MemoryLaw s) {a : Nat} {v : Byte} (h : (a, v) ∈ l) : (s.pokeEach l).peek a = v := by
  induction l generalizing s with
  | nil => exact absurd h List.not_mem_nil
  | cons b rest ih =>
    rw [List.forall_mem_cons] at hrange
    rw [List.map_cons, List.nodup_cons] at hnodup
    obtain heq | hrest := List.mem_cons.mp h
    · subst heq
      refine (peek_pokeEach_ne hrange.2 _ hrange.1 fun b hb hba => hnodup.1 ?_).trans (peek_poke_same s a v hmem hrange.1)
      exact hba ▸ List.mem_map_of_mem hb
    · exact ih hrange.2 hnodup.2 (poke_wf s b.1 b.2 hmem) hrest

/-- Writes at these offsets of the record of circuit `c`. -/
def recordWrites (c : CircuitNo) (l : List (Nat × Byte)) : List (Nat × Byte) := l.map fun b => (recordBase c + b.1, b.2)

/-- The window of `t` is that of `s` after these writes of the record of circuit `c`. -/
structure RecordWritten (s t : State) (c : CircuitNo) (l : List (Nat × Byte)) : Prop where
  window : t.window = (s.pokeEach (recordWrites c l)).window
  offsets : ∀ off ∈ l.map Prod.fst, off < 0x40
  nodup : (l.map Prod.fst).Nodup

theorem RecordWritten.range {s t : State} {c : CircuitNo} {l : List (Nat × Byte)} (h : RecordWritten s t c l) :
    ∀ b ∈ recordWrites c l, b.1 < 65536 := by
  intro b hb
  obtain ⟨b', hb', rfl⟩ := List.mem_map.mp hb
  exact record_lt c (h.offsets b'.1 (List.mem_map_of_mem hb'))

theorem RecordWritten.wf {s t : State} {c : CircuitNo} {l : List (Nat × Byte)} (h : RecordWritten s t c l) (hmem : MemoryLaw s) :
    MemoryLaw t := by
  rw [MemoryLaw, h.window]
  exact pokeEach_wf _ hmem

theorem RecordWritten.shows {s t : State} {c : CircuitNo} {l : List (Nat × Byte)} (h : RecordWritten s t c l) (hmem : MemoryLaw s)
    {off : Nat} {v : Byte} (hin : (off, v) ∈ l) : t.peek (recordBase c + off) = v := by
  have hnodup : ((recordWrites c l).map Prod.fst).Nodup := by
    rw [recordWrites, List.map_map]
    have : (Prod.fst ∘ fun b : Nat × Byte => (recordBase c + b.1, b.2)) = (recordBase c + ·) ∘ Prod.fst := rfl
    rw [this, ← List.map_map]
    exact h.nodup.map (fun a b hab => Nat.add_left_cancel hab)
  rw [State.peek, h.window]
  exact peek_pokeEach_same h.range hnodup hmem (List.mem_map.mpr ⟨(off, v), hin, rfl⟩)

theorem RecordWritten.sameWindow {s t : State} {c : CircuitNo} {l : List (Nat × Byte)} (h : RecordWritten s t c l) :
    sameWindow s t (recordBytes c (l.map Prod.fst)) := by
  intro a ha hout
  rw [State.peek, h.window]
  refine peek_pokeEach_ne h.range s ha fun b hb hba => hout ?_
  obtain ⟨b', hb', rfl⟩ := List.mem_map.mp hb
  exact hba ▸ List.mem_map_of_mem (List.mem_map_of_mem hb')

/-! ## The taking of an OPEN or a LISTEN (R60, R61) -/

theorem eq_none_of_refusalCode {o : Option RefusalOutcome} (h : refusalCode o = 0) : o = none := by
  cases o with
  | none => rfl
  | some outcome => cases outcome <;> exact absurd h (by decide)

theorem requestKindOf_code (kind : RequestKind) : requestKindOf kind.code = some kind := by cases kind <;> rfl

/-- A request that passes its checks acts, the take index advances, and the pair it gives is raised (R154). -/
theorem takeIf_of_requestCheck {s : State} {kind : RequestKind} (hwaits : waits s) (hkind : reqByte s 1 = kind.code)
    (hcheck : requestCheck s = 0) :
    s.takeIf (some kind) = ((s.actOn s.requestRecord).1.advanceTake).raiseOption (s.actOn s.requestRecord).2 := by
  have hvalid : s.validate s.requestRecord = none := eq_none_of_refusalCode ((requestCheck_eq hwaits).symm.trans hcheck)
  have hrecord : requestKindOf s.requestRecord.kind = some kind :=
    (congrArg requestKindOf (show s.requestRecord.kind = kind.code from hkind)).trans (requestKindOf_code kind)
  rw [State.takeIf, if_pos ⟨requestWaiting_of_waits hwaits, hrecord⟩, State.takeRequest, hvalid]

theorem actOn_eq {s : State} {kind : RequestKind} (hkind : reqByte s 1 = kind.code) :
    s.actOn s.requestRecord = match kind with
      | .openR => s.openTaken s.requestRecord
      | .listenR => s.listenTaken s.requestRecord
      | .closeR => s.closeTaken s.requestRecord
      | .abortR => s.abortTaken s.requestRecord := by
  have hrecord : requestKindOf s.requestRecord.kind = some kind :=
    (congrArg requestKindOf (show s.requestRecord.kind = kind.code from hkind)).trans (requestKindOf_code kind)
  rw [State.actOn, hrecord]
  cases kind <;> rfl

/-- A request's effect on its circuit, with the take index advanced. -/
theorem advanceTake_requestTaken {s u : State} {c : CircuitNo} (h : CircuitOnly c s u) (hwf : MemoryLaw u) :
    requestTaken s u.advanceTake c := by
  refine ⟨?_, h.others, (peek_advanceTake hwf).trans (by rw [h.rest.requests])⟩
  rw [State.advanceTake, State.poke, circuitsOnly_eq h.rest]

/-- The record fields that the context writes. -/
def contextWrites (r : RequestRecord) : List (Nat × Byte) :=
  [(0x01, r.circuitMode.code), (0x02, 0), (0x03, r.peerAddress.zeroExtend 8), (0x04, 0xFF), (0x05, r.service), (0x07, 0xFF),
    (0x0D, r.rxNotice), (0x0E, r.txNotice)]

/-- The record fields that the start of a transfer writes, with the host's indices. -/
def startWrites (tx rx : Byte) : List (Nat × Byte) :=
  [(0x16, tx), (0x17, rx), (0x18, 0xFF), (0x19, 0xFF), (0x1A, 0), (0x1B, 0), (0x1C, 0), (0x1D, 0), (0x1E, 0), (0x1F, 0), (0x20, 0)]

theorem pokeEach_window_congr (l : List (Nat × Byte)) {s t : State} (h : s.window = t.window) :
    (s.pokeEach l).window = (t.pokeEach l).window := by
  induction l generalizing s t with
  | nil => exact h
  | cons b rest ih => exact ih (congrArg (Memory.write · (b.1 % 65536) b.2) h)

theorem takeContext_window (s : State) (c : CircuitNo) (kind : RequestKind) (r : RequestRecord) :
    (s.takeContext c kind r).window = (s.pokeEach (recordWrites c (contextWrites r))).window := by
  unfold State.takeContext
  dsimp only
  generalize hu : s.updCircuit c _ = u
  have hwindow : u.window = s.window := by rw [← hu]; rfl
  exact (rfl : _ = (u.pokeEach (recordWrites c (contextWrites r))).window).trans (pokeEach_window_congr _ hwindow)

theorem recordWrites_append (c : CircuitNo) (l m : List (Nat × Byte)) : recordWrites c (l ++ m) = recordWrites c l ++ recordWrites c m :=
  List.map_append

theorem startTransfer_window (s : State) (c : CircuitNo) : (s.startTransfer c).window =
    (s.pokeEach (recordWrites c (startWrites (s.peek (recordBase c + 0x30)) (s.peek (recordBase c + 0x31))))).window := by
  have hlast (u : State) : ((((u.pokeRecordHalf c recFirstGap 0xFFFF).pokeRecordHalf c recGapCount 0).pokeRecordHalf c recDiscardCount 0
      ).pokeRecordHalf c recOverrunCount 0 |>.pokeRecord c recUnsent 0).window =
      (u.pokeEach (recordWrites c [(0x18, 0xFF), (0x19, 0xFF), (0x1A, 0), (0x1B, 0), (0x1C, 0), (0x1D, 0), (0x1E, 0), (0x1F, 0),
        (0x20, 0)])).window := rfl
  have hsplit (tx rx : Byte) : startWrites tx rx = [(0x16, tx), (0x17, rx)] ++ [(0x18, 0xFF), (0x19, 0xFF), (0x1A, 0), (0x1B, 0),
    (0x1C, 0), (0x1D, 0), (0x1E, 0), (0x1F, 0), (0x20, 0)] := rfl
  have hindices : ((s.takeIndices c).updCircuit c Circuit.startTransfer).window =
      (s.pokeEach (recordWrites c [(0x16, s.peek (recordBase c + 0x30)), (0x17, s.peek (recordBase c + 0x31))])).window := rfl
  rw [State.startTransfer, hlast, hsplit, recordWrites_append, pokeEach_append]
  exact pokeEach_window_congr _ hindices

/-- The record fields that the taking of an OPEN of a present peer writes. -/
def callWrites (s : State) (c : CircuitNo) (r : RequestRecord) : List (Nat × Byte) :=
  contextWrites r ++ ([(0x06, ((s.circuit c).callTag + 1).zeroExtend 8)] ++
    (startWrites (s.peek (recordBase c + 0x30)) (s.peek (recordBase c + 0x31)) ++ [(0x00, 2)]))

/-- The record fields that the taking of a LISTEN writes. -/
def listenWrites (s : State) (c : CircuitNo) (r : RequestRecord) : List (Nat × Byte) :=
  contextWrites r ++ (startWrites (s.peek (recordBase c + 0x30)) (s.peek (recordBase c + 0x31)) ++ [(0x00, 1)])

theorem setCircuitState_window (s : State) (c : CircuitNo) (st : CircuitState) :
    (s.setCircuitState c st).window = (s.pokeEach (recordWrites c [(0x00, st.code)])).window := rfl

theorem listenTaken_written (s : State) (r : RequestRecord) :
    RecordWritten s (s.listenTaken r).1 r.circuitNo (listenWrites s r.circuitNo r) where
  window := by
    rw [State.listenTaken, setCircuitState_window, listenWrites, recordWrites_append, recordWrites_append, pokeEach_append, pokeEach_append]
    refine pokeEach_window_congr _ ?_
    rw [startTransfer_window, peek_takeContext_index _ _ _ _ (.inl rfl), peek_takeContext_index _ _ _ _ (.inr rfl)]
    exact pokeEach_window_congr _ (takeContext_window s r.circuitNo .listenR r)
  offsets := (by decide : ∀ off ∈ [0x01, 0x02, 0x03, 0x04, 0x05, 0x07, 0x0D, 0x0E, 0x16, 0x17, 0x18, 0x19, 0x1A, 0x1B, 0x1C, 0x1D, 0x1E,
    0x1F, 0x20, 0x00], off < 0x40)
  nodup := (by decide : [0x01, 0x02, 0x03, 0x04, 0x05, 0x07, 0x0D, 0x0E, 0x16, 0x17, 0x18, 0x19, 0x1A, 0x1B, 0x1C, 0x1D, 0x1E, 0x1F,
    0x20, 0x00].Nodup)

theorem placeCall_written (s : State) (r : RequestRecord) :
    RecordWritten s (s.placeCall r.circuitNo r) r.circuitNo (callWrites s r.circuitNo r) where
  window := by
    have hindex (u : State) (v : Byte) {off : Nat} (hoff : off = 0x30 ∨ off = 0x31) :
        (u.pokeRecord r.circuitNo recCallTag v).peek (recordBase r.circuitNo + off) = u.peek (recordBase r.circuitNo + off) := by
      have hbase := recordBase_range r.circuitNo
      refine pokeRecord_sameWindow u r.circuitNo (by decide) v _ (by omega) ?_
      rcases hoff with rfl | rfl <;> simp [recordBytes, recCallTag]
    have htag (u : State) (v : Byte) : (u.pokeRecord r.circuitNo recCallTag v).window =
        (u.pokeEach (recordWrites r.circuitNo [(0x06, v)])).window := rfl
    have hcalled (u : State) (f : Circuit → Circuit) {off : Nat} :
        (u.updCircuit r.circuitNo f).peek (recordBase r.circuitNo + off) = u.peek (recordBase r.circuitNo + off) := rfl
    rw [State.placeCall, setCircuitState_window, callWrites, recordWrites_append, recordWrites_append, recordWrites_append,
      pokeEach_append, pokeEach_append, pokeEach_append]
    refine pokeEach_window_congr _ ?_
    rw [startTransfer_window, hindex _ _ (.inl rfl), hindex _ _ (.inr rfl), hcalled, hcalled, peek_takeContext_index _ _ _ _ (.inl rfl),
      peek_takeContext_index _ _ _ _ (.inr rfl)]
    refine pokeEach_window_congr _ ?_
    rw [htag, circuit_updCircuit_same, takeContext_circuit]
    refine pokeEach_window_congr _ ?_
    rw [updCircuit_window]
    exact takeContext_window s r.circuitNo .openR r
  offsets := (by decide : ∀ off ∈ [0x01, 0x02, 0x03, 0x04, 0x05, 0x07, 0x0D, 0x0E, 0x06, 0x16, 0x17, 0x18, 0x19, 0x1A, 0x1B, 0x1C, 0x1D,
    0x1E, 0x1F, 0x20, 0x00], off < 0x40)
  nodup := (by decide : [0x01, 0x02, 0x03, 0x04, 0x05, 0x07, 0x0D, 0x0E, 0x06, 0x16, 0x17, 0x18, 0x19, 0x1A, 0x1B, 0x1C, 0x1D, 0x1E,
    0x1F, 0x20, 0x00].Nodup)

theorem requestRecord_peerAddress (s : State) : s.requestRecord.peerAddress = (reqByte s 3).setWidth 5 :=
  (BitVec.setWidth_eq_extractLsb' (by decide)).symm

/-- The record of a taken request reads as the statements say, where its writes are among those of `l`. -/
theorem takenShows_of_written {s u t : State} {l : List (Nat × Byte)} (hmem : MemoryLaw s)
    (h : RecordWritten s u (reqCircuit s) l)
    (hcontext : contextWrites s.requestRecord ++ startWrites (s.peek (recordBase (reqCircuit s) + 0x30))
      (s.peek (recordBase (reqCircuit s) + 0x31)) ⊆ l)
    (hrecord : ∀ off < 0x40, t.peek (recordBase (reqCircuit s) + off) = u.peek (recordBase (reqCircuit s) + off)) :
    takenShows s t (reqCircuit s) := by
  have hread (i : Nat) {off : Nat} {v : Byte} (hin : (contextWrites s.requestRecord ++
      startWrites (s.peek (recordBase (reqCircuit s) + 0x30)) (s.peek (recordBase (reqCircuit s) + 0x31)))[i]? = some (off, v))
      (hoff : off < 0x40) : t.peek (recordBase (reqCircuit s) + off) = v :=
    (hrecord off hoff).trans (h.shows hmem (hcontext (List.mem_of_getElem? hin)))
  have hmode : s.requestRecord.circuitMode.code = if reqMode s = .plain then 1 else 0 := by
    have : s.requestRecord.circuitMode = reqMode s := rfl
    rw [this]
    cases reqMode s <;> rfl
  have hpeer : s.requestRecord.peerAddress.zeroExtend 8 = ((reqByte s 3).setWidth 5).setWidth 8 := by rw [requestRecord_peerAddress]
  have hzero {a : Nat} (ha : a ∈ recordBytes (reqCircuit s) [0x1A, 0x1B, 0x1C, 0x1D, 0x1E, 0x1F, 0x20]) : t.peek a = 0 := by
    simp only [recordBytes, List.map_cons, List.map_nil, List.mem_cons, List.not_mem_nil, or_false] at ha
    obtain rfl | rfl | rfl | rfl | rfl | rfl | rfl := ha
    · exact hread 12 rfl (by decide)
    · exact hread 13 rfl (by decide)
    · exact hread 14 rfl (by decide)
    · exact hread 15 rfl (by decide)
    · exact hread 16 rfl (by decide)
    · exact hread 17 rfl (by decide)
    · exact hread 18 rfl (by decide)
  exact ⟨(hread 0 rfl (by decide)).trans hmode, hread 1 rfl (by decide), (hread 2 rfl (by decide)).trans hpeer, hread 3 rfl (by decide),
    hread 4 rfl (by decide), hread 5 rfl (by decide), hread 6 rfl (by decide), hread 7 rfl (by decide), hread 8 rfl (by decide),
    hread 9 rfl (by decide), ⟨hread 10 rfl (by decide), hread 11 rfl (by decide)⟩, fun a ha => hzero ha⟩

theorem takenCircuit_eq (s : State) (kind : RequestKind) : takenCircuit s (reqCircuit s) kind =
    contextTaken (s.circuit (reqCircuit s)) kind s.requestRecord (s.peek (recordBase (reqCircuit s) + 0x30))
      (s.peek (recordBase (reqCircuit s) + 0x31)) := by
  have hmode : s.requestRecord.circuitMode = reqMode s := rfl
  have hpeer := requestRecord_peerAddress s
  have hservice : s.requestRecord.service = reqByte s 4 := rfl
  have hrx : s.requestRecord.rxNotice = reqByte s 6 := rfl
  have htx : s.requestRecord.txNotice = reqByte s 7 := rfl
  have hid : s.requestRecord.id = reqByte s 0 := rfl
  unfold takenCircuit contextTaken Circuit.startTransfer
  rw [hmode, hpeer, hservice, hrx, htx, hid]
  cases h : reqMode s
  · rw [if_pos rfl]
  · rw [if_neg (by decide)]

theorem peek_advanceTake_ne (u : State) {a : Nat} (ha : a < 65536) (hne : a ≠ 0x0D) : u.advanceTake.peek a = u.peek a :=
  advanceTake_sameWindow u a ha (by simpa using hne)

theorem peek_record_advanceTake (u : State) (c : CircuitNo) {off : Nat} (hoff : off < 0x40) :
    u.advanceTake.peek (recordBase c + off) = u.peek (recordBase c + off) := by
  have hbase := recordBase_range c
  exact peek_advanceTake_ne u (by omega) (by omega)

theorem takeContext_frame (s : State) (c : CircuitNo) (kind : RequestKind) (r : RequestRecord) :
    (s.takeContext c kind r).orphans = s.orphans ∧ (s.takeContext c kind r).notice = s.notice := by
  simp [State.takeContext]

theorem startTransfer_frame (s : State) (c : CircuitNo) :
    (s.startTransfer c).orphans = s.orphans ∧ (s.startTransfer c).notice = s.notice := by
  simp [State.startTransfer, State.takeIndices]

theorem placeCall_frame (s : State) (c : CircuitNo) (r : RequestRecord) :
    (s.placeCall c r).orphans = s.orphans ∧ (s.placeCall c r).notice = s.notice := by
  rw [State.placeCall]
  simp [State.setCircuitState, startTransfer_frame, takeContext_frame]

/-- What a taking that writes these bytes of its circuit's record, and completes nothing, shows. -/
theorem taken_of_written {s u : State} {l : List (Nat × Byte)} (hmem : MemoryLaw s) (honly : CircuitOnly (reqCircuit s) s u)
    (hwritten : RecordWritten s u (reqCircuit s) l)
    (hcontext : contextWrites s.requestRecord ++ startWrites (s.peek (recordBase (reqCircuit s) + 0x30))
      (s.peek (recordBase (reqCircuit s) + 0x31)) ⊆ l) :
    requestTaken s u.advanceTake (reqCircuit s) ∧ takenShows s u.advanceTake (reqCircuit s) ∧
      sameWindow s u.advanceTake (recordBytes (reqCircuit s) (l.map Prod.fst) ++ [0x0D]) ∧
      ∀ {off : Nat} {v : Byte}, (off, v) ∈ l → off < 0x40 → u.advanceTake.peek (recordBase (reqCircuit s) + off) = v :=
  ⟨advanceTake_requestTaken honly (hwritten.wf hmem),
    takenShows_of_written hmem hwritten hcontext fun _ hoff => peek_record_advanceTake u _ hoff,
    sameWindow_trans hwritten.sameWindow (advanceTake_sameWindow u),
    fun hin hoff => (peek_record_advanceTake u _ hoff).trans (hwritten.shows hmem hin)⟩

/-- The bytes of the record that both takings write, in the order the statements name them. -/
def takenOffsets : List Nat :=
  [0x00, 0x01, 0x02, 0x03, 0x04, 0x05, 0x07, 0x0D, 0x0E, 0x16, 0x17, 0x18, 0x19, 0x1A, 0x1B, 0x1C, 0x1D, 0x1E, 0x1F, 0x20]

theorem takenBytes_eq (c : CircuitNo) : takenBytes c = [0x0D] ++ recordBytes c takenOffsets := rfl

theorem recordBytes_append (c : CircuitNo) (l m : List Nat) : recordBytes c (l ++ m) = recordBytes c l ++ recordBytes c m :=
  List.map_append

theorem recordBytes_mono (c : CircuitNo) {l m : List Nat} (h : l ⊆ m) : recordBytes c l ⊆ recordBytes c m := List.map_subset _ h

theorem callWrites_bytes (s : State) : recordBytes (reqCircuit s) ((callWrites s (reqCircuit s) s.requestRecord).map Prod.fst) ++ [0x0D] ⊆
    takenBytes (reqCircuit s) ++ [recordBase (reqCircuit s) + 0x06] := by
  have hoffs : (callWrites s (reqCircuit s) s.requestRecord).map Prod.fst ⊆ takenOffsets ++ [0x06] :=
    (by decide : [0x01, 0x02, 0x03, 0x04, 0x05, 0x07, 0x0D, 0x0E, 0x06, 0x16, 0x17, 0x18, 0x19, 0x1A, 0x1B, 0x1C, 0x1D, 0x1E, 0x1F, 0x20,
      0x00] ⊆ takenOffsets ++ [0x06])
  have hbytes := recordBytes_mono (reqCircuit s) hoffs
  rw [recordBytes_append] at hbytes
  rw [takenBytes_eq, List.append_subset, List.append_assoc]
  exact ⟨fun a ha => List.mem_append_right _ (hbytes ha), by simp⟩

theorem listenWrites_bytes (s : State) :
    recordBytes (reqCircuit s) ((listenWrites s (reqCircuit s) s.requestRecord).map Prod.fst) ++ [0x0D] ⊆ takenBytes (reqCircuit s) := by
  have hoffs : (listenWrites s (reqCircuit s) s.requestRecord).map Prod.fst ⊆ takenOffsets :=
    (by decide : [0x01, 0x02, 0x03, 0x04, 0x05, 0x07, 0x0D, 0x0E, 0x16, 0x17, 0x18, 0x19, 0x1A, 0x1B, 0x1C, 0x1D, 0x1E, 0x1F, 0x20,
      0x00] ⊆ takenOffsets)
  rw [takenBytes_eq, List.append_subset]
  exact ⟨fun a ha => List.mem_append_right _ (recordBytes_mono _ hoffs ha), by simp⟩

/-- Settles O18: by the presence of the peer; the writes of a taking are one run of bytes of the circuit's record. -/
theorem openAndListenAreTaken : Obligations.OpenAndListenAreTaken := by
  refine ⟨fun s hmem hwaits hkind hcheck => ?_, fun s hmem hwaits hkind hcheck => ?_⟩
  · have hexec : exec .openRequest s = .next (s.takeIf (some .openR)) := rfl
    rw [takeIf_of_requestCheck (kind := .openR) hwaits hkind hcheck, actOn_eq (kind := .openR) hkind] at hexec
    have hopen : s.openTaken s.requestRecord = if s.roster.isPresent ((reqByte s 3).setWidth 5) = true then
        (s.placeCall (reqCircuit s) s.requestRecord, none)
      else (s.writeCompletion (reqCircuit s) ⟨.openR, reqByte s 0, .noPeer, none⟩, some (.circuit (reqCircuit s) .done)) := by
      rw [← requestRecord_peerAddress]
      rfl
    by_cases hpresent : s.roster.isPresent ((reqByte s 3).setWidth 5) = true
    · replace hexec : exec .openRequest s = .next (s.placeCall (reqCircuit s) s.requestRecord).advanceTake :=
        hexec.trans (by rw [hopen, if_pos hpresent]; rfl)
      have hwritten : RecordWritten s (s.placeCall (reqCircuit s) s.requestRecord) (reqCircuit s)
          (callWrites s (reqCircuit s) s.requestRecord) := placeCall_written s s.requestRecord
      have hcircuit := placeCall_circuit s (reqCircuit s) s.requestRecord
      have hselector := placeCall_selector s (reqCircuit s) s.requestRecord
      obtain ⟨horphans, hnotice⟩ := placeCall_frame s (reqCircuit s) s.requestRecord
      obtain ⟨htaken, hshows, hwindow, hread⟩ := taken_of_written hmem (placeCall_only s (reqCircuit s) s.requestRecord) hwritten (by
        intro b hb
        simp only [callWrites, List.mem_append] at hb ⊢
        tauto)
      generalize s.placeCall (reqCircuit s) s.requestRecord = u at *
      refine ⟨_, hexec, htaken, horphans, hselector, ?_⟩
      rw [if_pos hpresent]
      refine ⟨?_, hnotice, hshows, hread (off := 0) ?_ (by decide), hread ?_ (by decide), sameWindow_mono hwindow (callWrites_bytes s)⟩
      · rw [takenCircuit_eq]
        exact hcircuit
      · simp [callWrites]
      · simp [callWrites]
    · replace hexec : exec .openRequest s = .next (takenWithDone (s.writeCompletion (reqCircuit s) ⟨.openR, reqByte s 0, .noPeer, none⟩)
          (reqCircuit s)) := hexec.trans (by rw [hopen, if_neg hpresent]; rfl)
      have hwf := writeCompletion_wf hmem (reqCircuit s) ⟨.openR, reqByte s 0, .noPeer, none⟩
      refine ⟨_, hexec, takenWithDone_requestTaken (writeCompletion_only ..) hwf,
        (takenWithDone_orphans _ (reqCircuit s)).trans (writeCompletion_orphans ..),
        (takenWithDone_selector _ (reqCircuit s)).trans (writeCompletion_selector ..), ?_⟩
      rw [if_neg hpresent]
      exact ⟨(circuit_takenWithDone ..).trans (writeCompletion_circuit ..), takenWithDone_raisedIn _ (writeCompletion_notice ..) hwf,
        takenWithDone_showsCompletion (writeCompletion_showsCompletion hmem ..),
        taken_sameWindow _ (writeCompletion_notice ..) (writeCompletion_sameWindow _ _ _)⟩
  · have hexec : exec .listenRequest s = .next (s.takeIf (some .listenR)) := rfl
    rw [takeIf_of_requestCheck (kind := .listenR) hwaits hkind hcheck, actOn_eq (kind := .listenR) hkind] at hexec
    replace hexec : exec .listenRequest s = .next (s.listenTaken s.requestRecord).1.advanceTake := hexec
    have hwritten : RecordWritten s (s.listenTaken s.requestRecord).1 (reqCircuit s)
        (listenWrites s (reqCircuit s) s.requestRecord) := listenTaken_written s s.requestRecord
    have hcircuit : (s.listenTaken s.requestRecord).1.circuit (reqCircuit s) = _ := listenTaken_circuit s s.requestRecord
    have honly : CircuitOnly (reqCircuit s) s (s.listenTaken s.requestRecord).1 :=
      ((takeContext_only s _ .listenR s.requestRecord).trans (startTransfer_only _ _)).trans (setCircuitState_only _ _ .listening)
    have hselector : (s.listenTaken s.requestRecord).1.selector = s.selector := by
      simp [State.listenTaken, State.setCircuitState, startTransfer_selector, takeContext_selector]
    have horphans : (s.listenTaken s.requestRecord).1.orphans = s.orphans := by
      simp [State.listenTaken, State.setCircuitState, startTransfer_frame, takeContext_frame]
    have hnotice : (s.listenTaken s.requestRecord).1.notice = s.notice := by
      simp [State.listenTaken, State.setCircuitState, startTransfer_frame, takeContext_frame]
    obtain ⟨htaken, hshows, hwindow, hread⟩ := taken_of_written hmem honly hwritten (by
      intro b hb
      simp only [listenWrites, List.mem_append] at hb ⊢
      tauto)
    generalize (s.listenTaken s.requestRecord).1 = u at *
    refine ⟨_, hexec, htaken, horphans, hselector, hnotice, ?_, hshows, hread (off := 0) ?_ (by decide), sameWindow_mono hwindow (listenWrites_bytes s)⟩
    · rw [takenCircuit_eq]
      exact hcircuit
    · simp [listenWrites]

end Sys2Proof.Proofs
end

section
namespace Sys2Proof.Proofs

open Sys2Proof Sys2Proof.Machine Sys2Proof.Claims Sys2Proof.Safety Sys2Proof.Laws

/-! ## The drain of a circuit (R80, R81) -/

/-- The state byte is all that a new state, written over quiet changes of the context, shows in the window. -/
structure StateShown (s u : State) (c : CircuitNo) (code : Byte) : Prop where
  notice : u.notice = s.notice
  orphans : u.orphans = s.orphans
  wf : MemoryLaw u
  state : u.peek (recordBase c) = code
  window : sameWindow s u [recordBase c]

theorem setCircuitState_shown {s v : State} (hmem : MemoryLaw s) (hwindow : v.window = s.window) (hnotice : v.notice = s.notice)
    (horphans : v.orphans = s.orphans) (c : CircuitNo) (st : CircuitState) : StateShown s (v.setCircuitState c st) c st.code := by
  have hv : MemoryLaw v := by rw [MemoryLaw, hwindow]; exact hmem
  refine ⟨hnotice, horphans, setCircuitState_wf hv c st, peek_setCircuitState hv c st, fun a ha hout => ?_⟩
  exact (setCircuitState_sameWindow v c st a ha hout).trans (by rw [State.peek, hwindow]; rfl)

theorem enterClearing_shown {s : State} (hmem : MemoryLaw s) (c : CircuitNo) : StateShown s (s.enterClearing c) c 5 := by
  have h : s.enterClearing c = (((s.clearAckPoll c).oweControl c .clear).updCircuit c fun k =>
    { k with sendCount := 0, retryTimer := none, dataRetryTimer := none, probeTimer := none }).setCircuitState c .clearing := rfl
  rw [h]
  exact setCircuitState_shown (v := ((s.clearAckPoll c).oweControl c .clear).updCircuit c _) hmem rfl rfl rfl c .clearing

/-- An OPEN circuit as its drain begins. -/
def drainBegun (s : State) (c : CircuitNo) (id : Byte) : State :=
  (s.updCircuit c fun k => { k with drainTarget := k.postedCopy, inFlight := some (.closeR, id) }).setCircuitState c .draining

theorem startDrain_eq (s : State) (c : CircuitNo) (id : Byte) :
    s.startDrain c id = ((drainBegun s c id).testDrain c).testStall c := rfl

theorem drainBegun_circuit (s : State) (c : CircuitNo) (id : Byte) : (drainBegun s c id).circuit c = drainingFrom (s.circuit c) id := by
  rw [drainBegun, setCircuitState_circuit, circuit_updCircuit_same]

/-- A circuit that no longer transfers does not stall, so the test for the probe stops its timer. -/
theorem probeOf_clearingFrom (k : Circuit) : probeOf (clearingFrom k) = none := by
  simp [probeOf, Circuit.stalled, CircuitState.transfers]

/-- What a CLOSE of an OPEN circuit leaves, by whether anything is left to drain. -/
theorem startDrain_shows {s : State} (hmem : MemoryLaw s) (c : CircuitNo) (id : Byte) :
    (s.startDrain c id).notice = s.notice ∧ (s.startDrain c id).orphans = s.orphans ∧ MemoryLaw (s.startDrain c id) ∧
    sameWindow s (s.startDrain c id) [recordBase c] ∧
    if (s.circuit c).txDone = (s.circuit c).postedCopy then
      (s.startDrain c id).circuit c = clearingFrom (drainingFrom (s.circuit c) id) ∧
      (s.startDrain c id).selector = flightForgets s c false ∧ (s.startDrain c id).peek (recordBase c) = 5
    else
      (s.startDrain c id).circuit c = { drainingFrom (s.circuit c) id with probeTimer := probeOf (drainingFrom (s.circuit c) id) } ∧
      (s.startDrain c id).selector = s.selector ∧ (s.startDrain c id).peek (recordBase c) = 4 := by
  have hcircuit := drainBegun_circuit s c id
  have hshown : StateShown s (drainBegun s c id) c 4 :=
    setCircuitState_shown (v := s.updCircuit c _) hmem rfl rfl rfl c .draining
  have hselector : (drainBegun s c id).selector = s.selector := rfl
  rw [startDrain_eq]
  generalize drainBegun s c id = u at *
  by_cases hdrained : (s.circuit c).txDone = (s.circuit c).postedCopy
  · have hcleared := enterClearing_shown hshown.wf c
    have hforgets : (u.enterClearing c).selector = flightForgets s c false := by
      rw [enterClearing_selector, flightForgets, flightForgets, hselector, hcircuit]
    have hentered := enterClearing_circuit u c
    rw [if_pos hdrained, testDrain_of_drained (by rw [hcircuit]; exact ⟨rfl, hdrained⟩)]
    rw [hcircuit] at hentered
    generalize u.enterClearing c = v at *
    refine ⟨hcleared.notice.trans hshown.notice, hcleared.orphans.trans hshown.orphans, hcleared.wf, ?_, ?_, hforgets, hcleared.state⟩
    · exact sameWindow_mono (sameWindow_trans hshown.window hcleared.window) (by simp)
    · rw [testStall_circuit, hentered, probeOf_clearingFrom]
  · rw [if_neg hdrained, testDrain_of_not (by rw [hcircuit]; exact fun h => hdrained h.2)]
    refine ⟨hshown.notice, hshown.orphans, hshown.wf, hshown.window, ?_, hselector, hshown.state⟩
    rw [testStall_circuit, hcircuit]

/-- Settles O19: by whether anything is left to drain. -/
theorem closeDrainsThenClears : Obligations.CloseDrainsThenClears := by
  refine ⟨fun s hmem hwaits hkind hcheck hopened => ?_, fun s c hmem => ?_⟩
  · have hclose : s.closeTaken s.requestRecord = (s.startDrain (reqCircuit s) (reqByte s 0), none) :=
      if_neg (show ¬(s.circuit (reqCircuit s)).state = .ended by rw [hopened]; decide)
    have hexec : exec .closeRequest s = .next (s.startDrain (reqCircuit s) (reqByte s 0)).advanceTake := by
      have h : exec .closeRequest s = .next (s.takeIf (some .closeR)) := rfl
      rw [takeIf_of_requestCheck (kind := .closeR) hwaits hkind hcheck, actOn_eq (kind := .closeR) hkind] at h
      exact h.trans (by rw [hclose]; rfl)
    have honly := startDrain_only s (reqCircuit s) (reqByte s 0)
    obtain ⟨hnotice, horphans, hwf, hwindow, hcases⟩ := startDrain_shows hmem (reqCircuit s) (reqByte s 0)
    generalize s.startDrain (reqCircuit s) (reqByte s 0) = u at *
    have hrecord : u.advanceTake.peek (recordBase (reqCircuit s)) = u.peek (recordBase (reqCircuit s)) :=
      peek_record_advanceTake u (reqCircuit s) (off := 0) (by decide)
    refine ⟨_, hexec, advanceTake_requestTaken honly hwf, horphans, hnotice,
      sameWindow_mono (sameWindow_trans hwindow (advanceTake_sameWindow u)) (by simp), ?_⟩
    by_cases hdrained : (s.circuit (reqCircuit s)).txDone = (s.circuit (reqCircuit s)).postedCopy
    · rw [if_pos hdrained] at hcases ⊢
      obtain ⟨hcircuit, hselector, hstate⟩ := hcases
      exact ⟨hcircuit, hselector, hrecord.trans hstate⟩
    · rw [if_neg hdrained] at hcases ⊢
      obtain ⟨hcircuit, hselector, hstate⟩ := hcases
      exact ⟨hcircuit, hselector, hrecord.trans hstate⟩
  · have hexec : exec (.drainComplete c) s = .next (s.testDrain c) := rfl
    by_cases hdrained : (s.circuit c).state = .draining ∧ (s.circuit c).txDone = (s.circuit c).drainTarget
    · rw [testDrain_of_drained hdrained] at hexec
      have hshown := enterClearing_shown hmem c
      have hcircuit := enterClearing_circuit s c
      have hselector := enterClearing_selector s c
      have honly : CircuitOnly c s (s.enterClearing c) := by
        have := testDrain_only s c
        rwa [testDrain_of_drained hdrained] at this
      generalize s.enterClearing c = u at *
      refine ⟨u, hexec, ?_⟩
      rw [if_pos hdrained]
      refine ⟨(circuitsOnly_eq honly.rest).trans ?_, honly.others, hcircuit, hshown.state, hshown.window⟩
      rw [hselector, hshown.orphans, hshown.notice]
    · rw [testDrain_of_not hdrained] at hexec
      exact ⟨s, hexec, by rw [if_neg hdrained]⟩

end Sys2Proof.Proofs
end

section
namespace Sys2Proof.Proofs

open Sys2Proof Sys2Proof.Machine Sys2Proof.Claims Sys2Proof.Safety Sys2Proof.Laws

/-! ## The present set (R25) -/

theorem presentFold_bit (r : Roster) (l : List Nat) (w : BitVec 32) {i : Nat} (hi : i < 32) :
    (l.foldl (fun (w : BitVec 32) a => if (r.entry a).present then w ||| (1 <<< a) else w) w).getLsbD i =
      (w.getLsbD i || decide (i ∈ l ∧ (r.entry i).present = true)) := by
  induction l generalizing w with
  | nil => simp
  | cons a rest ih =>
    rw [List.foldl_cons, ih]
    have hbit : ((1 <<< a : Nat) : BitVec 32).getLsbD i = decide (i = a) := by
      rw [BitVec.natCast_eq_ofNat, BitVec.getLsbD_ofNat, decide_eq_true hi, Bool.true_and, Nat.one_shiftLeft, Nat.testBit_two_pow]
      exact decide_eq_decide.mpr eq_comm
    by_cases hpresent : (r.entry a).present = true
    · rw [if_pos hpresent, BitVec.getLsbD_or, hbit, Bool.or_assoc]
      congr 1
      by_cases h : i = a
      · subst h; simp [hpresent]
      · simp [h]
    · rw [if_neg hpresent]
      congr 1
      by_cases h : i = a
      · subst h; simp [hpresent]
      · simp [h]

theorem presentSet_isPresentSet (r : Roster) : isPresentSet r.presentSet r := by
  refine ⟨fun a ha => ?_, ?_⟩
  · rw [Roster.presentSet, presentFold_bit r _ _ (by omega)]
    simp [allAddresses, ha]
  · rw [Roster.presentSet, presentFold_bit r _ _ (i := 31) (by decide)]
    simp [allAddresses]

/-! ## The lowest-numbered circuit -/

theorem allCircuits_sorted : allCircuits.Pairwise (· < ·) := by decide

/-- The first of a sorted list at which a function gives something. -/
theorem findSome?_first {α : Type} {r : CircuitNo → CircuitNo → Prop} {l : List CircuitNo} (hsorted : l.Pairwise r) {c : CircuitNo}
    (hc : c ∈ l) {g : CircuitNo → Option α} {x : α} (hfirst : ∀ d ∈ l, r d c → g d = none) (hx : g c = some x) :
    l.findSome? g = some x := by
  obtain ⟨l1, l2, rfl⟩ := List.append_of_mem hc
  rw [List.pairwise_append] at hsorted
  rw [List.findSome?_append, List.findSome?_eq_none_iff.mpr, Option.none_or, List.findSome?_cons, hx]
  exact fun d hd => hfirst d (List.mem_append_left _ hd) (hsorted.2.2 d hd c List.mem_cons_self)

theorem findCircuit_first {s : State} {q : Circuit → Bool} {c : CircuitNo} (hc : q (s.circuit c) = true)
    (hfirst : ∀ d, d < c → q (s.circuit d) = false) : s.findCircuit (fun _ k => q k) = some c := by
  have hfind : s.findCircuit (fun _ k => q k) = allCircuits.findSome? (Option.guard fun d => q (s.circuit d)) :=
    (List.findSome?_guard).symm
  rw [hfind]
  refine findSome?_first allCircuits_sorted (mem_allCircuits c) (fun d _ hd => ?_) ?_
  · simp [Option.guard, hfirst d hd]
  · simp [Option.guard, hc]

/-! ## Candidates (R50) -/

theorem controlCandidate_eq (k : Circuit) : k.controlCandidate = controlOf k := by
  unfold Circuit.controlCandidate controlOf
  rcases k.controlOwed with _ | kind
  · rfl
  · cases kind <;> rfl

theorem wantsResend_eq (k : Circuit) : k.wantsResend = resendOf k := by
  unfold Circuit.wantsResend resendOf
  simp only [Bool.and_eq_true, beq_iff_eq]

theorem wantsNew_eq (k : Circuit) : k.wantsNew = if maySend k then some k.nextSeq else none := by
  unfold Circuit.wantsNew maySend
  cases k.mode with
  | assured => rfl
  | plain => rfl

theorem callCredit_eq (k : Circuit) : k.callCredit = openingCredit k := by
  unfold Circuit.callCredit openingCredit
  cases k.mode <;> rfl

theorem txSlot_eq (k : Circuit) (seq : Seq) : k.txSlot seq = sendSlot k seq := by
  unfold Circuit.txSlot sendSlot slotOffset
  cases k.mode <;> simp

theorem owesCall_eq (k : Circuit) : (k.state == .calling && k.callOwed) = owesCall k := by
  rw [owesCall, beq_eq_decide]

theorem owesAck_eq (k : Circuit) : (k.mode == .assured && k.state.transfers && (k.ackOwed || k.pollOwed)) = owesAck k := by
  rw [owesAck, beq_eq_decide]

theorem controlFrame_eq (s : State) (c : CircuitNo) (kind : ControlKind) : s.controlFrame c kind = ⟨.control kind, ownedBy s c,
    (match kind with | .answer => .answer | .confirm => .confirm | .clear => .clear),
    frameOf s c ((s.circuit c).peerCircuit.getD 0) (if kind = .answer then (s.circuit c).peerTag.getD 0 else 0) 0
      (if kind = .answer then openingCredit (s.circuit c) else 0) false false,
    .literal [], ⟨some kind, false, false, false⟩⟩ := by
  unfold State.controlFrame
  rw [callCredit_eq]
  cases kind <;> rfl

theorem callFrame_eq (s : State) (c : CircuitNo) : s.callFrame c = ⟨.call, ownedBy s c, .call,
    frameOf s c 0 (s.circuit c).callTag 0 (openingCredit (s.circuit c)) false false,
    .literal [(s.circuit c).service, if (s.circuit c).mode = .plain then 1 else 0], ⟨none, true, false, false⟩⟩ := by
  have hmode (m : CircuitMode) : m.code = if m = .plain then 1 else 0 := by cases m <;> rfl
  unfold State.callFrame
  rw [callCredit_eq, hmode]
  rfl

theorem orphanFrame_eq (s : State) (o : Orphan) : s.orphanFrame o = ⟨.orphan, .orphanList, o.reply.kind,
    ⟨o.peer, s.station.address, false, false, o.peerCircuit,
      (match o.reply with | .clear own => own | .confirm own => own | .refuse _ _ => 0),
      (match o.reply with | .refuse tag _ => tag | _ => 0), 0, 0, []⟩,
    .literal (match o.reply with
      | .refuse _ .noListener => [1]
      | .refuse _ .modeMismatch => [2]
      | _ => []), ⟨none, false, false, false⟩⟩ := by
  obtain ⟨peer, peerCircuit, reply, flying⟩ := o
  unfold State.orphanFrame
  cases reply with
  | refuse tag reason => cases reason <;> rfl
  | clear own => rfl
  | confirm own => rfl

theorem ackFrame_eq (s : State) (c : CircuitNo) : s.ackFrame c = ⟨.ack, ownedBy s c, .ack,
    frameOf s c ((s.circuit c).peerCircuit.getD 0) 0 (s.circuit c).expectedSeq (BitVec.ofNat 6 (roomNow (s.circuit c))) false
      (s.circuit c).pollOwed,
    .literal [], ⟨none, false, (s.circuit c).ackOwed, (s.circuit c).pollOwed⟩⟩ := rfl

theorem rollFrame_eq (s : State) : s.rollFrame = rollOf s := by
  have hpayload (m : BitVec 32) : presentPayload m = [m.setWidth 8, (m >>> 8).setWidth 8, (m >>> 16).setWidth 8, (m >>> 24).setWidth 8] := by
    rw [presentPayload, BitVec.setWidth_eq_extractLsb' (by decide), BitVec.setWidth_eq_extractLsb' (by decide),
      BitVec.setWidth_eq_extractLsb' (by decide), BitVec.setWidth_eq_extractLsb' (by decide)]
    simp [BitVec.extractLsb']
  unfold State.rollFrame rollOf
  rw [hpayload]
  rfl

theorem dataFrame_eq (s : State) (c : CircuitNo) (seq : Seq) (use : FrameUse) :
    s.dataFrame c seq use ((s.circuit c).txSlot seq) = dataOf s c seq use := by
  unfold State.dataFrame dataOf State.circuitHeader frameOf
  rw [txSlot_eq]
  cases h : (s.circuit c).mode <;> simp [h, Circuit.credit, roomNow, Circuit.freeSlots, Circuit.filledSpan, State.ownerOf, Discharged.nothing]

/-! ## The start of transmission -/

/-- The state at the own position, the turn marked as made. -/
abbrev turning (s : State) : State := { s with arbiter.turnMade := true }

theorem exec_turn (s : State) : exec .turn s = .next (if atPosition s.arbiter then s.makeTurn else s) :=
  congrArg _ (if_congr (turnDue_iff s.arbiter) rfl rfl)

/-- A frame chosen with nothing lost on the way starts (R52). -/
theorem exec_turn_starts {s : State} {f : FlightFrame} (hready : turnReady s) (hstate : s.station.state = .joining ∨ s.station.state = .active)
    (hchoose : (turning s).choose = (turning s, some f)) :
    ∃ t, exec .turn s = .next t ∧ starts s t f ∧ t.circuits = (s.discharge f).circuits ∧ t.orphans = (s.discharge f).orphans := by
  obtain ⟨hposition, hidle, henable⟩ := hready
  have htransmits : s.station.state.transmits = true := by obtain h | h := hstate <;> rw [h] <;> rfl
  have hturn : s.makeTurn = (turning s).startFrame f := by
    unfold State.makeTurn
    dsimp only
    rw [if_pos ⟨htransmits, hidle⟩]
    rw [hchoose]
  refine ⟨(turning s).startFrame f, ?_, ?_⟩
  · rw [exec_turn, if_pos hposition, hturn]
  · have hdischarged : (turning s).discharge f =
        { turning s with circuits := (s.discharge f).circuits, orphans := (s.discharge f).orphans } := by
      unfold State.discharge
      split <;> rfl
    have hround : (turning s).arbiter.state = .round := hposition.1
    have hbyte : (turning s).bodyByte f 0 = f.kind.code ++ f.header.dst := rfl
    rw [State.startFrame, if_pos ⟨hidle, henable⟩, hdischarged]
    dsimp only
    rw [State.lineBusyToArbiter, if_pos hround, hbyte]
    exact ⟨rfl, rfl, rfl⟩

/-- The start of a circuit's frame discharges what the frame answers, and reaches no other circuit (R52). -/
theorem discharge_circuit (s : State) (f : FlightFrame) (c : CircuitNo) (life : Nat) (howner : f.owner = .circuit c life) :
    (s.discharge f).orphans = s.orphans ∧ (∀ d, d ≠ c → (s.discharge f).circuit d = s.circuit d) ∧
      (s.discharge f).circuit c = match f.use with
        | .control _ => { s.circuit c with controlOwed := none }
        | .call => { s.circuit c with callOwed := false }
        | .newData | .resend _ => { s.circuit c with ackOwed := false }
        | .ack => { s.circuit c with ackOwed := false, pollOwed := false }
        | .orphan | .roll => s.circuit c := by
  rw [State.discharge, howner]
  dsimp only
  refine ⟨rfl, (updCircuit_only s c _).others, ?_⟩
  rw [circuit_updCircuit_same] <;> cases f.use <;> rfl

/-- A circuit's frame starts. -/
theorem exec_turn_starts_circuit {s : State} {f : FlightFrame} {c : CircuitNo} {life : Nat} (hready : turnReady s)
    (hactive : s.station.state = .active) (hchoose : (turning s).choose = (turning s, some f)) (howner : f.owner = .circuit c life) :
    ∃ t, exec .turn s = .next t ∧ starts s t f ∧ sameCircuits s t c ∧ t.circuit c = (s.discharge f).circuit c ∧ t.orphans = s.orphans := by
  obtain ⟨t, hexec, hstarts, hcircuits, horphans⟩ := exec_turn_starts hready (.inr hactive) hchoose
  obtain ⟨hsame, hothers, -⟩ := discharge_circuit s f c life howner
  have hc (d : CircuitNo) : t.circuit d = (s.discharge f).circuit d := congrArg (Vector.get · d) hcircuits
  exact ⟨t, hexec, hstarts, fun d hd => (hc d).trans (hothers d hd), hc c, horphans.trans hsame⟩

/-! ## Choice by rank (R50) -/

theorem choose_of_active {s : State} (hactive : s.station.state = .active) :
    s.choose = match s.rankControl <|> s.rankOrphan <|> s.rankCall with
      | some f => (s, some f)
      | none => s.chooseData := by
  rw [State.choose, hactive] <;> rfl

theorem choose_of_joining {s : State} (hjoining : s.station.state = .joining) : s.choose = (s, s.rankRoll) := by
  rw [State.choose, hjoining]

theorem rankControl_first {s : State} {c : CircuitNo} {kind : ControlKind} (hfirst : ∀ d, d < c → controlOf (s.circuit d) = none)
    (hkind : controlOf (s.circuit c) = some kind) : s.rankControl = some (s.controlFrame c kind) := by
  unfold State.rankControl
  refine findSome?_first allCircuits_sorted (mem_allCircuits c) (fun d _ hd => ?_) ?_
  · rw [controlCandidate_eq, hfirst d hd, Option.map_none]
  · rw [controlCandidate_eq, hkind, Option.map_some]

theorem rankControl_none {s : State} (h : ∀ c, controlOf (s.circuit c) = none) : s.rankControl = none := by
  unfold State.rankControl
  refine List.findSome?_eq_none_iff.mpr fun c _ => ?_
  rw [controlCandidate_eq, h c, Option.map_none]

theorem rankOrphan_none {s : State} (h : s.orphans.entries = []) : s.rankOrphan = none := by
  rw [State.rankOrphan, h]
  rfl

theorem rankCall_none {s : State} (h : ∀ c, owesCall (s.circuit c) = false) : s.rankCall = none := by
  have hnone : s.findCircuit (fun _ k => k.state == .calling && k.callOwed) = none :=
    findCircuit_eq_none.mpr fun c => (owesCall_eq _).trans (h c)
  rw [State.rankCall, hnone]
  rfl

theorem rankAck_none {s : State} (h : ∀ c, owesAck (s.circuit c) = false) : s.rankAck = none := by
  have hnone : s.findCircuit (fun _ k => k.mode == .assured && k.state.transfers && (k.ackOwed || k.pollOwed)) = none :=
    findCircuit_eq_none.mpr fun c => (owesAck_eq _).trans (h c)
  rw [State.rankAck, hnone]
  rfl

/-- With no candidate in ranks 1 and 2 the search goes on with rank 3. -/
theorem choose_of_noCall {s : State} (hactive : s.station.state = .active) (h : noCall s) : s.choose = s.chooseData := by
  obtain ⟨⟨hcontrol, horphans⟩, hcall⟩ := h
  rw [choose_of_active hactive, rankControl_none hcontrol, rankOrphan_none horphans, rankCall_none hcall]
  rfl

/-- Circuits that want nothing are passed over (R102). -/
theorem scanData_skip {s : State} {wants : Circuit → Option Seq} {use : Seq → FrameUse} {l m : List CircuitNo}
    (h : ∀ d ∈ l, wants (s.circuit d) = none) : s.scanData wants use (l ++ m) = s.scanData wants use m := by
  induction l with
  | nil => rfl
  | cons d rest ih =>
    rw [List.forall_mem_cons] at h
    obtain ⟨hd, hrest⟩ := h
    rw [List.cons_append, State.scanData, hd]
    exact ih hrest

theorem scanData_none {s : State} {wants : Circuit → Option Seq} {use : Seq → FrameUse} {l : List CircuitNo}
    (h : ∀ d ∈ l, wants (s.circuit d) = none) : s.scanData wants use l = (s, none) := by
  have := scanData_skip (use := use) (m := []) h
  rwa [List.append_nil] at this

/-- The first circuit of a sorted list that wants to send. -/
theorem scanData_first {s : State} {wants : Circuit → Option Seq} {use : Seq → FrameUse} {r : CircuitNo → CircuitNo → Prop}
    {l : List CircuitNo} (hsorted : l.Pairwise r) {c : CircuitNo} (hc : c ∈ l)
    (hfirst : ∀ d ∈ l, r d c → wants (s.circuit d) = none) : ∃ m, s.scanData wants use l = s.scanData wants use (c :: m) := by
  obtain ⟨l1, l2, rfl⟩ := List.append_of_mem hc
  rw [List.pairwise_append] at hsorted
  exact ⟨l2, scanData_skip fun d hd => hfirst d (List.mem_append_left _ hd) (hsorted.2.2 d hd c List.mem_cons_self)⟩

theorem scanData_sends {s : State} {wants : Circuit → Option Seq} {use : Seq → FrameUse} {c : CircuitNo} {seq : Seq} {l : List CircuitNo}
    (hwants : wants (s.circuit c) = some seq) (hlength : (s.peek (sendSlot (s.circuit c) seq)).toNat ≤ 252) :
    s.scanData wants use (c :: l) = (s, some (dataOf s c seq (use seq))) := by
  rw [State.scanData, hwants]
  dsimp only
  rw [if_neg (show ¬Config.maxPayload < (s.peek ((s.circuit c).txSlot seq)).toNat from by rw [txSlot_eq]; exact Nat.not_lt.mpr hlength),
    dataFrame_eq]

/-- The rotation from the pointer is sorted by rank (R51). -/
theorem rotationOrder_sorted (s : State) : s.rotationOrder.Pairwise fun d c => rotationRank s d < rotationRank s c := by
  rw [State.rotationOrder, List.pairwise_append]
  refine ⟨?_, ?_, fun d hd c hc => ?_⟩
  · refine (allCircuits_sorted.filter _).imp_of_mem fun {a b} ha hb hab => ?_
    simp only [List.mem_filter, Bool.and_eq_true, decide_eq_true_iff] at ha hb
    rw [rotationRank, rotationRank, if_pos ha.2.2, if_pos hb.2.2]
    exact hab
  · refine (allCircuits_sorted.filter _).imp_of_mem fun {a b} ha hb hab => ?_
    simp only [List.mem_filter, Bool.and_eq_true, decide_eq_true_iff] at ha hb
    rw [rotationRank, rotationRank, if_neg (Nat.not_le.mpr ha.2.2), if_neg (Nat.not_le.mpr hb.2.2)]
    exact Nat.add_lt_add_right hab 16
  · simp only [List.mem_filter, Bool.and_eq_true, decide_eq_true_iff] at hd hc
    rw [rotationRank, rotationRank, if_pos hd.2.2, if_neg (Nat.not_le.mpr hc.2.2)]
    exact Nat.lt_add_left c.val d.isLt

theorem mem_rotationOrder {s : State} {c : CircuitNo} : c ∈ s.rotationOrder ↔ c.val < s.station.circuitCount := by
  have hconfigured : s.configured c = true ↔ c.val < s.station.circuitCount := decide_eq_true_iff
  simp only [State.rotationOrder, List.mem_append, List.mem_filter, Bool.and_eq_true, decide_eq_true_iff, hconfigured]
  have := mem_allCircuits c
  have := Nat.lt_or_ge c.val s.selector.pointer
  tauto

/-- Ranks 4 to 6, where no circuit has a resend point to send from. -/
theorem chooseData_of_noResend {s : State} (h : ∀ c, resendOf (s.circuit c) = none) :
    s.chooseData = match s.scanData Circuit.wantsNew (fun _ => .newData) s.rotationOrder with
      | (u, some f) => (u, some f)
      | (u, none) => (u, u.rankAck <|> u.rankRoll) := by
  rw [State.chooseData, scanData_none fun d _ => (wantsResend_eq _).trans (h d)] <;> rfl

/-- Ranks 5 and 6, where no circuit has DATA to send. -/
theorem chooseData_of_noData {s : State} (h : ∀ c, resendOf (s.circuit c) = none ∧ maySend (s.circuit c) = false) :
    s.chooseData = (s, s.rankAck <|> s.rankRoll) := by
  rw [chooseData_of_noResend fun c => (h c).1, scanData_none fun d _ => (wantsNew_eq _).trans (if_neg (by simp [(h d).2]))]

/-! ## The turn -/

/-- A turn that finds nothing to send, or may send nothing, passes unused. -/
theorem exec_turn_unused {s : State} (hposition : atPosition s.arbiter)
    (h : (s.station.state.transmits = true ∧ s.line.state = .idle) → (turning s).choose = (turning s, none)) :
    exec .turn s = .next (turning s) := by
  rw [exec_turn, if_pos hposition, State.makeTurn]
  dsimp only
  by_cases hoffers : s.station.state.transmits = true ∧ s.line.state = .idle
  · rw [if_pos hoffers, h hoffers]
  · rw [if_neg hoffers]

/-- A ROLL starts. -/
theorem exec_turn_roll {s : State} (hready : turnReady s) (hstate : s.station.state = .joining ∨ s.station.state = .active)
    (hchoose : (turning s).choose = (turning s, some (rollOf s))) :
    ∃ t, exec .turn s = .next t ∧ starts s t (rollOf s) ∧ isPresentSet s.roster.presentSet s.roster ∧ allCircuitsSame s t ∧
      t.orphans = s.orphans := by
  obtain ⟨t, hexec, hstarts, hcircuits, horphans⟩ := exec_turn_starts hready hstate hchoose
  exact ⟨t, hexec, hstarts, presentSet_isPresentSet _, fun d => congrArg (Vector.get · d) hcircuits, horphans⟩

theorem rankRoll_of_owed {s : State} (h : s.selector.rollOwed = true) : s.rankRoll = some (rollOf s) := by
  rw [State.rankRoll, if_pos h, rollFrame_eq]

theorem rankRoll_of_not {s : State} (h : s.selector.rollOwed = false) : s.rankRoll = none := by
  rw [State.rankRoll, h]
  rfl

/-- Settles O39: a turn is made at its position alone, and JOINING offers the ROLL alone. -/
theorem turnIsMadeOnceAndPassesUnused : Obligations.TurnIsMadeOnceAndPassesUnused := by
  refine ⟨fun s h => ?_, fun s hposition hcase => ?_, fun s hready hjoining howed => ?_⟩
  · rw [exec_turn, if_neg h]
  · refine exec_turn_unused hposition fun ⟨htransmits, hidle⟩ => ?_
    obtain h | h | ⟨hjoining, hroll⟩ | ⟨hactive, hcall, hroll, hnothing⟩ := hcase
    · rw [htransmits] at h
      exact absurd h (by decide)
    · exact absurd hidle h
    · rw [choose_of_joining (s := turning s) hjoining, rankRoll_of_not (s := turning s) hroll]
    · rw [choose_of_noCall (s := turning s) hactive hcall, chooseData_of_noData (s := turning s) fun c => ⟨(hnothing c).1, (hnothing c).2.1⟩,
        rankAck_none (s := turning s) fun c => (hnothing c).2.2, rankRoll_of_not (s := turning s) hroll]
      rfl
  · exact exec_turn_roll hready (.inl hjoining) (by rw [choose_of_joining (s := turning s) hjoining, rankRoll_of_owed (s := turning s) howed]; rfl)

/-- Settles O40: each rank's first candidate is the frame chosen, where no earlier rank has one. -/
theorem turnSendsControlThenOrphanThenCall : Obligations.TurnSendsControlThenOrphanThenCall := by
  refine ⟨fun s c hready hactive hfirst kind hkind => ?_, fun s hready hactive hcontrol o ho => ?_,
    fun s c hready hactive hcontrol howes hfirst => ?_⟩
  · have hframe := controlFrame_eq (turning s) c kind
    have hchoose : (turning s).choose = (turning s, some ((turning s).controlFrame c kind)) := by
      rw [choose_of_active (s := turning s) hactive, rankControl_first (s := turning s) hfirst hkind]
      rfl
    rw [hframe] at hchoose
    obtain ⟨t, hexec, hstarts, hothers, hcircuit, horphans⟩ := exec_turn_starts_circuit hready hactive hchoose rfl
    exact ⟨t, hexec, hstarts, hothers, hcircuit.trans (discharge_circuit s _ c _ rfl).2.2, horphans⟩
  · have horphan : (turning s).rankOrphan = some ((turning s).orphanFrame o) := by
      rw [State.rankOrphan, Option.mem_def.mp ho]
      rfl
    have hchoose : (turning s).choose = (turning s, some ((turning s).orphanFrame o)) := by
      rw [choose_of_active (s := turning s) hactive, rankControl_none (s := turning s) hcontrol, horphan]
      rfl
    rw [orphanFrame_eq] at hchoose
    obtain ⟨t, hexec, hstarts, hcircuits, horphans⟩ := exec_turn_starts hready (.inr hactive) hchoose
    refine ⟨t, hexec, hstarts, fun d => congrArg (Vector.get · d) hcircuits, horphans.trans ?_⟩
    have hentries : s.orphans.entries = o :: s.orphans.entries.tail := (List.eq_cons_of_mem_head? ho)
    have hmarked : markOldest s.orphans.entries = { o with inFlight := true } :: s.orphans.entries.tail := by
      rw [hentries]
      rfl
    rw [← hmarked]
    rfl
  · obtain ⟨hcontrol, hempty⟩ := hcontrol
    have hcall : (turning s).rankCall = some ((turning s).callFrame c) := by
      have hfound : (turning s).findCircuit (fun _ k => k.state == .calling && k.callOwed) = some c :=
        findCircuit_first (q := fun k => k.state == .calling && k.callOwed) ((owesCall_eq _).trans howes)
          fun d hd => (owesCall_eq _).trans (hfirst d hd)
      rw [State.rankCall, hfound]
      rfl
    have hchoose : (turning s).choose = (turning s, some ((turning s).callFrame c)) := by
      rw [choose_of_active (s := turning s) hactive, rankControl_none (s := turning s) hcontrol,
        rankOrphan_none (s := turning s) hempty, hcall]
      rfl
    rw [callFrame_eq] at hchoose
    obtain ⟨t, hexec, hstarts, hothers, hcircuit, horphans⟩ := exec_turn_starts_circuit hready hactive hchoose rfl
    exact ⟨t, hexec, hstarts, hothers, hcircuit.trans (discharge_circuit s _ c _ rfl).2.2, horphans⟩

/-- Settles O41: a slot of no more than 252 bytes ends its search; with none wanted the search goes on with ranks 5 and 6. -/
theorem turnSendsDataThenAckThenRoll : Obligations.TurnSendsDataThenAckThenRoll := by
  refine ⟨fun s c hready hactive hcall hfirst q hq hlength => ?_, fun s c hready hactive hcall hresend hcount hmay hfirst hlength => ?_,
    fun s c hready hactive hcall hnone howes hfirst => ?_, fun s hready hactive hcall hnone hroll => ?_⟩
  · have hdata : (turning s).chooseData = (turning s, some (dataOf s c q (.resend q))) := by
      obtain ⟨m, hm⟩ := scanData_first (s := turning s) (wants := Circuit.wantsResend) (use := .resend) allCircuits_sorted
        (mem_allCircuits c) fun d _ hd => (wantsResend_eq _).trans (hfirst d hd)
      rw [State.chooseData, hm, scanData_sends (s := turning s) ((wantsResend_eq _).trans hq) hlength]
      rfl
    obtain ⟨t, hexec, hstarts, hothers, hcircuit, horphans⟩ := exec_turn_starts_circuit hready hactive
      ((choose_of_noCall (s := turning s) hactive hcall).trans hdata) rfl
    exact ⟨t, hexec, hstarts, hothers, hcircuit.trans (discharge_circuit s _ c _ rfl).2.2, horphans⟩
  · have hdata : (turning s).chooseData = (turning s, some (dataOf s c (s.circuit c).nextSeq .newData)) := by
      obtain ⟨m, hm⟩ := scanData_first (s := turning s) (wants := Circuit.wantsNew) (use := fun _ => .newData)
        (rotationOrder_sorted (turning s)) (mem_rotationOrder.mpr hcount) fun d hd hrank =>
          (wantsNew_eq _).trans (if_neg (Bool.eq_false_iff.mp (hfirst d (mem_rotationOrder.mp hd) hrank)))
      rw [chooseData_of_noResend (s := turning s) hresend, hm,
        scanData_sends (s := turning s) ((wantsNew_eq _).trans (if_pos hmay)) hlength]
      rfl
    obtain ⟨t, hexec, hstarts, hothers, hcircuit, horphans⟩ := exec_turn_starts_circuit hready hactive
      ((choose_of_noCall (s := turning s) hactive hcall).trans hdata) rfl
    exact ⟨t, hexec, hstarts, hothers, hcircuit.trans (discharge_circuit s _ c _ rfl).2.2, horphans⟩
  · have hack : (turning s).rankAck = some ((turning s).ackFrame c) := by
      have hfound : (turning s).findCircuit (fun _ k => k.mode == .assured && k.state.transfers && (k.ackOwed || k.pollOwed)) = some c :=
        findCircuit_first (q := fun k => k.mode == .assured && k.state.transfers && (k.ackOwed || k.pollOwed))
          ((owesAck_eq _).trans howes) fun d hd => (owesAck_eq _).trans (hfirst d hd)
      rw [State.rankAck, hfound]
      rfl
    have hdata : (turning s).chooseData = (turning s, some ((turning s).ackFrame c)) := by
      rw [chooseData_of_noData (s := turning s) hnone, hack]
      rfl
    rw [ackFrame_eq] at hdata
    obtain ⟨t, hexec, hstarts, hothers, hcircuit, horphans⟩ := exec_turn_starts_circuit hready hactive
      ((choose_of_noCall (s := turning s) hactive hcall).trans hdata) rfl
    exact ⟨t, hexec, hstarts, hothers, hcircuit.trans (discharge_circuit s _ c _ rfl).2.2, horphans⟩
  · refine exec_turn_roll hready (.inr hactive) ((choose_of_noCall (s := turning s) hactive hcall).trans ?_)
    rw [chooseData_of_noData (s := turning s) fun d => ⟨(hnone d).1, (hnone d).2.1⟩, rankAck_none (s := turning s) fun d => (hnone d).2.2,
      rankRoll_of_owed (s := turning s) hroll]
    rfl

end Sys2Proof.Proofs
end

section
namespace Sys2Proof.Proofs

open Sys2Proof Sys2Proof.Machine Sys2Proof.Claims Sys2Proof.Safety Sys2Proof.Laws

/-! ## Several pairs raised, one after another -/

/-- From `s` to `t` nothing but these pairs was raised, as the statements say it, and the attention queue and the fields of the Notice
Unit changed by that alone: what lets one raise be followed by another. -/
structure Raised (s t : State) (due : List NoticePair) : Prop where
  only : raisedOnly s t due
  room : newlyNoted s t ≠ [] → s.notice.count + (newlyNoted s t).length ≤ 64
  indices : newlyNoted s t = [] → t.peek 0x0F = s.peek 0x0F ∧ t.peek 0x10 = s.peek 0x10
  flags : t.notice.waiting = s.notice.waiting → t.peek 0x11 = s.peek 0x11 ∧ t.peek 0x12 = s.peek 0x12
  grows : t.notice.waiting = s.notice.waiting ∨ s.notice.waiting.length < t.notice.waiting.length
  slots : ∀ a, 0x0600 ≤ a → a < 0x0800 →
    (∀ k, k < (newlyNoted s t).length → ¬(entrySlot s.notice k ≤ a ∧ a < entrySlot s.notice k + 8)) → t.peek a = s.peek a

theorem Raised.notice {s t : State} {due : List NoticePair} (h : Raised s t due) : t.notice = { s.notice with
    held := s.notice.held ++ newlyNoted s t
    waiting := t.notice.waiting
    fill := s.notice.fill + BitVec.ofNat 8 (newlyNoted s t).length
    sequence := s.notice.sequence + BitVec.ofNat 8 (newlyNoted s t).length
    irq := if newlyNoted s t = [] then s.notice.irq else s.notice.irqEnable } := by
  obtain ⟨-, hnotice, -⟩ := h.only
  exact hnotice

theorem Raised.nodup {s t : State} {due : List NoticePair} (h : Raised s t due) : (newlyNoted s t).Nodup := by
  obtain ⟨-, -, hnodup, -⟩ := h.only
  exact hnodup

theorem Raised.noted {s t : State} {due : List NoticePair} (h : Raised s t due) :
    ∀ p ∈ newlyNoted s t, p ∈ due ∧ p ∉ s.notice.held := by
  obtain ⟨-, -, -, hnoted, -⟩ := h.only
  exact hnoted

theorem Raised.kept {s t : State} {due : List NoticePair} (h : Raised s t due) : ∀ p ∈ s.notice.waiting, p ∈ t.notice.waiting := by
  obtain ⟨-, -, -, -, hkept, -⟩ := h.only
  exact hkept

/-- No more entries are written than there are pairs. -/
theorem Raised.length_le {s t : State} {due : List NoticePair} (h : Raised s t due) : (newlyNoted s t).length ≤ due.length :=
  (List.subperm_of_subset h.nodup fun p hp => (h.noted p hp).1).length_le

theorem Raised.held {s t : State} {due : List NoticePair} (h : Raised s t due) : t.notice.held = s.notice.held ++ newlyNoted s t := by
  conv_lhs => rw [h.notice]

theorem Raised.fill {s t : State} {due : List NoticePair} (h : Raised s t due) :
    t.notice.fill = s.notice.fill + BitVec.ofNat 8 (newlyNoted s t).length := by
  conv_lhs => rw [h.notice]

theorem Raised.sequence {s t : State} {due : List NoticePair} (h : Raised s t due) :
    t.notice.sequence = s.notice.sequence + BitVec.ofNat 8 (newlyNoted s t).length := by
  conv_lhs => rw [h.notice]

/-- Room for the entries keeps the count from wrapping. -/
theorem Raised.count {s t : State} {due : List NoticePair} (h : Raised s t due) :
    t.notice.count = s.notice.count + (newlyNoted s t).length := by
  have htake : t.notice.takeCopy = s.notice.takeCopy := by conv_lhs => rw [h.notice]
  rw [Notice.count, htake, h.fill]
  by_cases hnew : newlyNoted s t = []
  · rw [hnew]
    simp [Notice.count]
  · have hroom := h.room hnew
    simp only [Notice.count, span] at hroom ⊢
    bv_omega

/-- Where the queue has come to be full, no entry is written any more. -/
theorem Raised.new_of_full {s t : State} {due : List NoticePair} (h : Raised s t due) (hfull : 64 ≤ s.notice.count) :
    newlyNoted s t = [] := by
  by_contra hnew
  have hroom := h.room hnew
  have := List.length_pos_of_ne_nil hnew
  omega

theorem newlyNoted_trans {s t u : State} {due due' : List NoticePair} (h : Raised s t due) (g : Raised t u due') :
    newlyNoted s u = newlyNoted s t ++ newlyNoted t u := by
  conv_lhs => rw [newlyNoted, g.held, h.held, List.append_assoc, List.drop_left]

theorem Raised.trans {s t u : State} {due due' : List NoticePair} (h : Raised s t due) (g : Raised t u due') :
    Raised s u (due ++ due') := by
  have hnew := newlyNoted_trans h g
  have hheld := h.held
  have hcount := h.count
  have hcount' := g.count
  have hfill := h.fill
  have hnotice := h.notice
  have hnotice' := g.notice
  obtain ⟨hnone, -, hnodup, hnoted, hkept, hwaits, hindices, hflags⟩ := h.only
  obtain ⟨hnone', -, hnodup', hnoted', hkept', hwaits', hindices', hflags'⟩ := g.only
  have hadd (x : Byte) (m n : Nat) : x + BitVec.ofNat 8 m + BitVec.ofNat 8 n = x + BitVec.ofNat 8 (m + n) := by
    rw [BitVec.add_assoc, BitVec.ofNat_add]
  refine ⟨⟨fun hdue => ?_, ?_, ?_, fun p hp => ?_, fun p hp => hkept' p (hkept p hp), fun p hp => ?_, fun hne => ?_, fun hne => ?_⟩,
    fun hne => ?_, fun hnil => ?_, fun hsame => ?_, ?_, fun a hlow hhigh hout => ?_⟩
  · obtain ⟨hdue, hdue'⟩ := List.append_eq_nil_iff.mp hdue
    exact (hnone' hdue').trans (hnone hdue)
  · rw [hnew, List.length_append, ← hadd, ← hadd, hnotice']
    rw [hnotice]
    simp only [List.append_assoc, List.append_eq_nil_iff]
    congr 1
    by_cases h1 : newlyNoted s t = [] <;> by_cases h2 : newlyNoted t u = [] <;> simp [h1, h2]
  · rw [hnew]
    refine List.nodup_append.mpr ⟨hnodup, hnodup', fun p hp q hq hpq => (hnoted' q hq).2 ?_⟩
    rw [hheld, ← hpq]
    exact List.mem_append_right _ hp
  · rw [hnew] at hp
    obtain hp | hp := List.mem_append.mp hp
    · exact ⟨List.mem_append_left _ (hnoted p hp).1, (hnoted p hp).2⟩
    · refine ⟨List.mem_append_right _ (hnoted' p hp).1, fun hin => (hnoted' p hp).2 ?_⟩
      rw [hheld]
      exact List.mem_append_left _ hin
  · obtain hp | ⟨hdue, hnotheld, hfull⟩ := hwaits' p hp
    · obtain hp | ⟨hdue, hnotheld, hfull⟩ := hwaits p hp
      · exact .inl hp
      · exact .inr ⟨List.mem_append_left _ hdue, hnotheld, by omega⟩
    · refine .inr ⟨List.mem_append_right _ hdue, fun hin => hnotheld ?_, hfull⟩
      rw [hheld]
      exact List.mem_append_left _ hin
  · by_cases hnil' : newlyNoted t u = []
    · obtain ⟨hsamefill, hsameseq⟩ := g.indices hnil'
      obtain ⟨hshown, hshown'⟩ := hindices (by rwa [hnew, hnil', List.append_nil] at hne)
      rw [hsamefill, hsameseq, hshown, hshown', g.fill, g.sequence, hnil']
      simp
    · exact hindices' hnil'
  · by_cases hsame : u.notice.waiting = t.notice.waiting
    · obtain ⟨hflag, hlength⟩ := g.flags hsame
      rw [hflag, hlength, hsame]
      exact hflags (by rwa [← hsame])
    · exact hflags' hsame
  · rw [hnew, List.length_append]
    by_cases hnil' : newlyNoted t u = []
    · rw [hnil']
      exact h.room (by rwa [hnew, hnil', List.append_nil] at hne)
    · have := g.room hnil'
      omega
  · rw [hnew] at hnil
    obtain ⟨hnil, hnil'⟩ := List.append_eq_nil_iff.mp hnil
    obtain ⟨h1, h2⟩ := h.indices hnil
    obtain ⟨h1', h2'⟩ := g.indices hnil'
    exact ⟨h1'.trans h1, h2'.trans h2⟩
  · have hlengths : t.notice.waiting = s.notice.waiting := by
      obtain hs | hlt := h.grows
      · exact hs
      · have hequal := congrArg List.length hsame
        obtain hu | hlt' := g.grows
        · rw [hu] at hequal
          omega
        · omega
    obtain ⟨h1, h2⟩ := h.flags hlengths
    obtain ⟨h1', h2'⟩ := g.flags (hsame.trans hlengths.symm)
    exact ⟨h1'.trans h1, h2'.trans h2⟩
  · obtain hs | hlt := h.grows
    · obtain hu | hlt' := g.grows
      · exact .inl (hu.trans hs)
      · exact .inr (hs ▸ hlt')
    · obtain hu | hlt' := g.grows
      · exact .inr (hu.symm ▸ hlt)
      · exact .inr (hlt.trans hlt')
  · rw [hnew] at hout
    have hslot (k : Nat) : entrySlot t.notice k = entrySlot s.notice ((newlyNoted s t).length + k) := entrySlot_add hfill k
    refine (g.slots a hlow hhigh fun k hk hin => ?_).trans (h.slots a hlow hhigh fun k hk => ?_)
    · rw [hslot] at hin
      exact hout _ (by rw [List.length_append]; omega) hin
    · exact hout k (by rw [List.length_append]; omega)

theorem newlyNoted_of_held {s t : State} {l : List NoticePair} (h : t.notice.held = s.notice.held ++ l) : newlyNoted s t = l := by
  rw [newlyNoted, h, List.drop_left]

/-- Nothing was raised where the Notice Unit, its fields and the attention queue are as they were. -/
theorem Raised.silent {s t : State} {offs : List Nat} (hnotice : t.notice = s.notice) (hsame : sameWindow s t offs)
    (hoffs : ∀ a ∈ offs, a < 0x0F ∨ (0x12 < a ∧ a < 0x0600) ∨ 0x0800 ≤ a) : Raised s t [] := by
  have hnew : newlyNoted s t = [] := newlyNoted_of_held (by rw [hnotice, List.append_nil])
  have hpeek {a : Nat} (ha : (0x0F ≤ a ∧ a ≤ 0x12) ∨ (0x0600 ≤ a ∧ a < 0x0800)) : t.peek a = s.peek a :=
    hsame a (by omega) fun hin => by
      have := hoffs a hin
      omega
  refine ⟨⟨fun _ => hnotice, ?_, ?_, fun p hp => ?_, fun p hp => by rwa [hnotice], fun p hp => .inl (by rwa [← hnotice]),
    fun h => absurd hnew h, fun h => absurd (by rw [hnotice]) h⟩, fun h => absurd hnew h,
    fun _ => ⟨hpeek (by decide), hpeek (by decide)⟩, fun _ => ⟨hpeek (by decide), hpeek (by decide)⟩, .inl (by rw [hnotice]),
    fun a hlow hhigh _ => hpeek (.inr ⟨hlow, hhigh⟩)⟩
  · rw [hnew, hnotice]
    simp
  · rw [hnew]
    exact List.nodup_nil
  · rw [hnew] at hp
    exact absurd hp List.not_mem_nil

/-- A list that names more pairs says less. -/
theorem Raised.mono {s t : State} {due due' : List NoticePair} (h : Raised s t due) (hsub : due ⊆ due') : Raised s t due' := by
  obtain ⟨hnone, hnotice, hnodup, hnoted, hkept, hwaits, hindices, hflags⟩ := h.only
  refine ⟨⟨fun hdue => hnone (List.subset_nil.mp (hdue ▸ hsub)), hnotice, hnodup,
    fun p hp => ⟨hsub (hnoted p hp).1, (hnoted p hp).2⟩, hkept,
    fun p hp => (hwaits p hp).imp_right fun ⟨hdue, hrest⟩ => ⟨hsub hdue, hrest⟩, hindices, hflags⟩, h.room, h.indices, h.flags, h.grows, h.slots⟩

/-- A pair raised is absorbed, held back, or written as the next entry. -/
theorem Raised.of_raiseWith {s : State} (hmem : MemoryLaw s) (p : NoticePair) (detail : Byte) :
    Raised s (s.raiseWith p detail) [p] := by
  have hsilent : Raised s s [p] := (Raised.silent (offs := []) rfl (fun _ _ _ => rfl) (by simp)).mono (List.nil_subset _)
  obtain ⟨-, h⟩ | ⟨-, -, -, h⟩ | ⟨hheld, hfull, hwaiting, h⟩ | ⟨hheld, hroom, h⟩ := raiseWith_cases s p detail <;> rw [h]
  · exact hsilent
  · exact hsilent
  · obtain ⟨hflag, hlength⟩ := peek_showWaiting_insertPair hmem hwaiting
    have hwindow := showWaiting_sameWindow { s with notice.waiting := insertPair p s.notice.waiting }
    have hlonger := length_insertPair hwaiting
    have hnotice : ({ s with notice.waiting := insertPair p s.notice.waiting } : State).showWaiting.notice =
        { s.notice with waiting := insertPair p s.notice.waiting } := rfl
    generalize ({ s with notice.waiting := insertPair p s.notice.waiting } : State).showWaiting = u at *
    have hpeek {a : Nat} (ha : a < 65536) (hout : a ≠ 0x11 ∧ a ≠ 0x12) : u.peek a = s.peek a := hwindow a ha (by simpa using hout)
    have hnew : newlyNoted s u = [] := newlyNoted_of_held (by rw [hnotice, List.append_nil])
    have hwaits : u.notice.waiting = insertPair p s.notice.waiting := by rw [hnotice]
    have hne : u.notice.waiting ≠ s.notice.waiting := fun hsame => by
      rw [hwaits] at hsame
      rw [hsame] at hlonger
      omega
    refine ⟨⟨fun hdue => absurd hdue (List.cons_ne_nil p []), ?_, by rw [hnew]; exact List.nodup_nil, fun q hq => ?_, fun q hq => ?_,
      fun q hq => ?_, fun hnil => absurd hnew hnil, fun _ => ?_⟩, fun hnil => absurd hnew hnil,
      fun _ => ⟨hpeek (by decide) (by decide), hpeek (by decide) (by decide)⟩, fun hsame => absurd hsame hne,
      .inr (by rw [hwaits]; omega), fun a hlow hhigh _ => hpeek (by omega) (by omega)⟩
    · rw [hnew, hnotice]
      simp
    · rw [hnew] at hq
      exact absurd hq List.not_mem_nil
    · rw [hwaits]
      exact mem_insertPair.mpr (.inr hq)
    · rw [hwaits] at hq
      obtain rfl | hq := mem_insertPair.mp hq
      · refine .inr ⟨List.mem_cons_self, hheld, ?_⟩
        rw [hnotice]
        exact hfull
      · exact .inl hq
    · rw [hwaits, hlonger]
      exact ⟨hflag, hlength⟩
  · have hroom' : s.notice.count < 64 := Nat.lt_of_not_le hroom
    obtain ⟨hsequence, hfill⟩ := peek_writeEntry_indices hmem p detail
    have hother {a : Nat} (ha : a < 65536) := peek_writeEntry_other s p detail ha
    have hslot := entrySlot_range s.notice 0
    have hnotice : (s.writeEntry p detail).notice = { s.notice with
        sequence := s.notice.sequence + 1
        fill := s.notice.fill + 1
        held := s.notice.held ++ [p]
        irq := s.notice.irqEnable } := by
      have hne : (s.notice.fill + 1 != s.notice.takeCopy) = true := by simpa using fill_succ_ne_takeCopy hroom
      rw [writeEntry_notice, hne, Bool.and_true]
    generalize s.writeEntry p detail = u at *
    have hnew : newlyNoted s u = [p] := newlyNoted_of_held (by rw [hnotice])
    have hwaits : u.notice.waiting = s.notice.waiting := by rw [hnotice]
    refine ⟨⟨fun hdue => absurd hdue (List.cons_ne_nil p []), ?_, by rw [hnew]; exact List.nodup_singleton p, fun q hq => ?_,
      fun q hq => by rwa [hwaits], fun q hq => .inl (by rwa [← hwaits]), fun _ => ?_, fun hne => absurd hwaits hne⟩, fun _ => ?_,
      fun hnil => ?_, fun _ => ⟨?_, ?_⟩, .inl hwaits, fun a hlow hhigh hout => ?_⟩
    · rw [hnew, hnotice]
      rfl
    · rw [hnew, List.mem_singleton] at hq
      rw [hq]
      exact ⟨List.mem_cons_self, hheld⟩
    · rw [hnotice]
      exact ⟨hfill, hsequence⟩
    · rw [hnew]
      exact hroom'
    · rw [hnew] at hnil
      exact absurd hnil (List.cons_ne_nil p [])
    · exact hother (by decide) (by decide) (by decide) (by omega)
    · exact hother (by decide) (by decide) (by decide) (by omega)
    · rw [hnew] at hout
      exact hother (by omega) (by omega) (by omega) (hout 0 Nat.one_pos)

theorem Raised.of_raiseOption {s : State} (hmem : MemoryLaw s) (due : Option NoticePair) : Raised s (s.raiseOption due) due.toList := by
  cases due with
  | none => exact Raised.silent (offs := []) rfl (fun _ _ _ => rfl) (by simp)
  | some p => exact Raised.of_raiseWith hmem p _

/-- The bytes of raises one after another. -/
theorem sameWindow_raises {s t u : State} {offs offs' : List Nat} {due : List NoticePair} {m n k : Nat} (hst : Raised s t due)
    (h : sameWindow s t (offs ++ raiseBytes s m)) (g : sameWindow t u (offs' ++ raiseBytes t n)) (hm : due.length + n ≤ k) (hk : m ≤ k) :
    sameWindow s u (offs ++ offs' ++ raiseBytes s k) := by
  have hfirst : raiseBytes s m ⊆ raiseBytes s k := raiseBytes_mono hk
  have hsecond : raiseBytes t n ⊆ raiseBytes s k := raiseBytes_add hst.fill (by have := hst.length_le; omega)
  refine sameWindow_mono (sameWindow_trans h g) fun a ha => ?_
  simp only [List.mem_append] at ha ⊢
  obtain (ha | ha) | ha | ha := ha
  · exact .inl (.inl ha)
  · exact .inr (hfirst ha)
  · exact .inl (.inr ha)
  · exact .inr (hsecond ha)

/-! ## What has been told of a pair -/

/-- The pair is noted, or pending at a full queue, and if `s` had not noted it and its entry is one of those written since, the entry has
these bytes. -/
structure ToldAs (s t : State) (p : NoticePair) (entry : Byte → List Byte) : Prop where
  noted : p ∈ t.notice.held ∨ (p ∈ t.notice.waiting ∧ 64 ≤ t.notice.count)
  shows : p ∉ s.notice.held → ∀ k, k < 64 → t.notice.held[s.notice.held.length + k]? = some p →
    ∀ i, i < 8 → t.peek (entrySlot s.notice k + i) = (entry (s.notice.sequence + BitVec.ofNat 8 k)).getD i 0

theorem ToldAs.told {s t u : State} {p : NoticePair} {entry : Byte → List Byte} {missing : Byte} (h : ToldAs s t p entry)
    (hentry : ∀ n, entryBytes u n p missing = entry n) : told s t u p missing := by
  refine ⟨h.noted.imp_right And.left, fun hp k hk hat i hi => ?_⟩
  rw [hentry]
  exact h.shows hp k hk hat i hi

theorem toldAs_raiseWith {s : State} (hmem : MemoryLaw s) (p : NoticePair) (detail : Byte) :
    ToldAs s (s.raiseWith p detail) p fun n => entryWith s n p detail := by
  obtain ⟨hheld, h⟩ | ⟨hheld, hfull, hwaiting, h⟩ | ⟨hheld, hfull, hwaiting, h⟩ | ⟨hheld, hroom, h⟩ := raiseWith_cases s p detail <;> rw [h]
  · exact ⟨.inl hheld, fun hp => absurd hheld hp⟩
  · refine ⟨.inr ⟨hwaiting, hfull⟩, fun hp k hk hat => ?_⟩
    rw [List.getElem?_eq_none (by omega)] at hat
    exact absurd hat (by simp)
  · refine ⟨.inr ⟨mem_insertPair.mpr (.inl rfl), hfull⟩, fun hp k hk hat => ?_⟩
    have hat' : s.notice.held[s.notice.held.length + k]? = some p := hat
    rw [List.getElem?_eq_none (by omega)] at hat'
    exact absurd hat' (by simp)
  · have hslot {i : Nat} (hi : i < 8) := peek_writeEntry_slot hmem p detail hi
    have hnew : (s.writeEntry p detail).notice.held = s.notice.held ++ [p] := by rw [writeEntry_notice]
    generalize s.writeEntry p detail = u at *
    refine ⟨.inl (by rw [hnew]; simp), fun hp k hk hat i hi => ?_⟩
    rw [hnew, List.getElem?_append_right (by omega), Nat.add_sub_cancel_left] at hat
    obtain rfl : k = 0 := by
      by_contra hne
      rw [List.getElem?_eq_none (by simp; omega)] at hat
      exact absurd hat (by simp)
    rw [hslot hi]
    simp

/-- What has been told stays told. -/
theorem ToldAs.after {s t u : State} {p : NoticePair} {entry : Byte → List Byte} {due due' : List NoticePair} (h : ToldAs s t p entry)
    (hst : Raised s t due) (htu : Raised t u due') : ToldAs s u p entry := by
  have hheld := htu.held
  have hkept := htu.kept
  refine ⟨?_, fun hp k hk hat i hi => ?_⟩
  · obtain hin | ⟨hin, hfull⟩ := h.noted
    · exact .inl (by rw [hheld]; exact List.mem_append_left _ hin)
    · exact .inr ⟨hkept p hin, by rw [htu.count]; omega⟩
  · have hold : p ∈ t.notice.held := by
      by_contra hnot
      obtain ⟨-, hfull⟩ := h.noted.resolve_left hnot
      rw [hheld, htu.new_of_full hfull, List.append_nil] at hat
      exact hnot (List.mem_of_getElem? hat)
    have hbefore : s.notice.held.length + k < t.notice.held.length := by
      by_contra hlate
      rw [hheld, List.getElem?_append_right (by omega)] at hat
      exact (htu.noted p (List.mem_of_getElem? hat)).2 hold
    rw [hheld, List.getElem?_append_left hbefore] at hat
    rw [← h.shows hp k hk hat i hi]
    have hrange := entrySlot_range s.notice k
    refine htu.slots _ (by omega) (by omega) fun j hj hin => ?_
    have hroom := htu.room (List.ne_nil_of_length_pos (by omega))
    have hcount := hst.count
    have hlength := congrArg List.length hst.held
    rw [List.length_append] at hlength
    rw [entrySlot_add hst.fill] at hin
    exact entrySlot_apart s.notice (j := (newlyNoted s t).length + j) (k := k) (by omega) hk (by omega) hin (by omega)

/-- A pair told after others were raised. -/
theorem ToldAs.before {s t u : State} {p : NoticePair} {entry : Byte → List Byte} {due due' : List NoticePair} (h : ToldAs t u p entry)
    (hst : Raised s t due) (htu : Raised t u due') (hother : p ∉ due) : ToldAs s u p entry := by
  refine ⟨h.noted, fun hp k hk hat i hi => ?_⟩
  have hheld := hst.held
  have hnot : p ∉ t.notice.held := by
    rw [hheld, List.mem_append]
    exact not_or.mpr ⟨hp, fun hin => hother (hst.noted p hin).1⟩
  have hlength := congrArg List.length hheld
  rw [List.length_append] at hlength
  obtain ⟨j, hj⟩ : ∃ j, k = (newlyNoted s t).length + j := by
    refine ⟨k - (newlyNoted s t).length, ?_⟩
    by_contra hearly
    rw [htu.held, List.getElem?_append_left (by omega)] at hat
    exact hnot (List.mem_of_getElem? hat)
  subst hj
  have hshown := h.shows hnot j (by omega) (by rwa [hlength, Nat.add_assoc]) i hi
  rw [entrySlot_add hst.fill, hst.sequence, BitVec.add_assoc, ← BitVec.ofNat_add] at hshown
  exact hshown

/-- A pair raised after others, and before others. -/
theorem toldAs_between {s t u v : State} {p : NoticePair} {entry : Byte → List Byte} {before at' after : List NoticePair}
    (h : ToldAs t u p entry) (hst : Raised s t before) (htu : Raised t u at') (huv : Raised u v after) (hother : p ∉ before) :
    ToldAs s v p entry :=
  (h.before hst htu hother).after (hst.trans htu) huv

end Sys2Proof.Proofs
end

section
namespace Sys2Proof.Proofs

open Sys2Proof Sys2Proof.Machine Sys2Proof.Claims Sys2Proof.Safety Sys2Proof.Laws

/-! ## A pair raised after quiet changes -/

/-- Offsets that hold neither a field of the Notice Unit nor the attention queue. -/
def OffNotice (offs : List Nat) : Prop := ∀ a ∈ offs, a < 0x0F ∨ (0x12 < a ∧ a < 0x0600) ∨ 0x0800 ≤ a

theorem OffNotice.append {l m : List Nat} (hl : OffNotice l) (hm : OffNotice m) : OffNotice (l ++ m) :=
  fun a ha => (List.mem_append.mp ha).elim (hl a) (hm a)

theorem offNotice_recordBytes (c : CircuitNo) {offs : List Nat} (h : ∀ off ∈ offs, off < 0x40) : OffNotice (recordBytes c offs) := by
  intro a ha
  obtain ⟨off, hoff, rfl⟩ := List.mem_map.mp ha
  have := h off hoff
  have := recordBase_range c
  omega

/-- A quiet change followed by a pair, if there is one: what it raises and what it tells. -/
theorem raiseOption_raised {s q : State} {offs : List Nat} (hnotice : q.notice = s.notice) (hmem : MemoryLaw q) (hsame : sameWindow s q offs)
    (hoffs : OffNotice offs) (due : Option NoticePair) :
    Raised s (q.raiseOption due) due.toList ∧
      ∀ p ∈ due, ToldAs s (q.raiseOption due) p fun n => entryBytes (q.raiseOption due) n p := by
  have hsilent : Raised s q [] := .silent hnotice hsame hoffs
  have hraised := Raised.of_raiseOption hmem due
  refine ⟨hsilent.trans hraised, fun p hp => ?_⟩
  obtain rfl := Option.mem_def.mp hp
  have htold := toldAs_raiseWith hmem p (q.detailOf p)
  have hentry : (fun n => entryWith q n p (q.detailOf p)) = fun n => entryBytes (q.raise p) n p := by
    funext n
    rw [entryWith_detailOf, entryBytes_congr (raise_only q p)]
  rw [hentry] at htold
  exact htold.before hsilent hraised List.not_mem_nil

/-! ## A request completed with a new state (R66, R71) -/

/-- The completion and the state of a circuit whose request completes, before DONE is raised. -/
def completedInto (s : State) (c : CircuitNo) (outcome : CompletionOutcome) (st : CircuitState) : State :=
  ((s.writeCompletionOption c (completedWith (s.circuit c) outcome)).updCircuit c fun k => { k with inFlight := none }).setCircuitState c st

theorem completeInto_eq (s : State) (c : CircuitNo) (outcome : CompletionOutcome) (st : CircuitState) :
    s.completeInto c outcome st = (completedInto s c outcome st).raiseOption (doneOf c (completedWith (s.circuit c) outcome)) := by
  rw [State.completeInto, completes_eq]
  rfl

theorem writeCompletionOption_shows {s : State} (hmem : MemoryLaw s) (c : CircuitNo) (done : Option Completion) :
    (s.writeCompletionOption c done).notice = s.notice ∧ MemoryLaw (s.writeCompletionOption c done) ∧
      sameWindow s (s.writeCompletionOption c done) (recordBytes c [0x08, 0x09, 0x0A, 0x0B, 0x0C]) ∧
      ∀ d ∈ done, showsCompletion (s.writeCompletionOption c done) c d := by
  cases done with
  | none => exact ⟨rfl, hmem, fun _ _ _ => rfl, fun d hd => absurd hd (Option.not_mem_none d)⟩
  | some d =>
    refine ⟨writeCompletion_notice s c d, writeCompletion_wf hmem c d, writeCompletion_sameWindow s c d, fun d' hd => ?_⟩
    obtain rfl := Option.mem_some_iff.mp hd
    exact writeCompletion_showsCompletion hmem c d

/-- What the record shows of a circuit whose request completed with a new state. -/
structure CompletedShows (s u : State) (c : CircuitNo) (outcome : CompletionOutcome) (st : CircuitState) : Prop where
  only : CircuitOnly c s u
  circuit : u.circuit c = { s.circuit c with
    state := st, completion := (completedWith (s.circuit c) outcome).or (s.circuit c).completion, inFlight := none }
  orphans : u.orphans = s.orphans
  selector : u.selector = s.selector
  notice : u.notice = s.notice
  wf : MemoryLaw u
  window : sameWindow s u (recordBytes c [0x00, 0x08, 0x09, 0x0A, 0x0B, 0x0C])
  state : u.peek (recordBase c) = st.code
  completion : ∀ d ∈ completedWith (s.circuit c) outcome, showsCompletion u c d

theorem completedInto_shows {s : State} (hmem : MemoryLaw s) (c : CircuitNo) (outcome : CompletionOutcome) (st : CircuitState) :
    CompletedShows s (completedInto s c outcome st) c outcome st := by
  have hraise := raiseOption_only (completedInto s c outcome st) (doneOf c (completedWith (s.circuit c) outcome))
  have hcircuit := completeInto_circuit s c outcome st
  have horphans := completeInto_orphans s c outcome st
  have hselector := completeInto_selector s c outcome st
  rw [completeInto_eq] at hcircuit horphans hselector
  rw [hraise.circuit] at hcircuit
  rw [hraise.orphans] at horphans
  rw [hraise.selector] at hselector
  have honly : CircuitOnly c s (completedInto s c outcome st) :=
    ((writeCompletionOption_only s c _).trans (updCircuit_only _ c _)).trans (setCircuitState_only _ c st)
  obtain ⟨hnotice, hwf, hwindow, hshows⟩ := writeCompletionOption_shows hmem c (completedWith (s.circuit c) outcome)
  have hdef : completedInto s c outcome st = ((s.writeCompletionOption c (completedWith (s.circuit c) outcome)).updCircuit c
    fun k => { k with inFlight := none }).setCircuitState c st := rfl
  have hstate := setCircuitState_shown (v := (s.writeCompletionOption c (completedWith (s.circuit c) outcome)).updCircuit c
    fun k => { k with inFlight := none }) hwf rfl rfl rfl c st
  rw [← hdef] at hstate
  generalize completedInto s c outcome st = u at *
  generalize s.writeCompletionOption c (completedWith (s.circuit c) outcome) = w at *
  exact {
    only := honly
    circuit := hcircuit
    orphans := horphans
    selector := hselector
    notice := hstate.notice.trans hnotice
    wf := hstate.wf
    window := sameWindow_mono (sameWindow_trans hwindow hstate.window) (by simp [recordBytes])
    state := hstate.state
    completion := fun d hd => showsCompletion_congr (fun off hpos hoff =>
      hstate.window _ (record_lt c hoff) (by simp; omega)) (hshows d hd) }

/-! ## A listener takes the call (R71) -/

/-- A listener's context as it takes a call, before its LISTEN completes. -/
def callContext (s : State) (c : CircuitNo) (f : Frame) : State :=
  ((((s.updCircuit c fun k =>
    { k.withInitialLimit f.credit with
      peer := f.src
      peerCircuit := some f.srcCircuit
      peerTag := some f.seq }).pokeRecord c recPeer (f.src.zeroExtend 8)).pokeRecord c recPeerCircuit (circuitByte f.srcCircuit)).pokeRecord c
    recPeerTag (f.seq.zeroExtend 8)).oweControl c .answer

theorem acceptCall_eq_completeInto (s : State) (c : CircuitNo) (f : Frame) :
    s.acceptCall c f = (callContext s c f).completeInto c .connected .opened := rfl

theorem callContext_frame (s : State) (c : CircuitNo) (f : Frame) :
    (callContext s c f).notice = s.notice ∧ (callContext s c f).orphans = s.orphans ∧ (callContext s c f).selector = s.selector ∧
      ((callContext s c f).circuit c).inFlight = (s.circuit c).inFlight := by
  refine ⟨rfl, rfl, rfl, ?_⟩
  have hlimit : ((s.circuit c).withInitialLimit f.credit).inFlight = (s.circuit c).inFlight := by
    unfold Circuit.withInitialLimit
    split <;> rfl
  unfold callContext
  simp only [oweControl_circuit, circuit_pokeRecord, circuit_updCircuit_same, hlimit]

theorem callContext_written (s : State) (c : CircuitNo) (f : Frame) : RecordWritten s (callContext s c f) c
    [(0x03, f.src.zeroExtend 8), (0x04, circuitByte f.srcCircuit), (0x07, f.seq.zeroExtend 8)] where
  window := rfl
  offsets := (by decide : ∀ off ∈ [0x03, 0x04, 0x07], off < 0x40)
  nodup := (by decide : [0x03, 0x04, 0x07].Nodup)

/-- The whole of a call's taking, before DONE is raised. -/
def callQuiet (s : State) (c : CircuitNo) (f : Frame) : State := completedInto (callContext s c f) c .connected .opened

/-- What the record shows of the circuit that took a call. -/
structure CallTakenShows (s u : State) (c : CircuitNo) (f : Frame) : Prop where
  only : CircuitOnly c s u
  circuit : u.circuit c = callTaken (s.circuit c) f
  orphans : u.orphans = s.orphans
  selector : u.selector = s.selector
  notice : u.notice = s.notice
  wf : MemoryLaw u
  window : sameWindow s u (recordBytes c [0x00, 0x03, 0x04, 0x07, 0x08, 0x09, 0x0A, 0x0B, 0x0C])
  state : u.peek (recordBase c) = 3
  peer : u.peek (recordBase c + 0x03) = f.src.setWidth 8
  peerCircuit : u.peek (recordBase c + 0x04) = BitVec.ofNat 8 f.srcCircuit.val
  peerTag : u.peek (recordBase c + 0x07) = f.seq.setWidth 8
  completion : ∀ d ∈ completedWith (s.circuit c) .connected, showsCompletion u c d

theorem acceptCall_eq_raiseOption (s : State) (c : CircuitNo) (f : Frame) :
    s.acceptCall c f = (callQuiet s c f).raiseOption (doneOf c (completedWith (s.circuit c) .connected)) := by
  obtain ⟨-, -, -, hflight⟩ := callContext_frame s c f
  have hdone : completedWith ((callContext s c f).circuit c) .connected = completedWith (s.circuit c) .connected := by
    rw [completedWith, completedWith, hflight]
  rw [acceptCall_eq_completeInto, completeInto_eq, hdone, callQuiet]

theorem callQuiet_shows {s : State} (hmem : MemoryLaw s) (c : CircuitNo) (f : Frame) : CallTakenShows s (callQuiet s c f) c f := by
  obtain ⟨hnotice, horphans, hselector, hflight⟩ := callContext_frame s c f
  have hdone : completedWith ((callContext s c f).circuit c) .connected = completedWith (s.circuit c) .connected := by
    rw [completedWith, completedWith, hflight]
  have hwritten := callContext_written s c f
  have hcompleted := completedInto_shows (hwritten.wf hmem) c .connected .opened
  have hcircuit : (callQuiet s c f).circuit c = callTaken (s.circuit c) f := by
    rw [← acceptCall_circuit, acceptCall_eq_raiseOption, (raiseOption_only _ _).circuit]
  have honly : CircuitOnly c s (callQuiet s c f) := by
    have hcontext : CircuitOnly c s (callContext s c f) := ((((updCircuit_only s c _).trans (circuitOnly_pokeRecord c c _ _ _)).trans
      (circuitOnly_pokeRecord c c _ _ _)).trans (circuitOnly_pokeRecord c c _ _ _)).trans (oweControl_only _ c .answer)
    exact hcontext.trans hcompleted.only
  have hcompletion := hcompleted.completion
  rw [hdone] at hcompletion
  have hquiet : callQuiet s c f = completedInto (callContext s c f) c .connected .opened := rfl
  rw [← hquiet] at hcompleted hcompletion
  generalize callQuiet s c f = u at *
  generalize callContext s c f = w at *
  have hkept {off : Nat} {v : Byte} (hin : (off, v) ∈ [(0x03, f.src.zeroExtend 8), (0x04, circuitByte f.srcCircuit), (0x07, f.seq.zeroExtend 8)])
      (hoff : off = 0x03 ∨ off = 0x04 ∨ off = 0x07) : u.peek (recordBase c + off) = v := by
    refine (hcompleted.window _ (record_lt c (by omega)) fun h => ?_).trans (hwritten.shows hmem hin)
    have := (record_mem_recordBytes).mp h
    obtain rfl | rfl | rfl := hoff <;> simp at this
  exact {
    only := honly
    circuit := hcircuit
    orphans := hcompleted.orphans.trans horphans
    selector := hcompleted.selector.trans hselector
    notice := hcompleted.notice.trans hnotice
    wf := hcompleted.wf
    window := sameWindow_mono (sameWindow_trans hwritten.sameWindow hcompleted.window) (by simp [recordBytes])
    state := hcompleted.state
    peer := hkept (by simp) (by decide)
    peerCircuit := hkept (off := 0x04) (v := circuitByte f.srcCircuit) (by simp) (by decide)
    peerTag := hkept (by simp) (by decide)
    completion := hcompletion }

theorem withInitialLimit_eq (k : Circuit) (credit : Seq) :
    k.withInitialLimit credit = { k with limit := if k.mode = .assured then credit else k.limit } := by
  unfold Circuit.withInitialLimit
  split
  · next h => rw [if_pos h]
  · next h => rw [if_neg (by rw [h]; decide)]

theorem callTaken_eq (k : Circuit) (f : Frame) : callTaken k f = { k with
    state := .opened
    peer := f.src
    peerCircuit := some f.srcCircuit
    peerTag := some f.seq
    limit := if k.mode = .assured then f.credit else k.limit
    controlOwed := some .answer
    completion := (completedWith k .connected).or k.completion
    inFlight := none } := by
  rw [callTaken, withInitialLimit_eq]

/-- The lowest-numbered listener of the call's service and mode takes it. -/
theorem matchListener_first {s : State} {f : Frame} {c : CircuitNo} (hlistens : listensTo (s.circuit c) f = true)
    (hmode : (s.circuit c).mode = callerMode f)
    (hfirst : ∀ d, d < c → listensTo (s.circuit d) f = false ∨ (s.circuit d).mode ≠ callerMode f) :
    s.matchListener f = s.acceptCall c f := by
  have hfound : s.findCircuit (fun _ k => k.listensFor f && k.mode == callMode f) = some c := by
    refine findCircuit_first (q := fun k => k.listensFor f && k.mode == callMode f) ?_ fun d hd => ?_
    · rw [listensFor_eq_listensTo, hlistens, Bool.true_and, beq_iff_eq]
      exact hmode
    · rw [listensFor_eq_listensTo, Bool.and_eq_false_iff, beq_eq_false_iff_ne]
      exact hfirst d hd
  rw [State.matchListener, hfound]

theorem offNotice_of_record (c : CircuitNo) {offs : List Nat} (h : ∀ off ∈ offs, off < 0x40) : OffNotice ([0x30, 0x31] ++ recordBytes c offs) :=
  OffNotice.append (by simp [OffNotice]) (offNotice_recordBytes c h)

theorem count_not_mem_record {a : Nat} (ha : a = 0x1E ∨ a = 0x1F) (c : CircuitNo) (offs : List Nat) (u : State) (n : Nat) :
    a ∉ recordBytes c offs ++ raiseBytes u n := fun hin =>
  (List.mem_append.mp hin).elim (not_mem_recordBytes (by omega)) (not_mem_raiseBytes (by omega) u n)

theorem hears_src {k : Kind} {f : Frame} {s : State} (h : hears k f s) : f.src ≠ s.station.address := by
  obtain ⟨⟨-, -, -, -, -, hown⟩, -⟩ := h
  exact hown

/-- Settles O33: the lowest-numbered listener's context is written, and then its LISTEN completes. -/
theorem listenerTakesTheCall : Obligations.ListenerTakesTheCall := by
  refine ⟨fun s f c hmem h hactive hnone hlistens hmode hfirst => ?_, fun s f hmem h hstate => ?_⟩
  · have htable : (heardFrom s .call f).tableFrame .call f = (heardFrom s .call f).acceptCall c f :=
      (tableFrame_call_eq_matchListener (s := heardFrom s .call f) (hears_dst h) (show f.src ≠ s.station.address from hears_src h) hactive hnone).trans (matchListener_first hlistens hmode hfirst)
    have hshown := callQuiet_shows (heardFrom_wf hmem .call f) c f
    rw [acceptCall_eq_raiseOption] at htable
    have hdone : doneOf c (completedWith ((heardFrom s .call f).circuit c) .connected) =
        (completedWith (s.circuit c) .connected).map fun _ => .circuit c .done := rfl
    rw [hdone] at htable
    generalize callQuiet (heardFrom s .call f) c f = q at *
    generalize (completedWith (s.circuit c) .connected).map (fun _ => NoticePair.circuit c .done) = due at *
    obtain ⟨hraised, hwindow⟩ := raiseOption_after hshown.notice hshown.wf hshown.window due
    have honly := raiseOption_only q due
    have hrecord {off : Nat} (hoff : off < 0x40) := peek_record_raiseOption q due c hoff
    generalize q.raiseOption due = v at *
    obtain ⟨x, hexec, hblocks⟩ := frame_taken hmem h (by decide) htable (hshown.only.rest.trans honly.circuitsOnly)
      (honly.selector.trans hshown.selector) hwindow (count_not_mem_record (.inl rfl) c _ _ 1) (count_not_mem_record (.inr rfl) c _ _ 1)
    refine ⟨_, hexec, hblocks, fun d hd => (honly.circuit d).trans (hshown.only.others d hd), honly.orphans.trans hshown.orphans,
      (honly.circuit c).trans (hshown.circuit.trans (callTaken_eq _ f)), (hrecord (off := 0) (by decide)).trans hshown.state,
      (hrecord (by decide)).trans hshown.peer, (hrecord (by decide)).trans hshown.peerCircuit, (hrecord (by decide)).trans hshown.peerTag,
      ?_, fun d hd => showsCompletion_congr (fun off _ hoff => hrecord hoff) (hshown.completion d hd), ?_⟩
    · exact ⟨fun p hp => raisedIn_congr (u := heardFrom s .call f) rfl (hraised.1 p hp), hraised.2⟩
    · rw [List.append_assoc]
      exact sameWindow_of_heardFrom hwindow
  · have htable : (heardFrom s .call f).tableFrame .call f = heardFrom s .call f := by
      unfold State.tableFrame
      rw [if_neg (not_not.mpr (hears_dst h))]
      exact if_pos (.inl hstate)
    obtain ⟨t, hexec, hblocks, hcircuits, hnotice, horphans, hwindow⟩ := frame_passes hmem h (by decide) htable
    exact ⟨t, hexec, hblocks, hcircuits, horphans, hnotice, hwindow⟩

/-! ## The answer and the refusal of a call (R66, R67) -/

/-- A frame from its peer to a CALLING circuit. -/
theorem takeCircuitFrame_calling {u : State} {k : Kind} {f : Frame} (hcount : f.dstCircuit.val < u.station.circuitCount)
    (hcalling : (u.circuit f.dstCircuit).state = .calling) (hpeer : (u.circuit f.dstCircuit).peer = f.src) :
    u.takeCircuitFrame k f = u.callingFrame k f.dstCircuit f := by
  have hconfigured : u.configured f.dstCircuit = true := decide_eq_true hcount
  simp [State.takeCircuitFrame, hconfigured, hcalling, hpeer]

theorem refuseOutcome_eq (f : Frame) :
    refuseOutcome f = if f.payload.getD 0 0 = 2 then .refusedMode else .refusedNoListener := rfl

/-- An ANSWER with another tag is stray (R66). -/
theorem answer_stray {s : State} {f : Frame} (hmem : MemoryLaw s) (h : hears .answer f s) (hcount : f.dstCircuit.val < s.station.circuitCount)
    (hcalling : (s.circuit f.dstCircuit).state = .calling) (hpeer : (s.circuit f.dstCircuit).peer = f.src)
    (htag : (s.circuit f.dstCircuit).callTag ≠ f.seq) :
    ∃ t, exec (.answerReceived f) s = .next t ∧ heardBlocks .answer f s t ∧ allCircuitsSame s t ∧ t.notice = s.notice ∧
      t.orphans = withOrphan s.station.state s.orphans f.src f.srcCircuit (.clear f.dstCircuit) ∧ showsDrops s t ∧
      sameWindow s t (heardBytes ++ [0x30, 0x31]) := by
  refine frameRow_adds_orphan hmem h (by decide) ?_
  refine (tableFrame_circuit (hears_dst h) (by decide) (by decide)).trans ?_
  refine (takeCircuitFrame_calling (u := heardFrom s .answer f) hcount hcalling hpeer).trans ?_
  exact if_neg fun hseq => htag hseq.symm

/-- A REFUSE with the call tag frees the circuit (R67). -/
theorem refuse_frees {s : State} {f : Frame} (hmem : MemoryLaw s) (h : hears .refuse f s) (hcount : f.dstCircuit.val < s.station.circuitCount)
    (hcalling : (s.circuit f.dstCircuit).state = .calling) (hpeer : (s.circuit f.dstCircuit).peer = f.src)
    (htag : (s.circuit f.dstCircuit).callTag = f.seq) :
    ∃ t, exec (.refuseReceived f) s = .next t ∧ heardBlocks .refuse f s t ∧
      freedIn s t f.dstCircuit (completedWith (s.circuit f.dstCircuit)
        (if f.payload.getD 0 0 = 2 then .refusedMode else .refusedNoListener)) ∧ sameWindow s t (heardBytes ++
          [0x30, 0x31] ++ freedBytes f.dstCircuit ++ raiseBytes s 1) := by
  have htable : (heardFrom s .refuse f).tableFrame .refuse f = (heardFrom s .refuse f).freeWith f.dstCircuit (refuseOutcome f) :=
    ((tableFrame_circuit (hears_dst h) (by decide) (by decide)).trans
      (takeCircuitFrame_calling (u := heardFrom s .refuse f) hcount hcalling hpeer)).trans (if_pos htag.symm)
  rw [refuseOutcome_eq] at htable
  obtain ⟨x, hexec, hblocks, hfreed, hwindow⟩ := frame_frees hmem h (by decide) (.refl _) rfl rfl htable
  refine ⟨_, hexec, hblocks, freedIn_congr (u := heardFrom s .refuse f) (fun d => rfl) rfl rfl rfl
    (peek_heardFrom s .refuse f (a := 0x30) (by decide) (by decide)) (peek_heardFrom s .refuse f (a := 0x31) (by decide) (by decide)) hfreed, ?_⟩
  rw [List.append_assoc, List.append_assoc]
  exact hwindow

end Sys2Proof.Proofs
end

section
namespace Sys2Proof.Proofs

open Sys2Proof Sys2Proof.Machine Sys2Proof.Claims Sys2Proof.Safety Sys2Proof.Laws

/-! ## Two states side by side

An operation of the Circuit Table does the same on two states that agree but for other blocks and some bytes of the window. -/

/-- The two states agree on what the operations on circuits read, and on the window but for some bytes. -/
structure Beside (offs : List Nat) (u v : State) : Prop where
  station : v.station = u.station
  selector : v.selector = u.selector
  orphans : v.orphans = u.orphans
  circuits : v.circuits = u.circuits
  notice : v.notice = u.notice
  left : MemoryLaw u
  right : MemoryLaw v
  window : sameWindow u v offs

theorem Beside.circuit {offs : List Nat} {u v : State} (h : Beside offs u v) (c : CircuitNo) : v.circuit c = u.circuit c :=
  congrArg (Vector.get · c) h.circuits

theorem poke_mod (s : State) (a : Nat) (x : Byte) : s.poke a x = s.poke (a % 65536) x := by
  rw [State.poke, State.poke, Nat.mod_mod]

theorem Beside.poke {offs : List Nat} {u v : State} (h : Beside offs u v) (a : Nat) (x : Byte) : Beside offs (u.poke a x) (v.poke a x) := by
  rw [poke_mod u, poke_mod v]
  have hlt : a % 65536 < 65536 := Nat.mod_lt _ (by decide)
  generalize a % 65536 = b at *
  refine ⟨h.station, h.selector, h.orphans, h.circuits, h.notice, poke_wf u b x h.left, poke_wf v b x h.right, fun y hy hout => ?_⟩
  by_cases hyb : y = b
  · rw [hyb, peek_poke_same v b x h.right hlt, peek_poke_same u b x h.left hlt]
  · rw [peek_poke_ne v b y x hlt hy hyb, peek_poke_ne u b y x hlt hy hyb]
    exact h.window y hy hout

theorem Beside.pokeHalf {offs : List Nat} {u v : State} (h : Beside offs u v) (a : Nat) (x : Half) :
    Beside offs (u.pokeHalf a x) (v.pokeHalf a x) := (h.poke a (lowByte x)).poke (a + 1) (highByte x)

theorem Beside.pokeRecord {offs : List Nat} {u v : State} (h : Beside offs u v) (c : CircuitNo) (off : Nat) (x : Byte) :
    Beside offs (u.pokeRecord c off x) (v.pokeRecord c off x) := h.poke (recordBase c + off) x

theorem Beside.pokeBytes {offs : List Nat} (l : List Byte) {u v : State} (h : Beside offs u v) (a : Nat) :
    Beside offs (u.pokeBytes a l) (v.pokeBytes a l) := by
  induction l generalizing u v a with
  | nil => exact h
  | cons x rest ih => exact ih (h.poke a x) (a + 1)

theorem Beside.updCircuit {offs : List Nat} {u v : State} (h : Beside offs u v) (c : CircuitNo) (f : Circuit → Circuit) :
    Beside offs (u.updCircuit c f) (v.updCircuit c f) := by
  refine ⟨h.station, h.selector, h.orphans, ?_, h.notice, h.left, h.right, h.window⟩
  show v.circuits.set c (f (v.circuit c)) = u.circuits.set c (f (u.circuit c))
  rw [h.circuits, h.circuit]

theorem Beside.withNotice {offs : List Nat} {u v : State} (h : Beside offs u v) (n : Notice) :
    Beside offs { u with notice := n } { v with notice := n } :=
  ⟨h.station, h.selector, h.orphans, h.circuits, rfl, h.left, h.right, h.window⟩

theorem Beside.forget {offs : List Nat} {u v : State} (h : Beside offs u v) (c : CircuitNo) (f : Discharged → Discharged) :
    Beside offs (u.forget c f) (v.forget c f) := by
  refine ⟨h.station, ?_, h.orphans, h.circuits, h.notice, h.left, h.right, h.window⟩
  rw [State.forget, State.forget, h.selector, h.circuit]

theorem Beside.oweControl {offs : List Nat} {u v : State} (h : Beside offs u v) (c : CircuitNo) (kind : ControlKind) :
    Beside offs (u.oweControl c kind) (v.oweControl c kind) := h.updCircuit c _

theorem Beside.clearAckPoll {offs : List Nat} {u v : State} (h : Beside offs u v) (c : CircuitNo) :
    Beside offs (u.clearAckPoll c) (v.clearAckPoll c) := (h.forget c _).updCircuit c _

theorem Beside.clearControl {offs : List Nat} {u v : State} (h : Beside offs u v) (c : CircuitNo) :
    Beside offs (u.clearControl c) (v.clearControl c) := (h.forget c _).updCircuit c _

theorem Beside.setCircuitState {offs : List Nat} {u v : State} (h : Beside offs u v) (c : CircuitNo) (st : CircuitState) :
    Beside offs (u.setCircuitState c st) (v.setCircuitState c st) := (h.updCircuit c _).pokeRecord c _ _

theorem Beside.writeUnsent {offs : List Nat} {u v : State} (h : Beside offs u v) (c : CircuitNo) :
    Beside offs (u.writeUnsent c) (v.writeUnsent c) := by
  rw [State.writeUnsent, State.writeUnsent, h.circuit]
  exact (h.updCircuit c _).pokeRecord c _ _

theorem Beside.addOrphan {offs : List Nat} {u v : State} (h : Beside offs u v) (peer : Address) (pc : CircuitNo) (reply : Reply) :
    Beside offs (u.addOrphan peer pc reply) (v.addOrphan peer pc reply) := by
  rw [State.addOrphan, State.addOrphan, h.station, h.orphans]
  dsimp only
  split
  · exact h
  split
  · exact h
  split
  · refine Beside.pokeHalf ?_ _ _
    exact ⟨rfl, h.selector, rfl, h.circuits, h.notice, h.left, h.right, h.window⟩
  · exact ⟨rfl, h.selector, rfl, h.circuits, h.notice, h.left, h.right, h.window⟩

theorem Beside.writeCompletion {offs : List Nat} {u v : State} (h : Beside offs u v) (c : CircuitNo) (d : Completion) :
    Beside offs (u.writeCompletion c d) (v.writeCompletion c d) := by
  rw [writeCompletion_eq_pokeBytes, writeCompletion_eq_pokeBytes]
  exact (h.updCircuit c _).pokeBytes _ _

theorem Beside.writeCompletionOption {offs : List Nat} {u v : State} (h : Beside offs u v) (c : CircuitNo) (d : Option Completion) :
    Beside offs (u.writeCompletionOption c d) (v.writeCompletionOption c d) := by
  cases d with
  | none => exact h
  | some d => exact h.writeCompletion c d

theorem Beside.releaseOwed {offs : List Nat} {u v : State} (h : Beside offs u v) (c : CircuitNo) :
    Beside offs (u.releaseOwed c) (v.releaseOwed c) := by
  rw [State.releaseOwed, State.releaseOwed, h.circuit]
  refine Beside.clearControl ?_ c
  split
  · exact ((h.clearAckPoll c).updCircuit c _).addOrphan _ _ _
  · exact (h.clearAckPoll c).updCircuit c _

theorem Beside.goFree {offs : List Nat} {u v : State} (h : Beside offs u v) (c : CircuitNo) (d : Option Completion) :
    Beside offs (u.goFree c d) (v.goFree c d) := by
  rw [State.goFree, State.goFree, h.circuit]
  refine (Beside.writeCompletionOption (Beside.updCircuit (Beside.releaseOwed ?_ c) c _) c d).setCircuitState c .free
  split
  · exact h.writeUnsent c
  · exact h

theorem Beside.writeEntry {offs : List Nat} {u v : State} (h : Beside offs u v) {p : NoticePair} (hsnapshot : v.snapshotOf p = u.snapshotOf p)
    (detail : Byte) : Beside offs (u.writeEntry p detail) (v.writeEntry p detail) := by
  rw [State.writeEntry, State.writeEntry, State.updateIrq, State.updateIrq, h.notice, hsnapshot]
  dsimp only
  have hbytes := (h.pokeBytes ([u.notice.sequence, p.sourceByte, p.causeByte, detail] ++ u.snapshotOf p)
    (entryOffset u.notice.fill))
  rw [hbytes.notice]
  exact ((hbytes.withNotice _).poke _ _ |>.poke _ _).withNotice _

theorem Beside.raiseWith {offs : List Nat} {u v : State} (h : Beside offs u v) {p : NoticePair} (hsnapshot : v.snapshotOf p = u.snapshotOf p)
    (detail : Byte) : Beside offs (u.raiseWith p detail) (v.raiseWith p detail) := by
  rw [State.raiseWith, State.raiseWith, h.notice]
  split
  · exact h
  split
  · split
    · exact h
    · exact ((h.withNotice _).poke _ _).poke _ _
  · exact h.writeEntry hsnapshot detail

theorem snapshotOf_circuit_congr {u v : State} {c : CircuitNo} (h : v.circuit c = u.circuit c) (cause : CircuitCause) :
    v.snapshotOf (.circuit c cause) = u.snapshotOf (.circuit c cause) ∧ v.detailOf (.circuit c cause) = u.detailOf (.circuit c cause) := by
  refine ⟨?_, ?_⟩
  · rw [State.snapshotOf, State.snapshotOf, h]
  · cases cause <;> simp only [State.detailOf, h]

theorem Beside.raiseCircuit {offs : List Nat} {u v : State} (h : Beside offs u v) (c : CircuitNo) (cause : CircuitCause) :
    Beside offs (u.raise (.circuit c cause)) (v.raise (.circuit c cause)) := by
  obtain ⟨hsnapshot, hdetail⟩ := snapshotOf_circuit_congr (h.circuit c) cause
  rw [State.raise, State.raise, hdetail]
  exact h.raiseWith hsnapshot _

theorem Beside.freeWith {offs : List Nat} {u v : State} (h : Beside offs u v) (c : CircuitNo) (outcome : CompletionOutcome) :
    Beside offs (u.freeWith c outcome) (v.freeWith c outcome) := by
  rw [State.freeWith, State.freeWith, h.circuit]
  generalize (u.circuit c).completes outcome = done
  have hfreed := h.goFree c done
  cases done with
  | none => exact hfreed
  | some d => exact hfreed.raiseCircuit c .done

theorem Beside.enterEnded {offs : List Nat} {u v : State} (h : Beside offs u v) (c : CircuitNo) (cause : EndCause) (confirm : Bool) :
    Beside offs (u.enterEnded c cause confirm) (v.enterEnded c cause confirm) := by
  unfold State.enterEnded
  dsimp only
  refine Beside.raiseCircuit (Beside.setCircuitState (Beside.pokeRecord (Beside.writeUnsent (Beside.updCircuit (Beside.clearAckPoll ?_ c)
    c _) c) c _ _) c .ended) c .ended
  split
  · exact h.oweControl c .confirm
  · exact h.clearControl c

theorem Beside.lose {offs : List Nat} {u v : State} (h : Beside offs u v) (c : CircuitNo) (cause : EndCause) :
    Beside offs (u.lose c cause) (v.lose c cause) := by
  unfold State.lose
  rw [h.circuit]
  cases (u.circuit c).state with
  | calling => exact h.freeWith c .lost
  | opened => exact h.enterEnded c cause false
  | draining => exact h.freeWith c .lost
  | clearing => exact h.freeWith c .unconfirmed
  | listening =>
    dsimp only
    split
    · exact h.freeWith c .lost
    · exact h
  | ended => exact h
  | free => exact h

/-- Offsets beyond the window are not listed. -/
theorem read_of_ge (m : Memory) {lo a : Nat} (hm : Memory.wfFrom lo m = true) (ha : 65536 ≤ a) : Memory.read m a = unlistedByte := by
  induction m generalizing lo with
  | nil => rfl
  | cons cell rest ih =>
    obtain ⟨b, w⟩ := cell
    simp only [Memory.wfFrom, Bool.and_eq_true, decide_eq_true_iff] at hm
    obtain ⟨⟨⟨-, hb⟩, -⟩, hrest⟩ := hm
    rw [Memory.read, if_neg (by omega)]
    exact ih hrest

/-- Two windows in canonical form that read alike are the same. -/
theorem window_eq_of_peek {u v : State} (hu : MemoryLaw u) (hv : MemoryLaw v) (h : ∀ a, a < 65536 → v.peek a = u.peek a) :
    v.window = u.window := by
  refine window_ext v u hv hu fun a => ?_
  by_cases ha : a < 65536
  · have := h a ha
    rwa [State.peek, State.peek, Nat.mod_eq_of_lt ha] at this
  · rw [read_of_ge v.window hv (Nat.le_of_not_lt ha), read_of_ge u.window hu (Nat.le_of_not_lt ha)]

/-! ## Hearing a frame and losing a circuit -/

/-- The hearing of a frame and the loss of a circuit can change places (R70). -/
theorem heardFrom_lose {s : State} (hmem : MemoryLaw s) {k : Kind} {f : Frame} (hsrc : f.src ≠ 31) (c : CircuitNo) (cause : EndCause) :
    heardFrom (s.lose c cause) k f = (heardFrom s k f).lose c cause := by
  have hbeside : Beside heardBytes s (heardFrom s k f) :=
    ⟨rfl, rfl, rfl, rfl, rfl, hmem, heardFrom_wf hmem k f, heardFrom_sameWindow s k f⟩
  have hlost := hbeside.lose c cause
  have hleft := circuitsOnly_eq (lose_only s c cause).rest
  have hright := circuitsOnly_eq (lose_only (heardFrom s k f) c cause).rest
  have hfrom := heardFrom_eq (s := s) (k := k) (f := f) hsrc
  have hentries : (heardFrom s k f).roster.entries = (s.roster.setEntry f.src ⟨true, 0⟩).entries := rfl
  have hentries' : (heardFrom (s.lose c cause) k f).roster.entries = ((s.lose c cause).roster.setEntry f.src ⟨true, 0⟩).entries := rfl
  have hwindow : (heardFrom (s.lose c cause) k f).window = ((heardFrom s k f).lose c cause).window := by
    refine window_eq_of_peek hlost.right (heardFrom_wf hlost.left k f) fun a ha => ?_
    by_cases hcount : a ∈ heardBytes
    · have hshown : shows (heardFrom s k f) 0x1E (s.quality.goodHeard + 1) := peek_pokeHalf_same _ _ _ hmem (by decide)
      have hshown' : shows (heardFrom (s.lose c cause) k f) 0x1E ((s.lose c cause).quality.goodHeard + 1) :=
        peek_pokeHalf_same _ _ _ hlost.left (by decide)
      rw [(lose_only s c cause).rest.quality] at hshown'
      have hkept {b : Nat} (hb : b = 0x1E ∨ b = 0x1F) : ((heardFrom s k f).lose c cause).peek b = (heardFrom s k f).peek b := by
        refine (lose_shown (heardFrom_wf hmem k f) c cause).window b (by omega) fun hin => ?_
        simp only [List.mem_append, List.mem_cons, List.not_mem_nil, or_false] at hin
        obtain (h | h) | h := hin
        · omega
        · exact not_mem_recordBytes (by omega) h
        · exact not_mem_raiseBytes (by omega) _ _ h
      simp only [heardBytes, List.mem_cons, List.not_mem_nil, or_false] at hcount
      obtain rfl | rfl := hcount
      · rw [hkept (.inl rfl)]
        exact hshown'.1.trans hshown.1.symm
      · rw [hkept (.inr rfl)]
        exact hshown'.2.trans hshown.2.symm
    · exact (heardFrom_sameWindow _ k f a ha hcount).trans (hlost.window a ha hcount).symm
  rw [heardFrom_eq hsrc, hwindow, hentries', (lose_only s c cause).rest.roster, ← hentries]
  generalize (heardFrom s k f).lose c cause = v at *
  generalize heardFrom s k f = w at *
  generalize s.lose c cause = u at *
  rw [hright, hlost.selector, hlost.orphans, hlost.circuits, hlost.notice, hfrom]
  conv_lhs => rw [hleft]

end Sys2Proof.Proofs
end

section
namespace Sys2Proof.Proofs

open Sys2Proof Sys2Proof.Machine Sys2Proof.Claims Sys2Proof.Safety Sys2Proof.Laws

/-! ## Raises seen from another state -/

theorem raisedOnly_congr {s u t : State} {due : List NoticePair} (hnotice : u.notice = s.notice) (h : raisedOnly u t due) :
    raisedOnly s t due := by
  unfold raisedOnly newlyNoted at h ⊢
  rwa [hnotice] at h

theorem told_congr {s u t v : State} {p : NoticePair} {missing : Byte} (hnotice : u.notice = s.notice) (h : told u t v p missing) :
    told s t v p missing := by
  unfold told entryShows at h ⊢
  rwa [hnotice] at h

/-- The entry of a circuit's pair tells of that circuit alone. -/
theorem entryBytes_circuit_congr {u v : State} {c : CircuitNo} (h : v.circuit c = u.circuit c) (n : Byte) (cause : CircuitCause) (m : Byte) :
    entryBytes v n (.circuit c cause) m = entryBytes u n (.circuit c cause) m := by
  simp only [entryBytes, h]

theorem offNotice_loss (c : CircuitNo) : OffNotice ([0x30, 0x31] ++ lossBytes c) := offNotice_of_record c (by decide)

/-- The loss of a circuit, with the pair it raises, as a step among others. -/
theorem lose_raised {s : State} (hmem : MemoryLaw s) (c : CircuitNo) (cause : EndCause) :
    Raised s (s.lose c cause) (lossPair (s.circuit c) c cause).toList ∧
      ∀ p ∈ lossPair (s.circuit c) c cause, ToldAs s (s.lose c cause) p fun n => entryBytes (s.lose c cause) n p := by
  rw [lose_eq_raiseOption]
  have hlost := lostQuiet_lostAs hmem c cause
  exact raiseOption_raised hlost.notice hlost.wf hlost.window (offNotice_loss c) _

/-- The pair of a loss is one of the circuit's own. -/
theorem lossPair_circuit {k : Circuit} {c : CircuitNo} {cause : EndCause} {p : NoticePair} (h : p ∈ lossPair k c cause) :
    p = .circuit c .ended ∨ p = .circuit c .done := by
  have hite {P : Prop} [Decidable P] (hin : p ∈ if P then some (NoticePair.circuit c .done) else none) : p = .circuit c .done := by
    split at hin
    · exact (Option.mem_some_iff.mp hin).symm
    · exact absurd hin (Option.not_mem_none p)
  unfold lossPair at h
  cases hs : k.state <;> simp only [hs] at h
  case opened => exact .inl (Option.mem_some_iff.mp h).symm
  case free => exact absurd h (Option.not_mem_none p)
  case ended => exact absurd h (Option.not_mem_none p)
  all_goals exact .inr (hite h)

/-- The orphan list after the loss of a live circuit, or of one in CALLING that owes nothing. -/
theorem lossOrphans_eq {s : State} {c : CircuitNo} {cause : EndCause} (hlive : (s.circuit c).state.live = true) :
    (if freesOnLoss (s.circuit c) cause then movedConfirm s c else s.orphans) = lossOrphans s c := by
  unfold freesOnLoss lossOrphans stateIn
  cases h : (s.circuit c).state <;> simp [h, CircuitState.live] at hlive ⊢

theorem lose_lostOnly {s : State} (hmem : MemoryLaw s) {c : CircuitNo} (hlive : (s.circuit c).state.live = true)
    (hflight : s.selector.inFlight = none) (cause : EndCause) : lostOnly s (s.lose c cause) c cause := by
  have h := lose_shown hmem c cause
  have hchanged : (lostWith (s.circuit c) cause).state ≠ (s.circuit c).state := by
    cases hs : (s.circuit c).state <;> simp [hs, CircuitState.live, lostWith] at hlive ⊢
  refine ⟨(circuitsOnly_eq h.only.rest).trans ?_, h.only.others, h.circuit, h.orphans.trans (lossOrphans_eq hlive), h.drops,
    h.state (by rw [h.circuit]; exact hchanged), h.shows, h.raised, h.window⟩
  rw [h.selector (.inl hlive), flightForgets_of_none hflight]

/-! ## A call on a pair that is held (R70) -/

theorem holds_live {k : Circuit} {f : Frame} (h : holdsFrame k f = true) : k.state.live = true := by
  obtain ⟨hlive, -⟩ := (holdsFrame_iff k f).mp h
  exact hlive

/-- No two live circuits hold one pair, so the search finds the one that does. -/
theorem findCircuit_holds {s : State} (hpairs : PairLaw s) {c : CircuitNo} {f : Frame} (hheld : holdsFrame (s.circuit c) f = true) :
    s.findCircuit (fun _ k => k.holdsPair f.src f.srcCircuit) = some c := by
  cases hfound : s.findCircuit (fun _ k => k.holdsPair f.src f.srcCircuit) with
  | none =>
    have := findCircuit_eq_none.mp hfound c
    rw [holdsPair_eq_holdsFrame, hheld] at this
    exact absurd this (by decide)
  | some d =>
    have hd := findCircuit_eq_some hfound
    rw [holdsPair_eq_holdsFrame] at hd
    obtain ⟨hlive, hpeer, hpc⟩ := (holdsFrame_iff _ f).mp hheld
    obtain ⟨hlive', hpeer', hpc'⟩ := (holdsFrame_iff _ f).mp hd
    rw [hpairs.2 c d hlive hlive' (hpeer.trans hpeer'.symm) (hpc.trans hpc'.symm)]

/-- A CALL of an ACTIVE station reaches the stale check (R69, R70). -/
theorem tableFrame_call_held {u : State} {f : Frame} {c : CircuitNo} (hdst : f.dst = u.station.address) (hown : f.src ≠ u.station.address)
    (hactive : u.station.state = .active) (hpairs : PairLaw u) (hheld : holdsFrame (u.circuit c) f = true) :
    u.tableFrame .call f = if (u.circuit c).peerTag = some f.seq then
        if (u.circuit c).state = .opened then u.oweControl c .answer else u
      else (u.lose c .lostStale).matchListener f := by
  unfold State.tableFrame
  rw [if_neg (not_not.mpr hdst)]
  have htake : u.takeCall f = u.answerCall f := if_neg (by rw [hactive]; simp [hown])
  refine htake.trans ?_
  rw [State.answerCall, findCircuit_holds hpairs hheld]

theorem not_listensTo_of_live {k : Circuit} {f : Frame} (h : k.state ≠ .listening) : listensTo k f = false := by
  rw [← Bool.not_eq_true, listensTo_iff]
  exact fun hl => h hl.1

/-- After the loss of a live circuit the same circuits listen. -/
theorem listensTo_lose {s : State} {c : CircuitNo} (hlive : (s.circuit c).state.live = true) (cause : EndCause) (f : Frame) (d : CircuitNo) :
    listensTo ((s.lose c cause).circuit d) f = listensTo (s.circuit d) f := by
  by_cases hd : d = c
  · subst hd
    have hs : (s.circuit d).state ≠ .listening ∧ (lostWith (s.circuit d) cause).state ≠ .listening := by
      cases hst : (s.circuit d).state <;> simp [hst, CircuitState.live, lostWith] at hlive ⊢
    rw [lose_circuit, not_listensTo_of_live hs.1, not_listensTo_of_live hs.2]
  · rw [(lose_only s c cause).others d hd]

/-- What a call that a listener takes shows, as a step among others. -/
theorem acceptCall_shows {s : State} (hmem : MemoryLaw s) (d : CircuitNo) (f : Frame) :
    CircuitOnly d s (s.acceptCall d f) ∧ (s.acceptCall d f).orphans = s.orphans ∧ (s.acceptCall d f).selector = s.selector ∧
      sameWindow s (s.acceptCall d f) (recordBytes d [0x00, 0x03, 0x04, 0x07, 0x08, 0x09, 0x0A, 0x0B, 0x0C] ++ raiseBytes s 1) ∧
      Raised s (s.acceptCall d f) (if (s.circuit d).inFlight.isSome then [.circuit d .done] else []) ∧
      ((s.circuit d).inFlight.isSome = true →
        ToldAs s (s.acceptCall d f) (.circuit d .done) fun n => entryBytes (s.acceptCall d f) n (.circuit d .done)) := by
  have hshown := callQuiet_shows hmem d f
  have hdone := doneOf_completedWith (s.circuit d) d .connected
  have honly := acceptCall_only s d f
  rw [acceptCall_eq_raiseOption, hdone] at *
  generalize callQuiet s d f = q at *
  obtain ⟨-, hwindow⟩ := raiseOption_after hshown.notice hshown.wf hshown.window
    (if (s.circuit d).inFlight.isSome then some (.circuit d .done) else none)
  obtain ⟨hraised, htold⟩ := raiseOption_raised hshown.notice hshown.wf hshown.window (offNotice_recordBytes d (by decide))
    (if (s.circuit d).inFlight.isSome then some (.circuit d .done) else none)
  have hraise := raiseOption_only q (if (s.circuit d).inFlight.isSome then some (.circuit d .done) else none)
  refine ⟨honly, hraise.orphans.trans hshown.orphans, hraise.selector.trans hshown.selector, hwindow, ?_, fun hflight => ?_⟩
  · cases h : (s.circuit d).inFlight.isSome <;> simp only [h] at hraised ⊢ <;> exact hraised
  · exact htold _ (if_pos hflight)

/-- A call that no listener takes draws a REFUSE. -/
theorem matchListener_refuses {s : State} {f : Frame}
    (hnone : ∀ d, listensTo (s.circuit d) f = false ∨ (s.circuit d).mode ≠ callerMode f) :
    (s.matchListener f).notice = s.notice ∧ (∀ d, (s.matchListener f).circuit d = s.circuit d) ∧
      sameWindow s (s.matchListener f) [0x30, 0x31] ∧ (s.matchListener f).selector = s.selector ∧ CircuitsOnly s (s.matchListener f) ∧
      ((∀ d, listensTo (s.circuit d) f = false) → (s.matchListener f).orphans =
        withOrphan s.station.state s.orphans f.src f.srcCircuit (.refuse f.seq .noListener)) ∧
      ((∃ d, listensTo (s.circuit d) f = true) → (s.matchListener f).orphans =
        withOrphan s.station.state s.orphans f.src f.srcCircuit (.refuse f.seq .modeMismatch)) := by
  rw [matchListener_eq_addOrphan hnone]
  have hreason (h : ∀ d, listensTo (s.circuit d) f = false) : allCircuits.any (fun d => listensTo (s.circuit d) f) = false := by
    rw [List.any_eq_false]
    exact fun d _ => by rw [h d]; decide
  have hreason' (h : ∃ d, listensTo (s.circuit d) f = true) : allCircuits.any (fun d => listensTo (s.circuit d) f) = true := by
    obtain ⟨d, hd⟩ := h
    exact List.any_eq_true.mpr ⟨d, mem_allCircuits d, hd⟩
  generalize allCircuits.any (fun d => listensTo (s.circuit d) f) = any at *
  have heq := addOrphan_eq s f.src f.srcCircuit (.refuse f.seq (if any then .modeMismatch else .noListener))
  have horphans := addOrphan_orphans s f.src f.srcCircuit (.refuse f.seq (if any then .modeMismatch else .noListener))
  have hwindow := addOrphan_sameWindow s f.src f.srcCircuit (.refuse f.seq (if any then .modeMismatch else .noListener))
  have honly := (addOrphan_only 0 s f.src f.srcCircuit (.refuse f.seq (if any then .modeMismatch else .noListener))).rest
  generalize s.addOrphan f.src f.srcCircuit (.refuse f.seq (if any then .modeMismatch else .noListener)) = u at *
  refine ⟨by rw [heq], fun d => by rw [heq]; rfl, hwindow, by rw [heq], honly, fun h => ?_, fun h => ?_⟩
  · rw [horphans, hreason h]
    rfl
  · rw [horphans, hreason' h]
    rfl

/-- The stale circuit after a later change that leaves its context and its record, and after the pairs raised since. -/
structure StaleShown (s t : State) (c : CircuitNo) : Prop where
  circuit : t.circuit c = lostWith (s.circuit c) .lostStale
  state : t.peek (recordBase c) = (t.circuit c).state.code
  shows : lossShows t c (s.circuit c) .lostStale
  told : ∀ p ∈ lossPair (s.circuit c) c .lostStale, told s t t p

theorem staleShown_after {s t : State} {c : CircuitNo} {due : List NoticePair} (hmem : MemoryLaw s) (hlive : (s.circuit c).state.live = true)
    (hcircuit : t.circuit c = (s.lose c .lostStale).circuit c)
    (hrecord : ∀ off < 0x40, t.peek (recordBase c + off) = (s.lose c .lostStale).peek (recordBase c + off))
    (hraised : Raised (s.lose c .lostStale) t due) : StaleShown s t c := by
  have hshown := lose_shown hmem c .lostStale
  obtain ⟨hlost, htold⟩ := lose_raised hmem c .lostStale
  have hchanged : (lostWith (s.circuit c) .lostStale).state ≠ (s.circuit c).state := by
    cases hs : (s.circuit c).state <;> simp [hs, CircuitState.live, lostWith] at hlive ⊢
  refine ⟨hcircuit.trans hshown.circuit, ?_, lossShows_congr hrecord hshown.shows, fun p hp => ?_⟩
  · rw [hcircuit]
    exact (hrecord 0 (by decide)).trans (hshown.state (by rw [hshown.circuit]; exact hchanged))
  · refine ((htold p hp).after hlost hraised).told fun n => ?_
    obtain rfl | rfl := lossPair_circuit hp <;> exact entryBytes_circuit_congr hcircuit n _ _

/-- The call whose pair a stale circuit held draws a REFUSE. -/
theorem staleCall_refused {s : State} {f : Frame} {c : CircuitNo} (hmem : MemoryLaw s) (hlive : (s.circuit c).state.live = true)
    (hnone : ∀ d, listensTo (s.circuit d) f = false ∨ (s.circuit d).mode ≠ callerMode f) :
    let t := (s.lose c .lostStale).matchListener f
    StaleShown s t c ∧ raisedOnly s t (lossPair (s.circuit c) c .lostStale).toList ∧ sameCircuits s t c ∧
      CircuitsOnly s t ∧ t.selector = (s.lose c .lostStale).selector ∧
      sameWindow s t ([0x30, 0x31] ++ lossBytes c ++ raiseBytes s 1) ∧
      ((∀ d, listensTo (s.circuit d) f = false) → t.orphans =
        withOrphan s.station.state (lossOrphans s c) f.src f.srcCircuit (.refuse f.seq .noListener)) ∧
      ((∃ d, listensTo (s.circuit d) f = true) → t.orphans =
        withOrphan s.station.state (lossOrphans s c) f.src f.srcCircuit (.refuse f.seq .modeMismatch)) := by
  have hshown := lose_shown hmem c .lostStale
  obtain ⟨hlost, -⟩ := lose_raised hmem c .lostStale
  have hlisten := listensTo_lose hlive .lostStale f
  have hnone' (d : CircuitNo) : listensTo ((s.lose c .lostStale).circuit d) f = false ∨ ((s.lose c .lostStale).circuit d).mode ≠ callerMode f := by
    rw [hlisten]
    by_cases hd : d = c
    · subst hd
      left
      exact not_listensTo_of_live fun h => by simp [h, CircuitState.live] at hlive
    · rw [hshown.only.others d hd]
      exact hnone d
  obtain ⟨hnotice, hcircuits, hwindow, hselector, honly, hfirst, hsecond⟩ := matchListener_refuses hnone'
  have hsilent : Raised (s.lose c .lostStale) ((s.lose c .lostStale).matchListener f) [] := .silent hnotice hwindow (by simp)
  have hrecord {off : Nat} (hoff : off < 0x40) : ((s.lose c .lostStale).matchListener f).peek (recordBase c + off) =
      (s.lose c .lostStale).peek (recordBase c + off) := by
    have := recordBase_range c
    exact hwindow _ (by omega) (by simp; omega)
  have horphans := hshown.orphans.trans (lossOrphans_eq hlive)
  have hstation := hshown.only.rest.station
  have hraised := (hlost.trans hsilent).only
  rw [List.append_nil] at hraised
  simp only [hlisten, horphans, hstation] at hfirst hsecond
  refine ⟨staleShown_after hmem hlive (hcircuits c) (fun off hoff => hrecord hoff) hsilent, hraised,
    fun d hd => (hcircuits d).trans (hshown.only.others d hd), hshown.only.rest.trans honly, hselector, ?_, hfirst, hsecond⟩
  exact sameWindow_mono (sameWindow_trans hshown.window hwindow) (by
    intro a
    simp only [List.mem_append]
    tauto)

/-- The call whose pair a stale circuit held is taken by a listener. -/
theorem staleCall_taken {s : State} {f : Frame} {c d : CircuitNo} (hmem : MemoryLaw s) (hlive : (s.circuit c).state.live = true)
    (hlistens : listensTo (s.circuit d) f = true) :
    let t := (s.lose c .lostStale).acceptCall d f
    StaleShown s t c ∧ t.circuit d = callTaken (s.circuit d) f ∧ t.orphans = lossOrphans s c ∧
      CircuitsOnly s t ∧ t.selector = (s.lose c .lostStale).selector ∧
      ((s.circuit d).inFlight.isSome = true → told s t t (.circuit d .done)) ∧
      raisedOnly s t ((lossPair (s.circuit c) c .lostStale).toList ++
        if (s.circuit d).inFlight.isSome then [.circuit d .done] else []) ∧
      sameWindow s t ([0x30, 0x31] ++ lossBytes c ++ recordBytes d [0x00, 0x03, 0x04, 0x07, 0x08, 0x09, 0x0A, 0x0B, 0x0C] ++
        raiseBytes s 2) := by
  have hdc : d ≠ c := by
    rintro rfl
    rw [not_listensTo_of_live fun h => by simp [h, CircuitState.live] at hlive] at hlistens
    exact absurd hlistens (by decide)
  have hshown := lose_shown hmem c .lostStale
  obtain ⟨hlost, -⟩ := lose_raised hmem c .lostStale
  have hwf := (lose_work (segment := True) s c .lostStale).memory hmem
  obtain ⟨honly, horphans, hselector, hwindow, hraised, htold⟩ := acceptCall_shows hwf d f
  have htaken := acceptCall_circuit (s.lose c .lostStale) d f
  have hd := hshown.only.others d hdc
  rw [hd] at hraised htold htaken
  have hrecord {off : Nat} (hoff : off < 0x40) : ((s.lose c .lostStale).acceptCall d f).peek (recordBase c + off) =
      (s.lose c .lostStale).peek (recordBase c + off) := by
    refine hwindow _ (record_lt c hoff) fun hin => ?_
    obtain hin | hin := List.mem_append.mp hin
    · obtain ⟨off', hoff', heq⟩ := List.mem_map.mp hin
      have hlt : off' < 0x40 := (by decide : ∀ o ∈ [0x00, 0x03, 0x04, 0x07, 0x08, 0x09, 0x0A, 0x0B, 0x0C], o < 0x40) off' hoff'
      simp only [recordBase] at heq
      have := Fin.val_ne_of_ne hdc
      omega
    · exact record_not_mem_raiseBytes c hoff _ 1 hin
  refine ⟨staleShown_after hmem hlive (honly.others c hdc.symm) (fun off hoff => hrecord hoff) hraised, htaken,
    horphans.trans (hshown.orphans.trans (lossOrphans_eq hlive)), hshown.only.rest.trans honly.rest, hselector, fun hflight => ?_,
    (hlost.trans hraised).only, ?_⟩
  · refine ((htold hflight).before hlost hraised fun hin => ?_).told fun n => rfl
    obtain h | h := lossPair_circuit (Option.mem_toList.mp hin) <;> cases h
    exact hdc rfl
  · have hlength : (lossPair (s.circuit c) c .lostStale).toList.length ≤ 1 := by
      cases lossPair (s.circuit c) c .lostStale <;> simp
    exact sameWindow_raises hlost hshown.window hwindow (k := 2) (by omega) (by decide)

end Sys2Proof.Proofs
end

section
namespace Sys2Proof.Proofs

open Sys2Proof Sys2Proof.Machine Sys2Proof.Claims Sys2Proof.Safety Sys2Proof.Laws

/-! ## Repeated and stale calls (R69, R70) -/

/-- The loss of a circuit leaves what decides whether a frame is heard. -/
theorem hears_lose {s : State} {k : Kind} {f : Frame} (h : hears k f s) {c : CircuitNo} (hlive : (s.circuit c).state.live = true)
    (cause : EndCause) (hmem : MemoryLaw s) : hears k f (s.lose c cause) := by
  have hshown := lose_shown hmem c cause
  have hrest := hshown.only.rest
  have hselector := hshown.selector (.inl hlive)
  rw [flightForgets_of_none (hears_inFlight h)] at hselector
  obtain ⟨⟨hreceives, hline, harbiter, hflight, hrules, hown⟩, hdst, hpresent⟩ := h
  exact ⟨⟨by rw [hrest.station]; exact hreceives, by rw [hrest.line]; exact hline, by rw [hrest.arbiter]; exact harbiter,
    by rw [hselector]; exact hflight, hrules, by rw [hrest.station]; exact hown⟩, by rw [hrest.station]; exact hdst,
    by rw [hrest.roster]; exact hpresent⟩

/-- A new call on a held pair does what it does where the stale circuit was lost before it. -/
theorem exec_staleCall {s : State} {f : Frame} {c : CircuitNo} (hmem : MemoryLaw s) (h : hears .call f s)
    (hactive : s.station.state = .active) (hpairs : PairLaw s) (hheld : holdsFrame (s.circuit c) f = true)
    (htag : (s.circuit c).peerTag ≠ some f.seq) : exec (.callReceived f) s = exec (.callReceived f) (s.lose c .lostStale) := by
  have htable : (heardFrom s .call f).tableFrame .call f = (heardFrom (s.lose c .lostStale) .call f).tableFrame .call f := by
    have hstale := hears_lose h (holds_live hheld) .lostStale hmem
    have hstation : (s.lose c .lostStale).station = s.station := (lose_only s c .lostStale).rest.station
    rw [tableFrame_call_held (u := heardFrom s .call f) (hears_dst h) (show f.src ≠ s.station.address from hears_src h) hactive hpairs hheld,
      if_neg (show ((heardFrom s .call f).circuit c).peerTag ≠ some f.seq from htag),
      tableFrame_call_eq_matchListener (s := heardFrom (s.lose c .lostStale) .call f) (hears_dst hstale) (show f.src ≠ (s.lose c .lostStale).station.address from hears_src hstale)
        (show (s.lose c .lostStale).station.state = .active by rw [hstation]; exact hactive) (lose_noneHolds hpairs hheld .lostStale),
      heardFrom_lose hmem (src_ne_31 (hears_keepsRules h))]
  have hstale := hears_lose h (holds_live hheld) .lostStale hmem
  obtain ⟨hfrom, -, hpresent⟩ := h
  obtain ⟨hfrom', -, hpresent'⟩ := hstale
  calc exec (.callReceived f) s = .next (((heardFrom s .call f).tableFrame .call f).frameEnd (some f.src)) :=
        exec_frameRow_from (k := .call) hfrom hpresent
    _ = .next (((heardFrom (s.lose c .lostStale) .call f).tableFrame .call f).frameEnd (some f.src)) := by rw [htable]
    _ = exec (.callReceived f) (s.lose c .lostStale) := (exec_frameRow_from (k := .call) hfrom' hpresent').symm

theorem count_not_mem_loss {a : Nat} (ha : a = 0x1E ∨ a = 0x1F) (c : CircuitNo) (u : State) (n : Nat) :
    a ∉ [0x30, 0x31] ++ lossBytes c ++ raiseBytes u n := fun hin => by
  obtain hin | hin := List.mem_append.mp hin
  · exact (List.mem_append.mp hin).elim (fun h => by simp at h; omega) (not_mem_recordBytes (by omega))
  · exact not_mem_raiseBytes (by omega) u n hin

/-- Where some circuit takes a call, one with the lowest number does (R71). -/
theorem first_listener {s : State} {f : Frame} (h : ¬ ∀ d, listensTo (s.circuit d) f = false ∨ (s.circuit d).mode ≠ callerMode f) :
    ∃ d, (listensTo (s.circuit d) f = true ∧ (s.circuit d).mode = callerMode f) ∧
      ∀ e, e < d → listensTo (s.circuit e) f = false ∨ (s.circuit e).mode ≠ callerMode f := by
  obtain ⟨d, hd, hleast⟩ := wellFounded_lt.has_min {d : CircuitNo | ¬ (listensTo (s.circuit d) f = false ∨ (s.circuit d).mode ≠ callerMode f)}
    (not_forall.mp h)
  refine ⟨d, by simpa [not_or] using hd, fun e he => ?_⟩
  by_contra hnot
  exact hleast e hnot he

theorem count_not_mem_taken {a : Nat} (ha : a = 0x1E ∨ a = 0x1F) (c d : CircuitNo) (u : State) :
    a ∉ [0x30, 0x31] ++ lossBytes c ++ recordBytes d [0x00, 0x03, 0x04, 0x07, 0x08, 0x09, 0x0A, 0x0B, 0x0C] ++ raiseBytes u 2 := fun hin => by
  simp only [List.append_assoc] at hin
  obtain hin | hin := List.mem_append.mp hin
  · simp at hin; omega
  obtain hin | hin := List.mem_append.mp hin
  · exact not_mem_recordBytes (by omega) hin
  · exact count_not_mem_record ha d _ u 2 hin

/-- The listener that takes a call is the same after the loss of the stale circuit. -/
theorem staleCall_matches {s : State} {f : Frame} {c d : CircuitNo} (hlive : (s.circuit c).state.live = true)
    (hl : listensTo (s.circuit d) f = true) (hm : (s.circuit d).mode = callerMode f)
    (hfirst : ∀ e, e < d → listensTo (s.circuit e) f = false ∨ (s.circuit e).mode ≠ callerMode f) :
    (s.lose c .lostStale).matchListener f = (s.lose c .lostStale).acceptCall d f := by
  have hnot : listensTo (s.circuit c) f = false := not_listensTo_of_live fun h => by simp [h, CircuitState.live] at hlive
  have hothers := (lose_only s c .lostStale).others
  have hdc : d ≠ c := by
    rintro rfl
    exact absurd (hl.symm.trans hnot) (by decide)
  refine matchListener_first ((listensTo_lose hlive _ f d).trans hl) (by rw [hothers d hdc]; exact hm) fun e he => ?_
  by_cases hec : e = c
  · exact .inl ((listensTo_lose hlive _ f e).trans (hec ▸ hnot))
  · rw [hothers e hec]
    exact hfirst e he

/-- Settles O34: a repeat only owes the ANSWER again; a new call first loses the one circuit on its pair, after which none holds it, and
then finds a listener or draws a REFUSE. -/
theorem repeatedAndStaleCalls : Obligations.RepeatedAndStaleCalls := by
  intro s f c hmem h hactive hpairs hheld
  have htable := tableFrame_call_held (u := heardFrom s .call f) (hears_dst h) (show f.src ≠ s.station.address from hears_src h) hactive hpairs hheld
  have hlive := holds_live hheld
  split
  case isTrue htag =>
    rw [if_pos (show ((heardFrom s .call f).circuit c).peerTag = some f.seq from htag)] at htable
    by_cases hopen : (s.circuit c).state = .opened
    · rw [if_pos (show ((heardFrom s .call f).circuit c).state = .opened from hopen)] at htable
      have honly := updCircuit_only (heardFrom s .call f) c fun k => { k with controlOwed := some .answer }
      obtain ⟨x, hexec, hblocks⟩ := frame_taken (offs := []) hmem h (by decide) htable honly.rest rfl (fun _ _ _ => rfl)
        List.not_mem_nil List.not_mem_nil
      refine ⟨_, hexec, hblocks, honly.others, rfl, rfl, heardFrom_sameWindow s .call f, ?_⟩
      rw [if_pos hopen]
      exact circuit_updCircuit_same (heardFrom s .call f) c fun k => { k with controlOwed := some .answer }
    · rw [if_neg (show ((heardFrom s .call f).circuit c).state ≠ .opened from hopen)] at htable
      obtain ⟨t, hexec, hblocks, hcircuits, hnotice, horphans, hwindow⟩ := frame_passes hmem h (by decide) htable
      exact ⟨t, hexec, hblocks, fun d _ => hcircuits d, horphans, hnotice, hwindow, by rw [if_neg hopen]; exact hcircuits c⟩
  case isFalse htag =>
    rw [if_neg (show ((heardFrom s .call f).circuit c).peerTag ≠ some f.seq from htag)] at htable
    have hmem' := heardFrom_wf hmem .call f
    have hstation : (s.lose c .lostStale).station = s.station := (lose_only s c .lostStale).rest.station
    refine ⟨lose_lostOnly hmem hlive (hears_inFlight h) _, exec_staleCall hmem h hactive hpairs hheld htag, hears_lose h hlive _ hmem,
      by rw [hstation]; exact hactive, lose_noneHolds hpairs hheld _, ?_⟩
    have hselector : ((heardFrom s .call f).lose c .lostStale).selector = s.selector :=
      ((lose_shown hmem' c .lostStale).selector (.inl hlive)).trans (flightForgets_of_none (s := heardFrom s .call f)
        (show s.selector.inFlight = none from hears_inFlight h) ..)
    by_cases hnone : ∀ d, listensTo (s.circuit d) f = false ∨ (s.circuit d).mode ≠ callerMode f
    · obtain ⟨hstale, hraised, hsame, honly, hsel, hwindow, hfirst, hsecond⟩ := staleCall_refused (s := heardFrom s .call f) hmem' hlive hnone
      generalize ((heardFrom s .call f).lose c .lostStale).matchListener f = v at *
      obtain ⟨x, hexec, hblocks⟩ := frame_taken hmem h (by decide) htable honly (hsel.trans hselector) hwindow
        (count_not_mem_loss (.inl rfl) c _ 1) (count_not_mem_loss (.inr rfl) c _ 1)
      have hnever (d : CircuitNo) (hl : listensTo (s.circuit d) f = true) (hm : (s.circuit d).mode = callerMode f) : False :=
        (hnone d).elim (fun hf => by rw [hl] at hf; exact absurd hf (by decide)) fun hf => hf hm
      exact ⟨_, hexec, hblocks, hstale.circuit, hstale.state, hstale.shows,
        fun p hp => told_congr (u := heardFrom s .call f) rfl (hstale.told p hp),
        fun _ => raisedOnly_congr (u := heardFrom s .call f) rfl hraised, fun hnot => ⟨hsame, hfirst hnot⟩,
        fun _ hsome => ⟨hsame, hsecond hsome⟩,
        fun _ => by
          rw [List.append_assoc, List.append_assoc, ← List.append_assoc [0x30, 0x31]]
          exact sameWindow_of_heardFrom hwindow,
        fun d hl hm _ => absurd (hnever d hl hm) id⟩
    · obtain ⟨d, hd, hfirst⟩ := first_listener hnone
      obtain ⟨hl, hm⟩ := hd
      obtain ⟨hstale, htaken, horphans, honly, hsel, htold, hraised, hwindow⟩ :=
        staleCall_taken (s := heardFrom s .call f) (d := d) hmem' hlive hl
      rw [staleCall_matches (s := heardFrom s .call f) hlive hl hm hfirst] at htable
      generalize ((heardFrom s .call f).lose c .lostStale).acceptCall d f = v at *
      obtain ⟨x, hexec, hblocks⟩ := frame_taken hmem h (by decide) htable honly (hsel.trans hselector) hwindow
        (count_not_mem_taken (.inl rfl) c d _) (count_not_mem_taken (.inr rfl) c d _)
      refine ⟨_, hexec, hblocks, hstale.circuit, hstale.state, hstale.shows,
        fun p hp => told_congr (u := heardFrom s .call f) rfl (hstale.told p hp),
        fun hnot => absurd hnot hnone, fun hnot => absurd (fun e => .inl (hnot e)) hnone, fun hnot => absurd hnot hnone,
        fun hnot => absurd hnot hnone, fun e hle hme hfe => ?_⟩
      obtain rfl : e = d := by
        have hnot (e : CircuitNo) (hle : listensTo (s.circuit e) f = true) (hme : (s.circuit e).mode = callerMode f)
            (h : listensTo (s.circuit e) f = false ∨ (s.circuit e).mode ≠ callerMode f) : False :=
          h.elim (fun hf => absurd (hle.symm.trans hf) (by decide)) fun hf => hf hme
        exact le_antisymm (not_lt.mp fun hlt => hnot d hl hm (hfe d hlt)) (not_lt.mp fun hlt => hnot e hle hme (hfirst e hlt))
      have hcircuit : ({ v with arbiter := x } : State).circuit e = callTaken (s.circuit e) f := htaken
      rw [hcircuit]
      exact ⟨rfl, rfl, rfl, rfl, rfl, horphans, fun hflight => told_congr (u := heardFrom s .call f) rfl (htold hflight),
        raisedOnly_congr (u := heardFrom s .call f) rfl hraised⟩

end Sys2Proof.Proofs
end

section
namespace Sys2Proof.Proofs

open Sys2Proof Sys2Proof.Machine Sys2Proof.Claims Sys2Proof.Safety Sys2Proof.Laws

/-! ## Circuits lost one after another (R93, R96) -/

/-- The circuits of a list are lost in its order (log 14). -/
def losses (cause : EndCause) (l : List CircuitNo) (s : State) : State := l.foldl (fun s c => s.lose c cause) s

theorem loseAll_eq_losses (s : State) (cause : EndCause) : s.loseAll cause = losses cause allCircuits s := rfl

/-- Each circuit is asked before it is lost, so the list of those that are lost can be drawn up at the start. -/
theorem foldl_lose_if (p : Circuit → Prop) [DecidablePred p] (cause : EndCause) {s : State} (l : List CircuitNo) (hl : l.Nodup) {u : State}
    (hu : ∀ c ∈ l, u.circuit c = s.circuit c) :
    l.foldl (fun s c => if p (s.circuit c) then s.lose c cause else s) u = losses cause (l.filter fun c => p (s.circuit c)) u := by
  induction l generalizing u with
  | nil => rfl
  | cons c rest ih =>
    obtain ⟨hc, hrest⟩ := List.nodup_cons.mp hl
    have hkept (d : CircuitNo) (hd : d ∈ rest) : (u.lose c cause).circuit d = s.circuit d :=
      ((lose_only u c cause).others d fun h => hc (h ▸ hd)).trans (hu d (List.mem_cons_of_mem c hd))
    rw [List.foldl_cons, hu c List.mem_cons_self, List.filter_cons]
    by_cases hp : p (s.circuit c)
    · rw [if_pos hp, if_pos (decide_eq_true hp), ih hrest hkept]
      rfl
    · rw [if_neg hp, if_neg (by simpa using hp), ih hrest fun d hd => hu d (List.mem_cons_of_mem c hd)]

theorem loseAbsent_eq_losses (s : State) (a : Address) :
    s.loseAbsent a = losses .lostAbsent (allCircuits.filter fun c => (s.circuit c).peer = a) s := by
  rw [State.loseAbsent, State.eachCircuit]
  generalize hl : allCircuits = l
  exact foldl_lose_if (s := s) (u := s) (fun k => k.peer = a) .lostAbsent l (hl ▸ allCircuits_nodup) fun _ _ => rfl

/-- What the losses of these circuits, one after another, show. -/
structure LossesShown (s t : State) (l : List CircuitNo) (cause : EndCause) : Prop where
  only : CircuitsOnly s t
  wf : MemoryLaw t
  circuit : ∀ c, t.circuit c = if c ∈ l then lostWith (s.circuit c) cause else s.circuit c
  raised : Raised s t (l.flatMap fun c => (lossPair (s.circuit c) c cause).toList)
  state : ∀ c, (t.circuit c).state ≠ (s.circuit c).state → t.peek (recordBase c) = (t.circuit c).state.code
  shows : ∀ c ∈ l, lossShows t c (s.circuit c) cause
  told : ∀ c ∈ l, ∀ p ∈ lossPair (s.circuit c) c cause, ToldAs s t p fun n => entryBytes t n p
  flight : s.selector.inFlight = none → t.selector.inFlight = none
  orphans : (∀ c ∈ l, (s.circuit c).controlOwed ≠ some .confirm ∨ (s.circuit c).state = .ended) →
    t.orphans = s.orphans ∧ t.peek 0x30 = s.peek 0x30 ∧ t.peek 0x31 = s.peek 0x31
  window : sameWindow s t ([0x30, 0x31] ++ l.flatMap lossBytes ++ raiseBytes s l.length)

theorem lossPair_length (k : Circuit) (c : CircuitNo) (cause : EndCause) : (lossPair k c cause).toList.length ≤ 1 := by
  cases lossPair k c cause <;> simp

theorem lossPairs_length {s : State} (l : List CircuitNo) (cause : EndCause) :
    (l.flatMap fun c => (lossPair (s.circuit c) c cause).toList).length ≤ l.length := by
  induction l with
  | nil => exact le_rfl
  | cons c rest ih =>
    have := lossPair_length (s.circuit c) c cause
    rw [List.flatMap_cons, List.length_append, List.length_cons]
    omega

theorem record_not_mem_losses {c : CircuitNo} {l : List CircuitNo} (hc : c ∉ l) {off : Nat} (hoff : off < 0x40) (u : State) (n : Nat) :
    recordBase c + off ∉ [0x30, 0x31] ++ l.flatMap lossBytes ++ raiseBytes u n := fun hin => by
  have hrange := recordBase_range c
  obtain hin | hin := List.mem_append.mp hin
  · obtain hin | hin := List.mem_append.mp hin
    · simp at hin
      omega
    · obtain ⟨d, hd, hin⟩ := List.mem_flatMap.mp hin
      obtain ⟨off', hoff', heq⟩ := mem_recordBytes_iff.mp hin
      have hlt : off' < 0x40 := (by decide : ∀ o ∈ [0x00, 0x02, 0x08, 0x09, 0x0A, 0x0B, 0x0C, 0x20], o < 0x40) off' hoff'
      have hne : d.val ≠ c.val := fun h => hc (Fin.ext h ▸ hd)
      simp only [recordBase] at heq
      omega
  · exact record_not_mem_raiseBytes c hoff u n hin

/-- A circuit that owes no CONFIRM leaves the orphan list alone as it is lost. -/
theorem lossOrphans_kept {s : State} {c : CircuitNo} {cause : EndCause}
    (h : (s.circuit c).controlOwed ≠ some .confirm ∨ (s.circuit c).state = .ended) :
    (if freesOnLoss (s.circuit c) cause then movedConfirm s c else s.orphans) = s.orphans := by
  obtain h | h := h
  · rw [movedConfirm, if_neg h, ite_self]
  · rw [freesOnLoss, h]
    rfl

theorem ToldAs.congr {s t : State} {p : NoticePair} {entry entry' : Byte → List Byte} (h : ToldAs s t p entry)
    (hentry : ∀ n, entry n = entry' n) : ToldAs s t p entry' := (funext hentry : entry = entry') ▸ h

/-- The loss of one circuit as a step that others follow. -/
theorem lossesShown_cons {s t : State} {c : CircuitNo} {rest : List CircuitNo} {cause : EndCause} (hmem : MemoryLaw s)
    (hc : c ∉ rest) (h : LossesShown (s.lose c cause) t rest cause) : LossesShown s t (c :: rest) cause := by
  have hshown := lose_shown hmem c cause
  have hflight := (lose_served (w := anyTerms) s c cause).flight
  obtain ⟨hraised, htold⟩ := lose_raised hmem c cause
  have hrecord (off : Nat) (hoff : off < 0x40) : t.peek (recordBase c + off) = (s.lose c cause).peek (recordBase c + off) := by
    exact h.window _ (record_lt c hoff) (record_not_mem_losses hc hoff _ _)
  generalize s.lose c cause = u at *
  have hkept {d : CircuitNo} (hd : d ∈ rest) : u.circuit d = s.circuit d := hshown.only.others d fun h => hc (h ▸ hd)
  have hpairs : (rest.flatMap fun d => (lossPair (u.circuit d) d cause).toList) =
      rest.flatMap fun d => (lossPair (s.circuit d) d cause).toList :=
    List.flatMap_congr fun d hd => by rw [hkept hd]
  have hraisedRest := h.raised
  rw [hpairs] at hraisedRest
  have hself : t.circuit c = u.circuit c := (h.circuit c).trans (if_neg hc)
  refine {
    only := hshown.only.rest.trans h.only
    wf := h.wf
    circuit := fun d => ?_
    raised := hraised.trans hraisedRest
    state := fun d hd => ?_
    shows := fun d hd => ?_
    told := fun d hd p hp => ?_
    flight := fun hnone => ?_
    orphans := fun hconfirm => ?_
    window := ?_ }
  · by_cases hd : d = c
    · rw [hd, hself, if_pos List.mem_cons_self, hshown.circuit]
    · simp only [h.circuit, List.mem_cons, hd, false_or, hshown.only.others d hd]
  · by_cases hdc : d = c
    · subst hdc
      rw [hself] at hd ⊢
      exact (hrecord 0 (by decide)).trans (hshown.state hd)
    · exact h.state d (by rwa [hshown.only.others d hdc])
  · obtain rfl | hd := List.mem_cons.mp hd
    · exact lossShows_congr hrecord hshown.shows
    · exact hkept hd ▸ h.shows d hd
  · obtain rfl | hd := List.mem_cons.mp hd
    · refine ((htold p hp).after hraised hraisedRest).congr fun n => ?_
      obtain rfl | rfl := lossPair_circuit hp <;> exact (entryBytes_circuit_congr hself n _ _).symm
    · rw [← hkept hd] at hp
      refine (h.told d hd p hp).before hraised hraisedRest fun hin => hc ?_
      obtain rfl | rfl := lossPair_circuit hp <;> obtain hq | hq := lossPair_circuit (Option.mem_toList.mp hin) <;> cases hq <;> exact hd
  · exact h.flight (flight_eq_none.mp (hflight.trans (flight_eq_none.mpr hnone)))
  · have hfirst : u.orphans = s.orphans := hshown.orphans.trans (lossOrphans_kept (hconfirm c List.mem_cons_self))
    have hdrops := hshown.drops
    rw [showsDrops, if_pos (by rw [hfirst])] at hdrops
    obtain ⟨horphans, hlow, hhigh⟩ := h.orphans fun d hd => hkept hd ▸ hconfirm d (List.mem_cons_of_mem c hd)
    exact ⟨horphans.trans hfirst, hlow.trans hdrops.1, hhigh.trans hdrops.2⟩
  · refine sameWindow_mono (sameWindow_raises (k := (c :: rest).length) hraised hshown.window h.window ?_ (by simp)) ?_
    · have := lossPair_length (s.circuit c) c cause
      rw [List.length_cons]
      omega
    · intro a
      simp only [List.mem_append, List.flatMap_cons]
      tauto

theorem losses_shown {s : State} (hmem : MemoryLaw s) (cause : EndCause) (l : List CircuitNo) (hl : l.Nodup) :
    LossesShown s (losses cause l s) l cause := by
  induction l generalizing s with
  | nil => exact {
      only := .refl s
      wf := hmem
      circuit := fun _ => rfl
      raised := .silent (offs := []) rfl (fun _ _ _ => rfl) (by simp)
      state := fun _ h => absurd rfl h
      shows := fun _ h => absurd h List.not_mem_nil
      told := fun _ h => absurd h List.not_mem_nil
      flight := id
      orphans := fun _ => ⟨rfl, rfl, rfl⟩
      window := fun _ _ _ => rfl }
  | cons c rest ih =>
    obtain ⟨hc, hrest⟩ := List.nodup_cons.mp hl
    exact lossesShown_cons hmem hc (ih ((lose_work (segment := True) s c cause).memory hmem) hrest)

end Sys2Proof.Proofs
end

section
namespace Sys2Proof.Proofs

open Sys2Proof Sys2Proof.Machine Sys2Proof.Claims Sys2Proof.Safety Sys2Proof.Laws

/-! ## An answer accepted (R66) -/

/-- The circuits that hold the pair of a frame. -/
def holders (s : State) (f : Frame) : List CircuitNo := allCircuits.filter fun d => holdsFrame (s.circuit d) f

theorem mem_holders {s : State} {f : Frame} {d : CircuitNo} : d ∈ holders s f ↔ holdsFrame (s.circuit d) f = true := by
  simp [holders, mem_allCircuits]

/-- One circuit at most holds a pair (R70). -/
theorem holders_of_held {s : State} (hpairs : PairLaw s) {f : Frame} {i : CircuitNo} (hi : holdsFrame (s.circuit i) f = true) :
    holders s f = [i] := by
  obtain ⟨hlive, hpeer, hpc⟩ := (holdsFrame_iff _ f).mp hi
  have honly (d : CircuitNo) : holdsFrame (s.circuit d) f = true ↔ d = i := by
    refine ⟨fun hd => ?_, fun hd => hd ▸ hi⟩
    obtain ⟨hlive', hpeer', hpc'⟩ := (holdsFrame_iff _ f).mp hd
    exact hpairs.2 d i hlive' hlive (hpeer'.trans hpeer.symm) (hpc'.trans hpc.symm)
  have hsingle : ∀ i : CircuitNo, allCircuits.filter (fun d => decide (d = i)) = [i] := by decide
  refine (List.filter_congr fun d _ => ?_).trans (hsingle i)
  rw [Bool.eq_iff_iff, honly, decide_eq_true_iff]

theorem holders_length {s : State} (hpairs : PairLaw s) {f : Frame} : (holders s f).length ≤ 1 := by
  cases h : holders s f with
  | nil => exact Nat.zero_le 1
  | cons i rest =>
    have hi : i ∈ holders s f := h ▸ List.mem_cons_self
    rw [← h, holders_of_held hpairs (mem_holders.mp hi)]
    exact le_rfl

/-- The other circuit that an ANSWER shows to be stale is the one that holds its pair, if one does (R66, R94). -/
theorem loseStaleOther_eq_losses {s : State} (hpairs : PairLaw s) {c : CircuitNo} {f : Frame} (hcalling : (s.circuit c).state = .calling) :
    s.loseStaleOther c f = losses .lostStale (holders s f) s := by
  unfold State.loseStaleOther
  split
  · next i h =>
    have hi := findCircuit_eq_some h
    simp only [Bool.and_eq_true, bne_iff_ne] at hi
    rw [holders_of_held hpairs ((holdsPair_eq_holdsFrame _ f).symm.trans hi.2)]
    rfl
  · next h =>
    have hnone : holders s f = [] := by
      refine List.filter_eq_nil_iff.mpr fun d _ hd => ?_
      have hnot := findCircuit_eq_none.mp h d
      rw [holdsPair_eq_holdsFrame, hd, Bool.and_true, bne_eq_false_iff_eq] at hnot
      have := holds_live hd
      rw [hnot, hcalling] at this
      exact absurd this (by decide)
    rw [hnone]
    rfl

/-- The context of a circuit whose call is answered, before its OPEN completes. -/
def answerContext (s : State) (c : CircuitNo) (f : Frame) : State :=
  (s.updCircuit c fun k =>
    { k.withInitialLimit f.credit with
      peerCircuit := some f.srcCircuit
      retryTimer := none
      sendCount := 0
      callOwed := false }).pokeRecord c recPeerCircuit (circuitByte f.srcCircuit)

theorem answerContext_inFlight (s : State) (c : CircuitNo) (f : Frame) :
    ((answerContext s c f).circuit c).inFlight = (s.circuit c).inFlight := by
  rw [answerContext, circuit_pokeRecord, circuit_updCircuit_same, withInitialLimit_eq]

/-- The whole of an answer's taking after the stale circuit is lost, before DONE is raised. -/
def answerQuiet (s : State) (c : CircuitNo) (f : Frame) : State := completedInto (answerContext s c f) c .connected .opened

theorem acceptAnswer_eq_raiseOption (s : State) (c : CircuitNo) (f : Frame) : s.acceptAnswer c f =
    (answerQuiet (s.loseStaleOther c f) c f).raiseOption (doneOf c (completedWith (s.circuit c) .connected)) := by
  have hdone : completedWith ((answerContext (s.loseStaleOther c f) c f).circuit c) .connected = completedWith (s.circuit c) .connected := by
    rw [completedWith, completedWith, answerContext_inFlight, loseStaleOther_circuit]
  have haccept : s.acceptAnswer c f = (answerContext (s.loseStaleOther c f) c f).completeInto c .connected .opened := rfl
  rw [haccept, completeInto_eq, hdone, answerQuiet]

/-- What the record shows of a circuit whose call was answered. -/
structure AnswerShows (s u : State) (c : CircuitNo) (f : Frame) : Prop where
  only : CircuitOnly c s u
  orphans : u.orphans = s.orphans
  selector : u.selector = s.selector
  notice : u.notice = s.notice
  wf : MemoryLaw u
  window : sameWindow s u (recordBytes c [0x00, 0x04, 0x08, 0x09, 0x0A, 0x0B, 0x0C])
  state : u.peek (recordBase c) = 3
  peerCircuit : u.peek (recordBase c + 0x04) = BitVec.ofNat 8 f.srcCircuit.val
  completion : ∀ d ∈ completedWith (s.circuit c) .connected, showsCompletion u c d

theorem answerQuiet_shows {s : State} (hmem : MemoryLaw s) (c : CircuitNo) (f : Frame) : AnswerShows s (answerQuiet s c f) c f := by
  have hdone : completedWith ((answerContext s c f).circuit c) .connected = completedWith (s.circuit c) .connected := by
    rw [completedWith, completedWith, answerContext_inFlight]
  have hwritten : RecordWritten s (answerContext s c f) c [(0x04, circuitByte f.srcCircuit)] :=
    ⟨rfl, (by decide : ∀ off ∈ [0x04], off < 0x40), (by decide : [0x04].Nodup)⟩
  have hcompleted := completedInto_shows (hwritten.wf hmem) c .connected .opened
  have honly : CircuitOnly c s (answerContext s c f) := (updCircuit_only s c _).trans (circuitOnly_pokeRecord c c _ _ _)
  have hcompletion := hcompleted.completion
  have hnotice : (answerContext s c f).notice = s.notice := rfl
  have horphans : (answerContext s c f).orphans = s.orphans := rfl
  have hselector : (answerContext s c f).selector = s.selector := rfl
  rw [hdone] at hcompletion
  have hquiet : answerQuiet s c f = completedInto (answerContext s c f) c .connected .opened := rfl
  rw [← hquiet] at hcompleted hcompletion
  generalize answerQuiet s c f = u at *
  generalize answerContext s c f = w at *
  exact {
    only := honly.trans hcompleted.only
    orphans := hcompleted.orphans.trans horphans
    selector := hcompleted.selector.trans hselector
    notice := hcompleted.notice.trans hnotice
    wf := hcompleted.wf
    window := sameWindow_mono (sameWindow_trans hwritten.sameWindow hcompleted.window) (by simp [recordBytes])
    state := hcompleted.state
    peerCircuit := (hcompleted.window _ (record_lt c (by decide)) fun h => by simp [record_mem_recordBytes] at h).trans
      (hwritten.shows hmem List.mem_cons_self)
    completion := hcompletion }

theorem answered_eq (k : Circuit) (f : Frame) : answered k f = { k with
    state := .opened
    peerCircuit := some f.srcCircuit
    limit := if k.mode = .assured then f.credit else k.limit
    retryTimer := none
    sendCount := 0
    callOwed := false
    completion := (completedWith k .connected).or k.completion
    inFlight := none } := by
  rw [answered, withInitialLimit_eq]

theorem answer_accepted {s : State} {f : Frame} (h : hears .answer f s) (hcount : f.dstCircuit.val < s.station.circuitCount)
    (hcalling : (s.circuit f.dstCircuit).state = .calling) (hpeer : (s.circuit f.dstCircuit).peer = f.src)
    (htag : (s.circuit f.dstCircuit).callTag = f.seq) : (heardFrom s .answer f).tableFrame .answer f =
      (heardFrom s .answer f).acceptAnswer f.dstCircuit f :=
  ((tableFrame_circuit (hears_dst h) (by decide) (by decide)).trans
    (takeCircuitFrame_calling (u := heardFrom s .answer f) hcount hcalling hpeer)).trans (if_pos htag.symm)

/-- What an answer accepted shows, the stale circuit that it loses included. -/
structure AnswerTaken (s t : State) (c : CircuitNo) (f : Frame) : Prop where
  only : CircuitsOnly s t
  flight : s.selector.inFlight = none → t.selector.inFlight = none
  circuit : t.circuit c = answered (s.circuit c) f
  others : ∀ d, d ≠ c → t.circuit d = if holdsFrame (s.circuit d) f then lostWith (s.circuit d) .lostStale else s.circuit d
  state : t.peek (recordBase c) = 3
  peerCircuit : t.peek (recordBase c + 0x04) = BitVec.ofNat 8 f.srcCircuit.val
  done : ∀ d ∈ completedWith (s.circuit c) .connected, told s t t (.circuit c .done) ∧ showsCompletion t c d
  raised : raisedOnly s t ((if (s.circuit c).inFlight.isSome then [.circuit c .done] else []) ++
    lossPairs s.circuit (fun d => holdsFrame (s.circuit d) f) .lostStale)
  orphans : (∀ d, holdsFrame (s.circuit d) f = false) → t.orphans = s.orphans
  drops : showsDrops s t
  stale : ∀ d, holdsFrame (s.circuit d) f = true → t.orphans = lossOrphans s d ∧
    t.peek (recordBase d) = (t.circuit d).state.code ∧ lossShows t d (s.circuit d) .lostStale ∧
    ∀ p ∈ lossPair (s.circuit d) d .lostStale, told s t t p
  window : sameWindow s t ([0x30, 0x31] ++ (holders s f).flatMap lossBytes ++
    recordBytes c [0x00, 0x04, 0x08, 0x09, 0x0A, 0x0B, 0x0C] ++ raiseBytes s 2)

theorem lostWith_state_ne {k : Circuit} {cause : EndCause} (hlive : k.state.live = true) : (lostWith k cause).state ≠ k.state := by
  cases hs : k.state <;> simp [hs, CircuitState.live, lostWith] at hlive ⊢

/-- Where a circuit holds the pair, it alone is lost. -/
theorem stale_lost {s : State} {f : Frame} (hmem : MemoryLaw s) (hpairs : PairLaw s) (d : CircuitNo) (hd : holdsFrame (s.circuit d) f = true) :
    (losses .lostStale (holders s f) s).orphans = lossOrphans s d ∧ showsDrops s (losses .lostStale (holders s f) s) := by
  rw [holders_of_held hpairs hd]
  have h := lose_shown hmem d .lostStale
  exact ⟨h.orphans.trans (lossOrphans_eq (holds_live hd)), h.drops⟩

theorem low_not_mem_record {a : Nat} (ha : 0x12 < a ∧ a < 0x100) (c : CircuitNo) (offs : List Nat) (u : State) (n : Nat) :
    a ∉ recordBytes c offs ++ raiseBytes u n := fun hin =>
  (List.mem_append.mp hin).elim (not_mem_recordBytes (by omega)) (not_mem_raiseBytes (by omega) u n)

theorem acceptAnswer_taken {s : State} {f : Frame} {c : CircuitNo} (hmem : MemoryLaw s) (hpairs : PairLaw s)
    (hcalling : (s.circuit c).state = .calling) : AnswerTaken s (s.acceptAnswer c f) c f := by
  have hlost := losses_shown hmem .lostStale (holders s f) (allCircuits_nodup.filter _)
  have hcircuit := acceptAnswer_circuit s c f
  have hothers (d : CircuitNo) (hd : d ≠ c) := acceptAnswer_others s c f hd
  have heq := acceptAnswer_eq_raiseOption s c f
  have hsame := loseStaleOther_circuit s c f
  rw [loseStaleOther_eq_losses hpairs hcalling] at heq hothers hsame
  have hshown := answerQuiet_shows hlost.wf c f
  have hsingle := stale_lost hmem hpairs (f := f)
  generalize losses .lostStale (holders s f) s = w at *
  have hdone := doneOf_completedWith (s.circuit c) c .connected
  rw [hdone] at heq
  have hcompletion := hshown.completion
  rw [hsame] at hcompletion
  generalize answerQuiet w c f = q at *
  have hoff : OffNotice (recordBytes c [0x00, 0x04, 0x08, 0x09, 0x0A, 0x0B, 0x0C]) :=
    offNotice_recordBytes c (by decide)
  obtain ⟨hraised, htold⟩ := raiseOption_raised hshown.notice hshown.wf hshown.window hoff
    (if (s.circuit c).inFlight.isSome then some (.circuit c .done) else none)
  obtain ⟨-, hwindow⟩ := raiseOption_after hshown.notice hshown.wf hshown.window
    (if (s.circuit c).inFlight.isSome then some (.circuit c .done) else none)
  have hself {off : Nat} (hlt : off < 0x40) := peek_record_raiseOption q
    (if (s.circuit c).inFlight.isSome then some (.circuit c .done) else none) c hlt
  have hraise := raiseOption_only q (if (s.circuit c).inFlight.isSome then some (.circuit c .done) else none)
  rw [← heq] at hraised htold hwindow hself hraise
  generalize s.acceptAnswer c f = t at *
  have hholds {d : CircuitNo} (hd : d ∈ holders s f) : d ≠ c := fun h => by
    have := holds_live (mem_holders.mp hd)
    rw [h, hcalling] at this
    exact absurd this (by decide)
  have hother {d : CircuitNo} (hd : d ≠ c) (off : Nat) (hlt : off < 0x40) : t.peek (recordBase d + off) = w.peek (recordBase d + off) :=
    hwindow _ (record_lt d hlt) fun hin => (List.mem_append.mp hin).elim
      (fun h => by
        obtain ⟨off', hoff', heq'⟩ := mem_recordBytes_iff.mp h
        have hlt' : off' < 0x40 := (by decide : ∀ o ∈ [0x00, 0x04, 0x08, 0x09, 0x0A, 0x0B, 0x0C], o < 0x40) off' hoff'
        have := Fin.val_ne_of_ne hd
        simp only [recordBase] at heq'
        omega)
      (record_not_mem_raiseBytes d hlt w 1)
  have horphans : t.orphans = w.orphans := hraise.orphans.trans hshown.orphans
  have hdrops (h : showsDrops s w) : showsDrops s t := showsDrops_congr_right horphans
    (hwindow _ (by decide) (low_not_mem_record (by decide) c _ _ 1)) (hwindow _ (by decide) (low_not_mem_record (by decide) c _ _ 1)) h
  have hnone (h : ∀ d, holdsFrame (s.circuit d) f = false) (d : CircuitNo) (hd : d ∈ holders s f) : False := by
    rw [mem_holders, h] at hd
    exact absurd hd (by decide)
  refine {
    only := (hlost.only.trans hshown.only.rest).trans hraise.circuitsOnly
    flight := fun hf => by rw [hraise.selector, hshown.selector]; exact hlost.flight hf
    circuit := hcircuit
    others := fun d hd => ?_
    state := (hself (off := 0) (by decide)).trans hshown.state
    peerCircuit := (hself (by decide)).trans hshown.peerCircuit
    done := fun d hd => ⟨?_, showsCompletion_congr (fun off _ hlt => hself hlt) (hcompletion d hd)⟩
    raised := ((hlost.raised.trans hraised).mono ?_).only
    orphans := fun h => horphans.trans (hlost.orphans fun d hd => (hnone h d hd).elim).1
    drops := ?_
    stale := fun d hd => ⟨horphans.trans (hsingle d hd).1, ?_, ?_, fun p hp => ?_⟩
    window := ?_ }
  · rw [hothers d hd, hlost.circuit]
    exact if_congr mem_holders rfl rfl
  · have hflight : (s.circuit c).inFlight.isSome = true := by
      cases hr : (s.circuit c).inFlight with
      | some _ => rfl
      | none =>
        rw [completedWith, hr] at hd
        exact absurd hd (Option.not_mem_none d)
    refine ((htold (.circuit c .done) (if_pos hflight)).before hlost.raised hraised fun hin => ?_).told fun n => rfl
    obtain ⟨d', hd', hp⟩ := List.mem_flatMap.mp hin
    obtain hp | hp := lossPair_circuit (Option.mem_toList.mp hp) <;> cases hp
    exact hholds hd' rfl
  · intro p hp
    obtain hp | hp := List.mem_append.mp hp
    · refine List.mem_append_right _ ?_
      obtain ⟨d, hd, hp⟩ := List.mem_flatMap.mp hp
      exact List.mem_filterMap.mpr ⟨d, mem_allCircuits d, by rw [if_pos (mem_holders.mp hd)]; exact Option.mem_toList.mp hp⟩
    · refine List.mem_append_left _ ?_
      split at hp
      · next h =>
        rw [if_pos h]
        exact hp
      · exact absurd hp List.not_mem_nil
  · by_cases h : ∃ d, holdsFrame (s.circuit d) f = true
    · obtain ⟨d, hd⟩ := h
      exact hdrops (hsingle d hd).2
    · obtain ⟨hkept, hlow, hhigh⟩ := hlost.orphans fun d hd => absurd ⟨d, mem_holders.mp hd⟩ h
      refine hdrops ?_
      rw [showsDrops, if_pos (by rw [hkept])]
      exact ⟨hlow, hhigh⟩
  · have hd' := hholds (mem_holders.mpr hd)
    refine (hother hd' 0 (by decide)).trans ?_
    rw [hothers d hd']
    refine hlost.state d ?_
    rw [hlost.circuit, if_pos (mem_holders.mpr hd)]
    exact lostWith_state_ne (holds_live hd)
  · exact lossShows_congr (hother (hholds (mem_holders.mpr hd))) (hlost.shows d (mem_holders.mpr hd))
  · have hd' := mem_holders.mpr hd
    refine ((hlost.told d hd' p hp).after hlost.raised hraised).told fun n => ?_
    obtain rfl | rfl := lossPair_circuit hp <;> exact entryBytes_circuit_congr (hothers d (hholds hd')) n _ _
  · have hone := holders_length hpairs (f := f)
    have htwo := lossPairs_length (s := s) (holders s f) .lostStale
    exact sameWindow_raises hlost.raised hlost.window hwindow (by omega) (by omega)

theorem selector_eq {x y : Selector} (hpointer : x.pointer = y.pointer) (hroll : x.rollOwed = y.rollOwed) (hflight : x.inFlight = y.inFlight) :
    x = y := by
  cases x
  cases y
  simp_all

theorem count_not_mem_answer {a : Nat} (ha : a = 0x1E ∨ a = 0x1F) (c : CircuitNo) (l : List CircuitNo) (u : State) :
    a ∉ [0x30, 0x31] ++ l.flatMap lossBytes ++ recordBytes c [0x00, 0x04, 0x08, 0x09, 0x0A, 0x0B, 0x0C] ++ raiseBytes u 2 := fun hin => by
  rw [List.append_assoc] at hin
  obtain hin | hin := List.mem_append.mp hin
  · obtain hin | hin := List.mem_append.mp hin
    · simp at hin
      omega
    · obtain ⟨d, -, hin⟩ := List.mem_flatMap.mp hin
      exact not_mem_recordBytes (by omega) hin
  · exact low_not_mem_record (by omega) c _ u 2 hin

/-- Settles O36: the answer first loses a stale circuit on its pair, then opens the circuit. -/
theorem answerOpensAndRefuseFrees : Obligations.AnswerOpensAndRefuseFrees := by
  refine ⟨fun s f hmem h hcount hcalling hpeer htag hpairs => ?_, fun s f => answer_stray, fun s f => refuse_frees⟩
  have htable := answer_accepted h hcount hcalling hpeer htag
  have htaken := acceptAnswer_taken (f := f) (heardFrom_wf hmem .answer f) hpairs hcalling
  generalize (heardFrom s .answer f).acceptAnswer f.dstCircuit f = v at *
  have hselector : v.selector = s.selector := by
    refine selector_eq htaken.only.pointer htaken.only.rollOwed ?_
    exact (htaken.flight (show s.selector.inFlight = none from hears_inFlight h)).trans (hears_inFlight h).symm
  obtain ⟨x, hexec, hblocks⟩ := frame_taken hmem h (by decide) htable htaken.only hselector htaken.window
    (count_not_mem_answer (.inl rfl) f.dstCircuit _ _) (count_not_mem_answer (.inr rfl) f.dstCircuit _ _)
  have htold {p : NoticePair} (hp : told (heardFrom s .answer f) v v p) : told s v v p := told_congr (u := heardFrom s .answer f) rfl hp
  refine ⟨_, hexec, hblocks, htaken.circuit.trans (answered_eq _ f), htaken.others, htaken.state, htaken.peerCircuit,
    fun d hd => ⟨htold (htaken.done d hd).1, (htaken.done d hd).2⟩, raisedOnly_congr (u := heardFrom s .answer f) rfl htaken.raised,
    htaken.orphans, ?_, fun d hd => ?_, ?_⟩
  · exact showsDrops_congr (u := heardFrom s .answer f) rfl (peek_heardFrom s .answer f (by decide) (by decide))
      (peek_heardFrom s .answer f (by decide) (by decide)) htaken.drops
  · obtain ⟨horphans, hstate, hshows, hpairs'⟩ := htaken.stale d hd
    exact ⟨horphans, hstate, hshows, fun p hp => htold (hpairs' p hp)⟩
  · refine sameWindow_mono (sameWindow_of_heardFrom htaken.window) fun a ha => ?_
    simp only [List.mem_append] at ha ⊢
    obtain h | ((h | h) | h) | h := ha
    · exact .inl (.inl (.inl (.inl h)))
    · exact .inl (.inl (.inl (.inr h)))
    · exact .inl (.inr h)
    · exact .inl (.inl (.inr h))
    · exact .inr h

end Sys2Proof.Proofs
end

section
namespace Sys2Proof.Proofs

open Sys2Proof Sys2Proof.Machine Sys2Proof.Claims Sys2Proof.Safety Sys2Proof.Laws

/-! ## Nothing owed (R56) -/

/-- What no circuit's turn changes, the turns of all circuits leave. -/
theorem eachCircuit_keeps {α : Type} (g : State → α) {f : CircuitNo → State → State} (h : ∀ c s, g (f c s) = g s) (s : State) :
    g (s.eachCircuit f) = g s := by
  rw [State.eachCircuit]
  generalize allCircuits = l
  induction l generalizing s with
  | nil => rfl
  | cons c rest ih => exact (ih (f c s)).trans (h c s)

theorem disowned_circuit (s : State) (c : CircuitNo) : (disowned s).circuit c = owedCleared (s.circuit c) := by
  have hcircuit := eachCircuit_circuit (fun c s => (s.clearAckPoll c).clearControl c) (fun _ k => owedCleared k)
    (fun c s => (clearAckPoll_only s c).trans (clearControl_only _ c))
    (fun c s => by rw [State.clearControl, circuit_updCircuit_same, circuit_forget, clearAckPoll_circuit]) s c
  rw [disowned, State.clearAllOwed]
  generalize s.eachCircuit (fun c s => (s.clearAckPoll c).clearControl c) = u at *
  exact hcircuit

/-- The first steps of the entries to MUTED and HALTED write nothing into the window and raise nothing. -/
theorem disowned_eq (s : State) : disowned s = { s with
    selector := { s.selector with rollOwed := false, inFlight := (disowned s).selector.inFlight }
    orphans.entries := []
    circuits := (disowned s).circuits } := by
  have honly := eachCircuit_only (fun c s => (s.clearAckPoll c).clearControl c)
    (fun c s => ((clearAckPoll_only s c).trans (clearControl_only _ c)).rest) s
  have hnotice := eachCircuit_keeps State.notice (f := fun c s => (s.clearAckPoll c).clearControl c) (fun c s => rfl) s
  have hwindow := eachCircuit_keeps State.window (f := fun c s => (s.clearAckPoll c).clearControl c) (fun c s => rfl) s
  have horphans := eachCircuit_keeps State.orphans (f := fun c s => (s.clearAckPoll c).clearControl c) (fun c s => rfl) s
  rw [disowned, State.clearAllOwed]
  generalize s.eachCircuit (fun c s => (s.clearAckPoll c).clearControl c) = u at *
  have heq := circuitsOnly_eq honly
  rw [hnotice, hwindow, horphans] at heq
  have hpointer := honly.pointer
  generalize u.circuits = x at *
  generalize u.selector = y at *
  subst heq
  dsimp only at hpointer ⊢
  rw [hpointer]

/-! ## Raises after silent changes -/

/-- A change that leaves the Notice Unit, its fields and the attention queue. -/
theorem Raised.after_silent {s u t : State} {offs : List Nat} {due : List NoticePair} (hnotice : u.notice = s.notice)
    (hsame : sameWindow s u offs) (hoffs : OffNotice offs) (h : Raised u t due) : Raised s t due :=
  (Raised.silent hnotice hsame hoffs).trans h

theorem sameWindow_of_window {s u : State} (h : u.window = s.window) : sameWindow s u [] := fun a _ _ => by
  rw [State.peek, h, State.peek]

/-- The entry to a state, as a step among others. -/
theorem enterState_raised {s : State} (hmem : MemoryLaw s) (st : StationState) :
    Raised s (s.enterState st) [.station .station] ∧
      ToldAs s (s.enterState st) (.station .station) fun n => entryBytes (s.enterState st) n (.station .station) := by
  have h := raiseOption_raised (s := s) (q := ({ s with station.state := st } : State).poke offStationState st.code) (offs := [0x03]) rfl
    (poke_wf _ _ _ hmem) (poke_sameWindow ({ s with station.state := st } : State) (by decide) _) (by simp [OffNotice]) (some (.station .station))
  exact ⟨h.1, h.2 _ rfl⟩

/-! ## Every circuit lost (R96) -/

/-- Losses between changes that leave the contexts and the records, and raise no pair of a circuit before them. -/
theorem lostAll_of_losses {s u w t : State} {before : CircuitNo → Circuit} {lost : CircuitNo → Bool} {cause : EndCause} {l : List CircuitNo}
    {due due' : List NoticePair} (h : LossesShown u w l cause) (hl : ∀ c, c ∈ l ↔ lost c = true) (hbefore : ∀ c, u.circuit c = before c)
    (hstates : ∀ c, (before c).state = (s.circuit c).state) (hfront : Raised s u due) (hdue : ∀ c cause, NoticePair.circuit c cause ∉ due)
    (hcircuits : ∀ c, t.circuit c = w.circuit c)
    (hrecords : ∀ c, ∀ off < 0x40, t.peek (recordBase c + off) = w.peek (recordBase c + off)) (htail : Raised w t due') :
    lostAll s t before lost cause := by
  intro c
  refine ⟨?_, fun hstate => ?_, fun hlost => ⟨?_, fun p hp => ?_⟩⟩
  · rw [hcircuits, h.circuit, hbefore]
    exact if_congr (hl c) rfl rfl
  · rw [hcircuits] at hstate ⊢
    exact (hrecords c 0 (by decide)).trans (h.state c (by rwa [hbefore, hstates]))
  · exact hbefore c ▸ lossShows_congr (hrecords c) (h.shows c ((hl c).mpr hlost))
  · rw [← hbefore] at hp
    refine (((h.told c ((hl c).mpr hlost) p hp).before hfront h.raised fun hin => ?_).after (hfront.trans h.raised) htail).told fun n => ?_
    · obtain rfl | rfl := lossPair_circuit hp <;> exact hdue _ _ hin
    · obtain rfl | rfl := lossPair_circuit hp <;> exact entryBytes_circuit_congr (hcircuits c) n _ _

/-- The pairs that losses raise are those that the statements name. -/
theorem flatMap_lossPair_subset {u : State} {before : CircuitNo → Circuit} {lost : CircuitNo → Bool} {cause : EndCause} {l : List CircuitNo}
    (hl : ∀ c, c ∈ l → lost c = true) (hbefore : ∀ c, lossPair (u.circuit c) c cause = lossPair (before c) c cause) :
    (l.flatMap fun c => (lossPair (u.circuit c) c cause).toList) ⊆ lossPairs before lost cause := fun p hp => by
  obtain ⟨c, hc, hp⟩ := List.mem_flatMap.mp hp
  refine List.mem_filterMap.mpr ⟨c, mem_allCircuits c, ?_⟩
  rw [if_pos (hl c hc), ← hbefore]
  exact Option.mem_toList.mp hp

/-! ## Entry to MUTED (R179) -/

/-- What follows the losses of an entry to MUTED. -/
def mutedFrom (w : State) : State := ({ w.setMutedSeen with
  station.muteTimer := some 0
  arbiter.collisions := 0
  roster.silence := 0 } : State).enterState .muted

theorem mutedFrom_shows {w : State} (hmem : MemoryLaw w) :
    Raised w (mutedFrom w) [.station .station] ∧
    ToldAs w (mutedFrom w) (.station .station) (fun n => entryBytes (mutedFrom w) n (.station .station)) ∧
    mutedFrom w = { w with
      station := { w.station with state := .muted, muteTimer := some 0 }
      arbiter.collisions := 0
      roster.silence := 0
      quality.mutedSeen := true
      notice := (mutedFrom w).notice
      window := (mutedFrom w).window } ∧
    (mutedFrom w).peek 0x03 = 4 ∧ (mutedFrom w).peek 0x1A = flagsByte (mutedFrom w).quality ∧ (mutedFrom w).peek 0x1B = 0 ∧
    sameWindow w (mutedFrom w) ([0x03, 0x1A, 0x1B] ++ raiseBytes w 1) := by
  obtain ⟨hlow, hhigh, hsticky⟩ := showSticky_shows (s := { w with quality.mutedSeen := true }) hmem
  have hwf : MemoryLaw w.setMutedSeen := pokeHalf_wf _ _ _ hmem
  have hsilent : Raised w w.setMutedSeen [] := .silent rfl hsticky (by simp)
  obtain ⟨m, hseen⟩ : ∃ m, w.setMutedSeen = { w with quality.mutedSeen := true, window := m } := ⟨_, rfl⟩
  have hlow' : w.setMutedSeen.peek 0x1A = flagsByte w.setMutedSeen.quality := hlow
  have hhigh' : w.setMutedSeen.peek 0x1B = 0 := hhigh
  have hsticky' : sameWindow w w.setMutedSeen [0x1A, 0x1B] := hsticky
  unfold mutedFrom
  generalize w.setMutedSeen = x at *
  have hquiet : Raised w ({ x with station.muteTimer := some 0, arbiter.collisions := 0, roster.silence := 0 } : State) [] :=
    .silent (by rw [hseen]) hsticky' (by simp)
  obtain ⟨hraised, htold⟩ := enterState_raised (s := { x with station.muteTimer := some 0, arbiter.collisions := 0, roster.silence := 0 }) hwf .muted
  obtain ⟨-, hstate, hwindow⟩ := enterState_shows (s := { x with station.muteTimer := some 0, arbiter.collisions := 0, roster.silence := 0 }) hwf .muted
  have heq := enterState_eq { x with station.muteTimer := some 0, arbiter.collisions := 0, roster.silence := 0 } .muted
  generalize State.enterState { x with station.muteTimer := some 0, arbiter.collisions := 0, roster.silence := 0 } .muted = t at *
  have hpeek {a : Nat} (ha : a = 0x1A ∨ a = 0x1B) : t.peek a = x.peek a := by
    refine hwindow _ (by omega) ?_
    simp only [List.mem_append, List.mem_cons, List.not_mem_nil, or_false, not_or]
    exact ⟨by omega, not_mem_raiseBytes (by omega) _ _⟩
  refine ⟨hquiet.trans hraised, htold.before hquiet hraised List.not_mem_nil, ?_, hstate, ?_, (hpeek (.inr rfl)).trans hhigh', ?_⟩
  · rw [hseen] at heq
    exact heq
  · have hquality : t.quality = x.quality := by rw [heq]
    rw [hquality]
    exact (hpeek (.inl rfl)).trans hlow'
  · have hboth : sameWindow w t ([0x1A, 0x1B] ++ ([0x03] ++ raiseBytes x 1)) := sameWindow_trans hsticky' hwindow
    have hbytes : raiseBytes x 1 = raiseBytes w 1 := by rw [hseen]; rfl
    rw [hbytes] at hboth
    refine sameWindow_mono hboth fun a ha => ?_
    simp only [List.mem_append, List.mem_cons, List.not_mem_nil, or_false] at ha ⊢
    tauto

theorem enterMutedState_eq_mutedFrom (s : State) : s.enterMutedState = mutedFrom (mutedCircuits s) := enterMutedState_eq s

theorem exec_enterMuted (s : State) : exec .enterMuted s =
    .next (if s.station.state = .active ∧ s.arbiter.collisions = 16 then s.enterMutedState else s) := rfl

theorem allCircuits_length : allCircuits.length = 16 := by decide

/-- Losses that move no CONFIRM leave the count of dropped orphans as it shows. -/
theorem sameWindow_of_drops {s t : State} {offs : List Nat} {n : Nat} (h : sameWindow s t ([0x30, 0x31] ++ offs ++ raiseBytes s n))
    (hlow : t.peek 0x30 = s.peek 0x30) (hhigh : t.peek 0x31 = s.peek 0x31) : sameWindow s t (offs ++ raiseBytes s n) := fun a ha hout => by
  by_cases h30 : a = 0x30
  · rw [h30, hlow]
  by_cases h31 : a = 0x31
  · rw [h31, hhigh]
  · exact h a ha (by simp only [List.append_assoc, List.mem_append, List.mem_cons, List.not_mem_nil, or_false] at hout ⊢; tauto)

/-- Settles O46: nothing is owed any more, then every circuit is lost in ascending order, and then the state is entered. -/
theorem mutingLosesEveryCircuit : Obligations.MutingLosesEveryCircuit := by
  intro s hmem
  refine ⟨_, exec_enterMuted s, ?_⟩
  split
  case isFalse => rfl
  case isTrue h =>
    have hwf : MemoryLaw (disowned { s with line.txEnable := false, line.txen := false }) :=
      (disowned_work (segment := True) { s with line.txEnable := false, line.txen := false }).memory hmem
    have hdisowned := disowned_eq { s with line.txEnable := false, line.txen := false }
    have howed := disowned_circuit { s with line.txEnable := false, line.txen := false }
    have hflight := disowned_flight { s with line.txEnable := false, line.txen := false }
    have hlost := losses_shown hwf .lostMuted allCircuits allCircuits_nodup
    rw [← loseAll_eq_losses] at hlost
    have hmuted : mutedCircuits s = (disowned { s with line.txEnable := false, line.txen := false }).loseAll .lostMuted := rfl
    rw [← hmuted] at hlost
    rw [enterMutedState_eq_mutedFrom]
    obtain ⟨hraised, htold, heq, hstate, hlow, hhigh, hwindow⟩ := mutedFrom_shows hlost.wf
    generalize mutedFrom (mutedCircuits s) = t at *
    generalize mutedCircuits s = w at *
    generalize disowned { s with line.txEnable := false, line.txen := false } = u at *
    have hnotice : u.notice = s.notice := by rw [hdisowned]
    have hsame : sameWindow s u [] := sameWindow_of_window (by rw [hdisowned])
    have hfront : Raised s u [] := .silent hnotice hsame (by simp)
    have hbefore (c : CircuitNo) : u.circuit c = owedCleared (s.circuit c) := howed c
    obtain ⟨horphans, hdrops, hdrops'⟩ := hlost.orphans fun c _ => .inl (by rw [hbefore]; simp)
    have hw : w = { s with
        line := { s.line with txEnable := false, txen := false }
        selector := { s.selector with rollOwed := false, inFlight := w.selector.inFlight }
        orphans.entries := []
        circuits := w.circuits
        notice := w.notice
        window := w.window } := by
      have h1 := circuitsOnly_eq hlost.only
      have hselector : w.selector = { s.selector with rollOwed := false, inFlight := w.selector.inFlight } :=
        selector_eq (hlost.only.pointer.trans (by rw [hdisowned])) (hlost.only.rollOwed.trans (by rw [hdisowned])) rfl
      rw [hselector, horphans] at h1
      conv_lhs => rw [h1, hdisowned]
    have hrecords (c : CircuitNo) (off : Nat) (hoff : off < 0x40) : t.peek (recordBase c + off) = w.peek (recordBase c + off) := by
      refine hwindow _ (record_lt c hoff) fun hin => ?_
      obtain hin | hin := List.mem_append.mp hin
      · have := recordBase_range c
        simp only [List.mem_cons, List.not_mem_nil, or_false] at hin
        omega
      · exact record_not_mem_raiseBytes c hoff w 1 hin
    have hcircuits : t.circuits = w.circuits := by rw [heq]
    have hselector : t.selector = w.selector := by rw [heq]
    refine ⟨?_, fun hnone => ?_, lostAll_of_losses hlost (fun c => by simp [mem_allCircuits]) hbefore (fun _ => rfl) hfront
      (fun _ _ => List.not_mem_nil) (fun c => ?_) hrecords hraised,
      (((hfront.trans hlost.raised).trans hraised).mono ?_).only, hstate, hlow, hhigh,
      (htold.before (hfront.trans hlost.raised) hraised fun hin => ?_).told fun n => rfl, ?_⟩
    · rw [hcircuits, hselector]
      conv_lhs => rw [heq, hw]
    · rw [hselector]
      exact hlost.flight (flight_eq_none.mp (hflight.trans (flight_eq_none.mpr hnone)))
    · rw [State.circuit, hcircuits, ← State.circuit]
    · exact List.append_subset.mpr ⟨fun p hp => List.mem_append_left _
        (flatMap_lossPair_subset (before := s.circuit) (fun _ _ => rfl) (fun c => by rw [hbefore]; rfl) hp), List.subset_append_right _ _⟩
    · obtain ⟨c, -, hp⟩ := List.mem_flatMap.mp hin
      obtain hp | hp := lossPair_circuit (Option.mem_toList.mp hp) <;> cases hp
    · have hlosses := sameWindow_of_drops hlost.window hdrops hdrops'
      have hlength := lossPairs_length (s := u) allCircuits .lostMuted
      have hall := sameWindow_raises (k := 17) hlost.raised hlosses hwindow (by rw [allCircuits_length] at hlength; omega) (by decide)
      rw [raiseBytes_congr (s := s) (by rw [hnotice])] at hall
      refine sameWindow_mono (sameWindow_trans hsame hall) fun a ha => ?_
      simp only [List.nil_append, List.mem_append] at ha ⊢
      tauto

end Sys2Proof.Proofs
end

section
namespace Sys2Proof.Proofs

open Sys2Proof Sys2Proof.Machine Sys2Proof.Claims Sys2Proof.Safety Sys2Proof.Laws

/-! ## The mirror of the roster (R25) -/

theorem extractLow (w : BitVec 32) : w.extractLsb' 0 16 = w.setWidth 16 := by
  apply BitVec.eq_of_toNat_eq
  simp [BitVec.extractLsb'_toNat]

theorem extractHigh (w : BitVec 32) : w.extractLsb' 16 16 = (w >>> 16).setWidth 16 := by
  apply BitVec.eq_of_toNat_eq
  simp [BitVec.extractLsb'_toNat]

/-- The mirror write shows its half of the present set and the change counter, advanced. -/
theorem writeMirror_shows {s : State} (hmem : MemoryLaw s) (a : Address) :
    mirrorShows (s.writeMirror a) a ∧ shows (s.writeMirror a) 0x18 (s.roster.changeCounter + 1) ∧
      sameWindow s (s.writeMirror a) (mirrorBytes a) ∧ MemoryLaw (s.writeMirror a) := by
  have hset : (s.writeMirror a).roster.presentSet = s.roster.presentSet := by
    rw [writeMirror_frame]
    rfl
  unfold mirrorShows mirrorBytes
  rw [hset]
  unfold State.writeMirror
  by_cases ha : a.toNat < 16
  · simp only [if_pos ha]
    obtain ⟨hhalf, hwindow, hwf⟩ := pokeHalf_shows hmem (a := offPresentLow) (by decide) (s.roster.presentSet.extractLsb' 0 16)
    rw [extractLow] at *
    generalize s.pokeHalf offPresentLow (s.roster.presentSet.setWidth 16) = u at *
    obtain ⟨hcounter, hwindow', hwf'⟩ := pokeHalf_shows (s := { u with roster.changeCounter := s.roster.changeCounter + 1 }) hwf
      (a := offChangeCounter) (by decide) (s.roster.changeCounter + 1)
    exact ⟨⟨(hwindow' _ (by decide) (by decide)).trans hhalf.1, (hwindow' _ (by decide) (by decide)).trans hhalf.2⟩, hcounter,
      sameWindow_trans hwindow hwindow', hwf'⟩
  · simp only [if_neg ha]
    obtain ⟨hhalf, hwindow, hwf⟩ := pokeHalf_shows hmem (a := offPresentHigh) (by decide) (s.roster.presentSet.extractLsb' 16 16)
    rw [extractHigh] at *
    generalize s.pokeHalf offPresentHigh ((s.roster.presentSet >>> 16).setWidth 16) = u at *
    obtain ⟨hcounter, hwindow', hwf'⟩ := pokeHalf_shows (s := { u with roster.changeCounter := s.roster.changeCounter + 1 }) hwf
      (a := offChangeCounter) (by decide) (s.roster.changeCounter + 1)
    exact ⟨⟨(hwindow' _ (by decide) (by decide)).trans hhalf.1, (hwindow' _ (by decide) (by decide)).trans hhalf.2⟩, hcounter,
      sameWindow_trans hwindow hwindow', hwf'⟩

theorem mirrorBytes_range {a : Address} {x : Nat} (h : x ∈ mirrorBytes a) : 0x14 ≤ x ∧ x ≤ 0x19 := by
  unfold mirrorBytes at h
  split at h <;> simp at h <;> omega

/-- An entry of the roster is written, with the mirror and the counter, and ROSTER is raised (R25). -/
def entryWritten (s : State) (a : Address) (e : RosterEntry) : State :=
  (({ s with roster := s.roster.setEntry a e } : State).writeMirror a).raise (.station .roster)

/-- An entry of the roster changes, with the mirror and the counter written and ROSTER raised, and full-next set (R22, R24). -/
def rosterEdited (s : State) (a : Address) (e : RosterEntry) : State := entryWritten s.setFullNext a e

/-- The roster with an entry changed and the change counter advanced. -/
def editedRoster (r : Roster) (a : Address) (e : RosterEntry) : Roster := { r.setEntry a e with changeCounter := r.changeCounter + 1 }

theorem setEntry_changeCounter (r : Roster) (a : Address) (e : RosterEntry) :
    (r.setEntry a e).changeCounter = r.changeCounter ∧ (r.setEntry a e).silence = r.silence := by
  unfold Roster.setEntry
  split <;> exact ⟨rfl, rfl⟩

theorem entryWritten_eq (s : State) (a : Address) (e : RosterEntry) : entryWritten s a e = { s with
    roster := editedRoster s.roster a e
    notice := (entryWritten s a e).notice
    window := (entryWritten s a e).window } := by
  have h := (raise_only (({ s with roster := s.roster.setEntry a e } : State).writeMirror a) (.station .roster)).eq
  have h2 := writeMirror_frame { s with roster := s.roster.setEntry a e } a
  obtain ⟨hcounter, -⟩ := setEntry_changeCounter s.roster a e
  rw [← entryWritten] at h
  generalize entryWritten s a e = t at *
  generalize ({ s with roster := s.roster.setEntry a e } : State).writeMirror a = u at *
  rw [h2] at h
  rw [editedRoster, ← hcounter]
  exact h

/-- What a written entry shows, with ROSTER. -/
theorem entryWritten_shows {s : State} (hmem : MemoryLaw s) (a : Address) (e : RosterEntry) :
    mirrorShows (entryWritten s a e) a ∧ shows (entryWritten s a e) 0x18 (s.roster.changeCounter + 1) ∧
    sameWindow s (entryWritten s a e) (mirrorBytes a ++ raiseBytes s 1) ∧ MemoryLaw (entryWritten s a e) ∧
    raisedIn s (entryWritten s a e) (.station .roster) ∧
    Raised s (entryWritten s a e) [.station .roster] ∧
    ToldAs s (entryWritten s a e) (.station .roster) (fun n => entryBytes (entryWritten s a e) n (.station .roster)) := by
  obtain ⟨hcounter, -⟩ := setEntry_changeCounter s.roster a e
  obtain ⟨hmirror, hchange, hwindow, hwf⟩ := writeMirror_shows (s := { s with roster := s.roster.setEntry a e }) hmem a
  have hnotice : (({ s with roster := s.roster.setEntry a e } : State).writeMirror a).notice = s.notice := by
    rw [writeMirror_frame]
  have hoffs : OffNotice (mirrorBytes a) := fun x hx => by
    have := mirrorBytes_range hx
    omega
  unfold entryWritten
  generalize ({ s with roster := s.roster.setEntry a e } : State).writeMirror a = u at *
  have hwindow' : sameWindow s u (mirrorBytes a) := hwindow
  have hchange' : shows u 0x18 (s.roster.changeCounter + 1) := hcounter ▸ hchange
  obtain ⟨hraised, htold⟩ := raiseOption_raised hnotice hwf hwindow' hoffs (some (.station .roster))
  obtain ⟨hin, hall⟩ := raise_after hnotice hwf hwindow' (.station .roster)
  have hkept {x : Nat} (hx : 0x12 < x ∧ x < 0x0600) : (u.raise (.station .roster)).peek x = u.peek x :=
    raise_sameWindow u (.station .roster) x (by omega) (not_mem_raiseBytes (by omega) _ _)
  refine ⟨?_, ⟨(hkept (by decide)).trans hchange'.1, (hkept (by decide)).trans hchange'.2⟩, hall, raiseWith_wf u _ _ hwf, hin, hraised, htold _ rfl⟩
  have hroster : (u.raise (.station .roster)).roster = u.roster := (raise_only u _).roster
  unfold mirrorShows at hmirror ⊢
  rw [hroster]
  split at hmirror
  · next h => rw [if_pos h]; exact ⟨(hkept (by decide)).trans hmirror.1, (hkept (by decide)).trans hmirror.2⟩
  · next h => rw [if_neg h]; exact ⟨(hkept (by decide)).trans hmirror.1, (hkept (by decide)).trans hmirror.2⟩

theorem rosterEdited_eq (s : State) (a : Address) (e : RosterEntry) : rosterEdited s a e = { s with
    arbiter.fullNext := true
    roster := editedRoster s.roster a e
    notice := (rosterEdited s a e).notice
    window := (rosterEdited s a e).window } := entryWritten_eq s.setFullNext a e

/-- What a changed entry shows, with ROSTER. -/
theorem rosterEdited_shows {s : State} (hmem : MemoryLaw s) (a : Address) (e : RosterEntry) :
    mirrorShows (rosterEdited s a e) a ∧ shows (rosterEdited s a e) 0x18 (s.roster.changeCounter + 1) ∧
    sameWindow s (rosterEdited s a e) (mirrorBytes a ++ raiseBytes s 1) ∧ MemoryLaw (rosterEdited s a e) ∧
    raisedIn s (rosterEdited s a e) (.station .roster) ∧
    Raised s (rosterEdited s a e) [.station .roster] ∧
    ToldAs s (rosterEdited s a e) (.station .roster) (fun n => entryBytes (rosterEdited s a e) n (.station .roster)) := by
  obtain ⟨hmirror, hchange, hwindow, hwf, hin, hraised, htold⟩ := entryWritten_shows (s := s.setFullNext) hmem a e
  have hfront : Raised s s.setFullNext [] := .silent (offs := []) rfl (sameWindow_of_window rfl) (by simp)
  exact ⟨hmirror, hchange, hwindow, hwf, hin, hfront.trans hraised, htold.before hfront hraised List.not_mem_nil⟩

theorem entry_editedRoster {r : Roster} {a : Address} (ha : a ≠ 31) (e : RosterEntry) {b : Nat} (hb : b < 31) :
    (editedRoster r a e).entry b = if b = a.toNat then e else r.entry b := entry_setEntry ha e hb

theorem mirrorShows_congr {u t : State} {a : Address} (hset : t.roster = u.roster)
    (hpeek : ∀ x, 0x14 ≤ x → x ≤ 0x19 → t.peek x = u.peek x) (h : mirrorShows u a) : mirrorShows t a := by
  unfold mirrorShows at h ⊢
  rw [hset]
  split at h
  · next ha => rw [if_pos ha]; exact ⟨(hpeek _ (by decide) (by decide)).trans h.1, (hpeek _ (by decide) (by decide)).trans h.2⟩
  · next ha => rw [if_neg ha]; exact ⟨(hpeek _ (by decide) (by decide)).trans h.1, (hpeek _ (by decide) (by decide)).trans h.2⟩

/-! ## A peer ages out (R24, R93) -/

theorem exec_peerAgedOut (s : State) (a : Address) : exec (.peerAgedOut a) s = .next (
    if s.station.state.receives = true ∧ a ≠ s.station.address ∧ s.roster.isPresent a = true ∧ 262144 ≤ (s.roster.entry a.toNat).age then
      s.removePeer a else s) := by
  refine congrArg Host.Outcome.next (if_congr ?_ rfl rfl)
  simp only [State.agedOut, Bool.and_eq_true, bne_iff_ne, and_assoc, decide_eq_true_eq, ne_eq]
  exact Iff.rfl

theorem ne_31_of_present {r : Roster} {a : Address} (h : r.isPresent a = true) : a ≠ 31 := by
  rintro rfl
  rw [Roster.isPresent, Roster.entry, dif_neg (by decide)] at h
  exact absurd h (by decide)

/-- The entry of a station's pair tells of blocks that no circuit's change touches. -/
theorem entryBytes_station_congr {u t : State} (h : CircuitsOnly u t) (n : Byte) (cause : StationCause) :
    entryBytes t n (.station cause) = entryBytes u n (.station cause) := by
  simp only [entryBytes, h.roster, h.quality, h.station, h.requests]

/-- Settles O47: the entry, the mirror and ROSTER first, then the losses of the circuits that name the peer. -/
theorem agedOutPeerIsRemovedWithItsCircuits : Obligations.AgedOutPeerIsRemovedWithItsCircuits := by
  intro s a hmem
  refine ⟨_, exec_peerAgedOut s a, ?_⟩
  split
  case isFalse => rfl
  case isTrue h =>
    obtain ⟨-, -, hpresent, -⟩ := h
    have ha := ne_31_of_present hpresent
    have hremove : s.removePeer a = (rosterEdited s a RosterEntry.absent).loseAbsent a := removePeer_eq s a
    have hedited := rosterEdited_eq s a RosterEntry.absent
    obtain ⟨hmirror, hchange, hwindow, hwf, -, hraised, htold⟩ := rosterEdited_shows hmem a RosterEntry.absent
    rw [loseAbsent_eq_losses] at hremove
    rw [hremove]
    generalize rosterEdited s a RosterEntry.absent = u at *
    have hcircuit (c : CircuitNo) : u.circuit c = s.circuit c := by rw [hedited]; rfl
    have hlost := losses_shown hwf .lostAbsent (allCircuits.filter fun c => (u.circuit c).peer = a) (allCircuits_nodup.filter _)
    have hlength := List.length_filter_le (fun c => decide ((u.circuit c).peer = a)) allCircuits
    have hin (c : CircuitNo) : c ∈ (allCircuits.filter fun c => (u.circuit c).peer = a) ↔ decide ((s.circuit c).peer = a) = true := by
      rw [List.mem_filter, hcircuit]
      simp [mem_allCircuits]
    generalize (allCircuits.filter fun c => (u.circuit c).peer = a) = l at *
    generalize losses .lostAbsent l u = t at *
    have heq := circuitsOnly_eq hlost.only
    have hselector : t.selector = { s.selector with inFlight := t.selector.inFlight } :=
      selector_eq (hlost.only.pointer.trans (by rw [hedited])) (hlost.only.rollOwed.trans (by rw [hedited])) rfl
    have hroster : t.roster = editedRoster s.roster a RosterEntry.absent := hlost.only.roster.trans (by rw [hedited])
    have hkept (x : Nat) (hlow : 0x14 ≤ x) (hhigh : x ≤ 0x19) : t.peek x = u.peek x := by
      refine hlost.window x (by omega) fun hx => ?_
      simp only [List.append_assoc, List.mem_append, List.mem_cons, List.not_mem_nil, or_false, List.mem_flatMap] at hx
      obtain hx | ⟨c, -, hx⟩ | hx := hx
      · omega
      · exact not_mem_recordBytes (by omega) hx
      · exact not_mem_raiseBytes (by omega) _ _ hx
    refine ⟨?_, fun hnone => hlost.flight (by rw [hedited]; exact hnone), ?_, ⟨?_, fun b hb => ?_, ?_⟩, ?_, ?_, ?_, ?_, ?_, fun hconfirm => ?_, ?_⟩
    · rw [← hselector, hroster]
      conv_lhs => rw [heq, hedited]
    · rw [hroster]
      exact (setEntry_changeCounter ..).2
    · rw [hroster]
      rfl
    · rw [hroster]
      exact entry_editedRoster ha _ hb
    · exact ⟨(hkept _ (by decide) (by decide)).trans hchange.1, (hkept _ (by decide) (by decide)).trans hchange.2⟩
    · exact mirrorShows_congr hlost.only.roster hkept hmirror
    · exact presentSet_isPresentSet t.roster
    · exact (htold.after hraised hlost.raised).told fun n => entryBytes_station_congr hlost.only n .roster
    · exact lostAll_of_losses hlost hin hcircuit (fun _ => rfl) hraised (fun c cause h => by simp at h) (fun _ => rfl) (fun _ _ _ => rfl)
        (.silent (offs := []) rfl (fun _ _ _ => rfl) (by simp))
    · refine ((hraised.trans hlost.raised).mono (List.cons_subset_cons _ ?_)).only
      exact flatMap_lossPair_subset (before := s.circuit) (fun c hc => (hin c).mp hc) fun c => by rw [hcircuit]
    · exact (hlost.orphans fun c _ => by rw [hcircuit]; exact hconfirm c).1.trans (by rw [hedited])
    · have hall := sameWindow_raises (k := 17) hraised hwindow hlost.window (by rw [allCircuits_length] at hlength; simp; omega) (by decide)
      refine sameWindow_mono hall fun x hx => ?_
      simp only [List.mem_append, List.mem_flatMap] at hx ⊢
      obtain (hx | hx | ⟨c, -, hx⟩) | hx := hx
      · exact .inl (.inl (.inl hx))
      · exact .inl (.inl (.inr hx))
      · exact .inl (.inr ⟨c, mem_allCircuits c, hx⟩)
      · exact .inr hx

end Sys2Proof.Proofs
end

section
namespace Sys2Proof.Proofs

open Sys2Proof Sys2Proof.Machine Sys2Proof.Claims Sys2Proof.Safety Sys2Proof.Laws

/-! ## A peer added before or after the count of its frame (R22) -/

/-- The line, the quality counters and one counter field of the window are changed: what the count of a frame does. -/
def counted (s : State) (l : Line) (q : Quality) (off : Nat) (v : Half) : State := ({ s with line := l, quality := q } : State).pokeHalf off v

theorem Beside.writeMirror {offs : List Nat} {u v : State} (h : Beside offs u v) (hroster : v.roster = u.roster) (a : Address) :
    Beside offs (u.writeMirror a) (v.writeMirror a) ∧ (v.writeMirror a).roster = (u.writeMirror a).roster := by
  refine ⟨?_, by rw [writeMirror_frame v, writeMirror_frame u, hroster]⟩
  have hcounter {x y : State} (hxy : Beside offs x y) (n : Half) :
      Beside offs ({ x with roster.changeCounter := n } : State) ({ y with roster.changeCounter := n } : State) :=
    ⟨hxy.station, hxy.selector, hxy.orphans, hxy.circuits, hxy.notice, hxy.left, hxy.right, hxy.window⟩
  rw [State.writeMirror, State.writeMirror, hroster]
  by_cases ha : a.toNat < 16
  · simp only [if_pos ha]
    exact (hcounter (h.pokeHalf _ _) _).pokeHalf _ _
  · simp only [if_neg ha]
    exact (hcounter (h.pokeHalf _ _) _).pokeHalf _ _

theorem snapshotOf_station_congr {u v : State} (hroster : v.roster = u.roster) (hstation : v.station = u.station) :
    v.snapshotOf (.station .roster) = u.snapshotOf (.station .roster) ∧ v.detailOf (.station .roster) = u.detailOf (.station .roster) := by
  simp only [State.snapshotOf, State.detailOf, hroster, hstation, and_self]

theorem Beside.rosterEdited {offs : List Nat} {u v : State} (h : Beside offs u v) (hroster : v.roster = u.roster) (a : Address)
    (e : RosterEntry) : Beside offs (rosterEdited u a e) (rosterEdited v a e) := by
  have hset : Beside offs ({ u.setFullNext with roster := u.roster.setEntry a e } : State)
      ({ v.setFullNext with roster := v.roster.setEntry a e } : State) :=
    ⟨h.station, h.selector, h.orphans, h.circuits, h.notice, h.left, h.right, h.window⟩
  obtain ⟨hmirror, hsame⟩ := hset.writeMirror (by rw [hroster]) a
  unfold Proofs.rosterEdited entryWritten
  rw [show u.setFullNext.roster = u.roster from rfl, show v.setFullNext.roster = v.roster from rfl]
  generalize ({ u.setFullNext with roster := u.roster.setEntry a e } : State).writeMirror a = x at *
  generalize ({ v.setFullNext with roster := v.roster.setEntry a e } : State).writeMirror a = y at *
  obtain ⟨hsnapshot, hdetail⟩ := snapshotOf_station_congr hsame hmirror.station
  rw [State.raise, State.raise, hdetail]
  exact hmirror.raiseWith hsnapshot _

theorem editedRoster_setEntry (r : Roster) (a : Address) (e : RosterEntry) : (editedRoster r a e).setEntry a e = editedRoster r a e := by
  unfold editedRoster Roster.setEntry
  split
  · simp
  · rfl

theorem addPeer_eq_rosterEdited (s : State) (a : Address) : s.addPeer a = rosterEdited s a ⟨true, 0⟩ := rfl

/-- A peer is added after its frame is counted as it is before, and then only refreshed. -/
theorem counted_addPeer {s : State} (hmem : MemoryLaw s) (l : Line) (q : Quality) {off : Nat} (hlow : 0x19 < off) (hhigh : off + 1 < 0x100)
    (v : Half) (a : Address) : (counted s l q off v).addPeer a = (counted (s.addPeer a) l q off v).refreshPeer a := by
  have hwf : MemoryLaw (counted s l q off v) := pokeHalf_wf _ _ _ hmem
  obtain ⟨hfield, hwindow, -⟩ := pokeHalf_shows (s := { s with line := l, quality := q }) hmem (a := off) (by omega) v
  have hbeside : Beside [off, off + 1] s (counted s l q off v) := ⟨rfl, rfl, rfl, rfl, rfl, hmem, hwf, hwindow⟩
  have hadded := hbeside.rosterEdited rfl a ⟨true, 0⟩
  have hright := rosterEdited_eq s a ⟨true, 0⟩
  have hleft := rosterEdited_eq (counted s l q off v) a ⟨true, 0⟩
  obtain ⟨-, -, hbytes, hwf', -⟩ := rosterEdited_shows hwf a ⟨true, 0⟩
  rw [addPeer_eq_rosterEdited, addPeer_eq_rosterEdited]
  have hnotice := hadded.notice
  have hsame := hadded.window
  have hmem' := hadded.left
  generalize rosterEdited s a ⟨true, 0⟩ = y at *
  generalize rosterEdited (counted s l q off v) a ⟨true, 0⟩ = x at *
  obtain ⟨hfield', hwindow', hwf''⟩ := pokeHalf_shows (s := { y with line := l, quality := q }) hmem' (a := off) (by omega) v
  have hcounted : counted y l q off v = { y with line := l, quality := q, window := (counted y l q off v).window } := rfl
  have hx : x.window = (counted y l q off v).window := by
    refine window_eq_of_peek hwf'' hwf' fun b hb => ?_
    by_cases hin : b = off ∨ b = off + 1
    · have hb' : x.peek b = (counted s l q off v).peek b := by
        refine hbytes b hb fun hin' => ?_
        obtain hin' | hin' := List.mem_append.mp hin'
        · have := mirrorBytes_range hin'
          omega
        · exact not_mem_raiseBytes (by omega) _ _ hin'
      obtain rfl | rfl := hin
      · exact hb'.trans (hfield.1.trans hfield'.1.symm)
      · exact hb'.trans (hfield.2.trans hfield'.2.symm)
    · have hout : b ∉ [off, off + 1] := by simpa using hin
      exact (hsame b hb hout).trans (hwindow' b hb hout).symm
  rw [hcounted, State.refreshPeer]
  rw [hleft, hx, hnotice]
  generalize (counted y l q off v).window = m at *
  rw [hright]
  dsimp only
  rw [editedRoster_setEntry]
  rfl

theorem rosterSource_of_absent {s : State} {a : Address} (h31 : a ≠ 31) (hown : a ≠ s.station.address)
    (habsent : s.roster.isPresent a = false) : s.rosterSource a = s.addPeer a := by
  rw [State.rosterSource, if_neg (not_or.mpr ⟨h31, hown⟩), if_neg (by rw [habsent]; decide)]

/-- A good frame of an absent peer: the peer is added where one that is present is refreshed (R22). -/
theorem exec_frameRow_absent {s : State} {k : Kind} {f : Frame} (h : hearsFrom k f s) (habsent : s.roster.isPresent f.src = false) :
    exec (frameRow k f) s = .next (((examined
      ((({ s with line := heardLine s.line (frameBytes k f) } : State).countGood).addPeer f.src) k f).tableFrame k f).frameEnd (some f.src)) := by
  obtain ⟨-, hline, -, -, hrules, hown⟩ := h
  have hheard : s.hear false (frameBytes k f) = ({ s with line := heardLine s.line (frameBytes k f) } : State).goodEnd k f := by
    rw [State.hear, if_pos hline, classify_frameBytes hrules]
    rfl
  have hdup : ({ s with line := heardLine s.line (frameBytes k f) } : State).countGood.duplicate f.src = false := duplicate_of_ne hown
  have hroster : ({ s with line := heardLine s.line (frameBytes k f) } : State).countGood.rosterSource f.src =
      (({ s with line := heardLine s.line (frameBytes k f) } : State).countGood).addPeer f.src := by
    exact rosterSource_of_absent (src_ne_31 hrules) hown habsent
  rw [exec_frameRow_hear, hheard, State.goodEnd]
  simp only [hdup, hroster, Bool.false_eq_true, if_false]
  rfl

theorem isPresent_addPeer {s : State} {a : Address} (ha : a ≠ 31) : (s.addPeer a).roster.isPresent a = true := by
  rw [addPeer_eq_rosterEdited, rosterEdited_eq, Roster.isPresent, entry_editedRoster ha _ (toNat_lt_31 ha), if_pos rfl]

theorem addPeer_fields (s : State) (a : Address) : (s.addPeer a).station = s.station ∧ (s.addPeer a).line = s.line ∧
    (s.addPeer a).arbiter.state = s.arbiter.state ∧ (s.addPeer a).selector = s.selector ∧ (s.addPeer a).quality = s.quality := by
  rw [addPeer_eq_rosterEdited, rosterEdited_eq]
  exact ⟨rfl, rfl, rfl, rfl, rfl⟩

/-- A good frame of an absent peer does what it does once the peer is added. -/
theorem newPeer_good {s : State} {k : Kind} {f : Frame} (hmem : MemoryLaw s) (h : hearsFrom k f s) (habsent : s.roster.isPresent f.src = false) :
    exec (frameRow k f) s = exec (frameRow k f) (s.addPeer f.src) := by
  obtain ⟨hstation, hline, harbiter, hselector, hquality⟩ := addPeer_fields s f.src
  have hleft := exec_frameRow_absent h habsent
  obtain ⟨hreceives, hhearing, hbusy, hflight, hrules, hown⟩ := h
  have hpresent := isPresent_addPeer (s := s) (src_ne_31 hrules)
  have hfrom : hearsFrom k f (s.addPeer f.src) := ⟨by rw [hstation]; exact hreceives, by rw [hline]; exact hhearing,
    by rw [harbiter]; exact hbusy, by rw [hselector]; exact hflight, hrules, by rw [hstation]; exact hown⟩
  have hcounted := counted_addPeer hmem (heardLine s.line (frameBytes k f)) { s.quality with goodHeard := s.quality.goodHeard + 1 }
    (off := offGoodHeard) (by decide) (by decide) (s.quality.goodHeard + 1) f.src
  have hadded : heardFrom (s.addPeer f.src) k f = (({ s with line := heardLine s.line (frameBytes k f) } : State).countGood).addPeer f.src := by
    refine Eq.trans ?_ hcounted.symm
    rw [heardFrom, State.countGood, counted]
    dsimp only
    rw [hline, hquality]
  rw [hleft, exec_frameRow_from hfrom hpresent, hadded]

/-- A malformed frame from an absent peer likewise. -/
theorem newPeer_malformed {s : State} {bytes : List Byte} (hmem : MemoryLaw s) (hbad : isMalformed bytes) (hhearing : s.line.state = .hearing)
    (h31 : sourceField bytes ≠ 31) (hown : sourceField bytes ≠ s.station.address) (habsent : s.roster.isPresent (sourceField bytes) = false) :
    exec (.malformedFrame bytes) s = exec (.malformedFrame bytes) (s.addPeer (sourceField bytes)) := by
  obtain ⟨hstation, hline, -, -, hquality⟩ := addPeer_fields s (sourceField bytes)
  have hpresent := isPresent_addPeer (s := s) h31
  have hcounted := counted_addPeer hmem (heardLine s.line bytes) { s.quality with malformed := s.quality.malformed + 1 }
    (off := offMalformed) (by decide) (by decide) (s.quality.malformed + 1) (sourceField bytes)
  have hleft : s.hear false bytes = ((({ s with line := heardLine s.line bytes } : State).countMalformed).addPeer (sourceField bytes)).frameEnd
      (some (sourceField bytes)) := by
    have hdup : ({ s with line := heardLine s.line bytes } : State).countMalformed.duplicate (sourceField bytes) = false := duplicate_of_ne hown
    have hroster : ({ s with line := heardLine s.line bytes } : State).countMalformed.rosterSource (sourceField bytes) =
        (({ s with line := heardLine s.line bytes } : State).countMalformed).addPeer (sourceField bytes) := by
      exact rosterSource_of_absent h31 hown habsent
    rw [hear_malformed hhearing hbad, State.malformedEnd]
    simp only [hdup, hroster, Bool.false_eq_true, if_false]
  have hright : (s.addPeer (sourceField bytes)).hear false bytes =
      ((counted (s.addPeer (sourceField bytes)) (heardLine s.line bytes) { s.quality with malformed := s.quality.malformed + 1 } offMalformed
        (s.quality.malformed + 1)).refreshPeer (sourceField bytes)).frameEnd (some (sourceField bytes)) := by
    rw [hear_malformed (by rw [hline]; exact hhearing) hbad, State.malformedEnd]
    generalize s.addPeer (sourceField bytes) = u at *
    have hown' : sourceField bytes ≠ u.station.address := by rw [hstation]; exact hown
    have hdup : ({ u with line := heardLine u.line bytes } : State).countMalformed.duplicate (sourceField bytes) = false := duplicate_of_ne hown'
    have hroster : ({ u with line := heardLine u.line bytes } : State).countMalformed.rosterSource (sourceField bytes) =
        (({ u with line := heardLine u.line bytes } : State).countMalformed).refreshPeer (sourceField bytes) :=
      rosterSource_of_present h31 hown' hpresent
    simp only [hdup, hroster, Bool.false_eq_true, if_false]
    rw [State.countMalformed, counted]
    dsimp only
    rw [hline, hquality]
  calc exec (.malformedFrame bytes) s = .next (s.hear false bytes) := rfl
    _ = .next ((s.addPeer (sourceField bytes)).hear false bytes) := by
      rw [hleft, hright, ← hcounted]
      rfl
    _ = exec (.malformedFrame bytes) (s.addPeer (sourceField bytes)) := rfl

/-- Settles O27: the count of the frame and the adding of its peer change places, and a peer just added is as one just refreshed. -/
theorem newPeerIsAddedFirst : Obligations.NewPeerIsAddedFirst := by
  refine ⟨fun s a hmem ha => ?_, fun s k f hmem h habsent => newPeer_good hmem h habsent,
    fun s bytes hmem hbad hline h31 hown habsent => newPeer_malformed hmem hbad hline h31 hown habsent⟩
  have hedited := rosterEdited_eq s a ⟨true, 0⟩
  obtain ⟨hmirror, hchange, hwindow, -, hraised, -, -⟩ := rosterEdited_shows hmem a ⟨true, 0⟩
  rw [addPeer_eq_rosterEdited]
  generalize rosterEdited s a ⟨true, 0⟩ = t at *
  have hroster : t.roster = editedRoster s.roster a ⟨true, 0⟩ := by rw [hedited]
  refine ⟨by rw [hroster]; exact hedited, by rw [hroster]; exact (setEntry_changeCounter ..).2, ⟨by rw [hroster]; rfl, fun b hb => ?_, hchange⟩,
    hmirror, presentSet_isPresentSet _, hraised, hwindow⟩
  rw [hroster]
  exact entry_editedRoster ha _ hb

end Sys2Proof.Proofs
end

section
namespace Sys2Proof.Proofs

open Sys2Proof Sys2Proof.Machine Sys2Proof.Claims Sys2Proof.Safety Sys2Proof.Laws

theorem raiseWith_sameWindow (s : State) (p : NoticePair) (detail : Byte) : sameWindow s (s.raiseWith p detail) (raiseBytes s 1) := by
  intro a ha hout
  simp only [mem_raiseBytes, Nat.lt_one_iff, exists_eq_left, not_and, not_or, ne_eq, one_ne_zero, not_false_eq_true, true_and] at hout
  obtain ⟨hfields, hslot⟩ := hout
  obtain ⟨-, h⟩ | ⟨-, -, -, h⟩ | ⟨-, -, -, h⟩ | ⟨-, -, h⟩ := raiseWith_cases s p detail <;> rw [h]
  · exact showWaiting_sameWindow _ a ha (by simp only [List.mem_cons, List.not_mem_nil, or_false]; omega)
  · exact peek_writeEntry_other s p detail ha (by omega) (by omega) (by omega)

/-! ## Steps of the Transfer Engine on one circuit -/

/-- A step on circuit `c` with no frame in flight: the bytes it can write beside those of the pairs it raises, and these pairs. -/
structure Moves (c : CircuitNo) (s t : State) (offs : List Nat) (due : List NoticePair) : Prop where
  only : CircuitOnly c s t
  orphans : t.orphans = s.orphans
  flight : s.selector.inFlight = none → t.selector = s.selector
  wf : MemoryLaw t
  raised : Raised s t due
  window : sameWindow s t (offs ++ raiseBytes s due.length)

theorem Moves.refl {s : State} (hmem : MemoryLaw s) (c : CircuitNo) : Moves c s s [] [] :=
  ⟨.refl c s, rfl, fun _ => rfl, hmem, .silent (offs := []) rfl (fun _ _ _ => rfl) (by simp), fun _ _ _ => rfl⟩

theorem Moves.trans {c : CircuitNo} {s t u : State} {offs offs' : List Nat} {due due' : List NoticePair} (h : Moves c s t offs due)
    (g : Moves c t u offs' due') : Moves c s u (offs ++ offs') (due ++ due') where
  only := h.only.trans g.only
  orphans := g.orphans.trans h.orphans
  flight hnone := (g.flight (by rw [h.flight hnone]; exact hnone)).trans (h.flight hnone)
  wf := g.wf
  raised := h.raised.trans g.raised
  window := sameWindow_raises h.raised h.window g.window (by rw [List.length_append]) (by rw [List.length_append]; omega)

/-- A step that raises nothing. -/
theorem Moves.quiet {c : CircuitNo} {s t : State} {offs : List Nat} (honly : CircuitOnly c s t) (horphans : t.orphans = s.orphans)
    (hselector : s.selector.inFlight = none → t.selector = s.selector) (hnotice : t.notice = s.notice) (hwf : MemoryLaw t)
    (hwindow : sameWindow s t offs) (hoffs : OffNotice offs) : Moves c s t offs [] :=
  ⟨honly, horphans, hselector, hwf, .silent hnotice hwindow hoffs, sameWindow_mono hwindow (List.subset_append_left _ _)⟩

theorem Moves.raise {s : State} (hmem : MemoryLaw s) (c : CircuitNo) (p : NoticePair) (detail : Byte) :
    Moves c s (s.raiseWith p detail) [] [p] where
  only := (raiseWith_only s p detail).circuitOnly c
  orphans := (raiseWith_only s p detail).orphans
  flight _ := (raiseWith_only s p detail).selector
  wf := raiseWith_wf s p detail hmem
  raised := .of_raiseWith hmem p detail
  window := raiseWith_sameWindow s p detail

theorem Moves.updCircuit {s : State} (hmem : MemoryLaw s) (c : CircuitNo) (f : Circuit → Circuit) : Moves c s (s.updCircuit c f) [] [] :=
  .quiet (updCircuit_only s c f) rfl (fun _ => rfl) rfl hmem (fun _ _ _ => rfl) (by simp [OffNotice])

theorem Moves.pokeRecord {s : State} (hmem : MemoryLaw s) (c : CircuitNo) {off : Nat} (hoff : off < 0x40) (v : Byte) :
    Moves c s (s.pokeRecord c off v) [recordBase c + off] [] :=
  .quiet (circuitOnly_pokeRecord c c s off v) rfl (fun _ => rfl) rfl (pokeRecord_wf hmem c off v)
    (pokeRecord_sameWindow s c hoff v) (offNotice_recordBytes c (offs := [off]) (by simpa using hoff))

theorem Moves.pokeRecordHalf {s : State} (hmem : MemoryLaw s) (c : CircuitNo) {off : Nat} (hoff : off + 1 < 0x40) (v : Half) :
    Moves c s (s.pokeRecordHalf c off v) (recordBytes c [off, off + 1]) [] ∧ shows (s.pokeRecordHalf c off v) (recordBase c + off) v := by
  have hrange := recordBase_range c
  obtain ⟨hshown, hwindow, hwf⟩ := pokeHalf_shows hmem (a := recordBase c + off) (by omega) v
  refine ⟨.quiet ((circuitOnly_pokeHalf c s _ v)) rfl (fun _ => rfl) rfl hwf hwindow ?_, hshown⟩
  exact offNotice_recordBytes c (offs := [off, off + 1]) (by simp; omega)

/-- A step may be given more bytes and more room than it uses. -/
theorem Moves.window_le {c : CircuitNo} {s t : State} {offs offs' : List Nat} {due : List NoticePair} (h : Moves c s t offs due)
    (hsub : offs ⊆ offs') {n : Nat} (hn : due.length ≤ n) : sameWindow s t (offs' ++ raiseBytes s n) :=
  sameWindow_mono h.window fun a ha => by
    obtain ha | ha := List.mem_append.mp ha
    · exact List.mem_append_left _ (hsub ha)
    · exact List.mem_append_right _ (raiseBytes_mono hn ha)

theorem Moves.record {c : CircuitNo} {s t : State} {offs : List Nat} {due : List NoticePair} (h : Moves c s t offs due) {off : Nat}
    (hoff : off < 0x40) (hout : recordBase c + off ∉ offs) : t.peek (recordBase c + off) = s.peek (recordBase c + off) :=
  h.window _ (record_lt c hoff) fun hin =>
    (List.mem_append.mp hin).elim hout (record_not_mem_raiseBytes c hoff s due.length)

/-! ## The tests of the drain and the stall (R81, R109) -/

theorem testStall_moves {s : State} (hmem : MemoryLaw s) (c : CircuitNo) : Moves c s (s.testStall c) [] [] := .updCircuit hmem c _

theorem testDrain_moves {s : State} (hmem : MemoryLaw s) (c : CircuitNo) :
    Moves c s (s.testDrain c) (if (s.circuit c).state = .draining then [recordBase c] else []) [] ∧
      (((s.testDrain c).circuit c).state ≠ (s.circuit c).state → (s.testDrain c).peek (recordBase c) = 5) := by
  by_cases hdrained : (s.circuit c).state = .draining ∧ (s.circuit c).txDone = (s.circuit c).drainTarget
  · obtain ⟨hstate, -⟩ := id hdrained
    have hshown := enterClearing_shown hmem c
    rw [testDrain_of_drained hdrained, if_pos hstate]
    refine ⟨.quiet (testDrain_of_drained hdrained ▸ testDrain_only s c) hshown.orphans (fun hnone => ?_) hshown.notice hshown.wf hshown.window ?_, fun _ => hshown.state⟩
    · rw [enterClearing_selector, flightForgets_of_none hnone]
    · exact offNotice_recordBytes c (offs := [0]) (by simp)
  · rw [testDrain_of_not hdrained]
    refine ⟨?_, fun h => absurd rfl h⟩
    exact .quiet (.refl c s) rfl (fun _ => rfl) rfl hmem (fun _ _ _ => rfl) (by split; exact offNotice_recordBytes c (offs := [0]) (by simp); simp [OffNotice])

/-- The entry of SPACE_OUT tells of the four indices alone. -/
theorem entryBytes_spaceOut_congr {u v : State} {c : CircuitNo} (hdone : (v.circuit c).txDone = (u.circuit c).txDone)
    (hfill : (v.circuit c).rxFill = (u.circuit c).rxFill) (hpost : (v.circuit c).postedCopy = (u.circuit c).postedCopy)
    (hrelease : (v.circuit c).releaseCopy = (u.circuit c).releaseCopy) (n : Byte) :
    entryBytes v n (.circuit c .spaceOut) = entryBytes u n (.circuit c .spaceOut) := by
  simp only [entryBytes, hdone, hfill, hpost, hrelease]

/-- SPACE_OUT, if the release of slots is due to raise it. -/
def releasePairs (k : Circuit) (c : CircuitNo) (before : Nat) : List NoticePair :=
  if k.txNotice.toNat < before ∧ k.postedSpan ≤ k.txNotice.toNat then [.circuit c .spaceOut] else []

theorem noticeRelease_moves {s : State} (hmem : MemoryLaw s) (c : CircuitNo) (before : Nat) :
    Moves c s (s.noticeRelease c before) [] (releasePairs (s.circuit c) c before) ∧
      (NoticePair.circuit c .spaceOut ∈ releasePairs (s.circuit c) c before →
        ToldAs s (s.noticeRelease c before) (.circuit c .spaceOut) fun n => entryBytes s n (.circuit c .spaceOut)) := by
  unfold State.noticeRelease releasePairs
  split
  · refine ⟨.raise hmem c _ _, fun _ => ?_⟩
    have h := toldAs_raiseWith hmem (.circuit c .spaceOut) (s.detailOf (.circuit c .spaceOut))
    exact h.congr fun n => entryWith_detailOf s n _
  · exact ⟨.refl hmem c, fun h => absurd h List.not_mem_nil⟩

/-- Transmit slots have been released: tx done is written, SPACE_OUT raised if it is due, and the drain tested (R81, R166). -/
def slotsReleased (s : State) (c : CircuitNo) (before : Nat) : State :=
  ((s.pokeRecord c recTxDone (s.circuit c).txDone).noticeRelease c before).testDrain c

structure SlotsReleased (s t : State) (c : CircuitNo) (before : Nat) : Prop where
  moves : Moves c s t ([recordBase c + 0x16] ++ if (s.circuit c).state = .draining then [recordBase c] else [])
    (releasePairs (s.circuit c) c before)
  done : t.peek (recordBase c + 0x16) = (s.circuit c).txDone
  state : (t.circuit c).state ≠ (s.circuit c).state → t.peek (recordBase c) = 5
  told : NoticePair.circuit c .spaceOut ∈ releasePairs (s.circuit c) c before →
    ToldAs s t (.circuit c .spaceOut) fun n => entryBytes s n (.circuit c .spaceOut)

theorem slotsReleased_shows {s : State} (hmem : MemoryLaw s) (c : CircuitNo) (before : Nat) :
    SlotsReleased s (slotsReleased s c before) c before := by
  have hdone : (s.pokeRecord c recTxDone (s.circuit c).txDone).peek (recordBase c + 0x16) = (s.circuit c).txDone :=
    peek_pokeRecord_same hmem c (off := 0x16) (by decide) (s.circuit c).txDone
  have hfirst : Moves c s (s.pokeRecord c recTxDone (s.circuit c).txDone) [recordBase c + 0x16] [] := .pokeRecord hmem c (by decide) _
  have hsame : (s.pokeRecord c recTxDone (s.circuit c).txDone).circuit c = s.circuit c := rfl
  unfold slotsReleased
  generalize s.pokeRecord c recTxDone (s.circuit c).txDone = u at *
  obtain ⟨hsecond, htold⟩ := noticeRelease_moves hfirst.wf c before
  rw [hsame] at hsecond htold
  have hsame' := circuit_noticeRelease u c before c
  generalize u.noticeRelease c before = v at *
  obtain ⟨hthird, hstate⟩ := testDrain_moves hsecond.wf c
  rw [hsame', hsame] at hthird hstate
  generalize v.testDrain c = t at *
  have hboth := (hfirst.trans hsecond).trans hthird
  refine ⟨?_, ?_, hstate, fun hin => ?_⟩
  · rw [List.append_nil, List.nil_append, List.append_nil] at hboth
    exact hboth
  · have hne : recordBase c + 0x16 ∉ (if (s.circuit c).state = .draining then [recordBase c] else []) := by split <;> simp
    exact (hthird.record (by decide) hne).trans ((hsecond.record (by decide) List.not_mem_nil).trans hdone)
  · have hentry : (fun n => entryBytes u n (.circuit c .spaceOut)) = fun n => entryBytes s n (.circuit c .spaceOut) :=
      funext fun n => entryBytes_circuit_congr hsame n _ _
    exact hentry ▸ toldAs_between (htold hin) hfirst.raised hsecond.raised hthird.raised List.not_mem_nil

/-! ## Acknowledgement and credit (R104, R105) -/

/-- What the ack and the credit of a frame show. -/
structure AckMoved (s t : State) (c : CircuitNo) (a credit : Seq) : Prop where
  circuit : t.circuit c = ackTaken (s.circuit c) a credit
  moves : Moves c s t (ackBytes (s.circuit c) c a) (spaceOutDue (s.circuit c) (t.circuit c) c)
  done : bringsProgress (s.circuit c) a → t.peek (recordBase c + 0x16) = (t.circuit c).txDone
  state : (t.circuit c).state ≠ (s.circuit c).state → t.peek (recordBase c) = 5
  told : NoticePair.circuit c .spaceOut ∈ spaceOutDue (s.circuit c) (t.circuit c) c →
    ToldAs s t (.circuit c .spaceOut) fun n => entryBytes t n (.circuit c .spaceOut)

theorem ackTaken_fields (k : Circuit) (a credit : Seq) :
    (ackTaken k a credit).txDone = (if bringsProgress k a then (progressed k a credit).txDone else k.txDone) ∧
      (ackTaken k a credit).postedCopy = k.postedCopy ∧ (ackTaken k a credit).rxFill = k.rxFill ∧
      (ackTaken k a credit).releaseCopy = k.releaseCopy ∧ (¬bringsProgress k a → (ackTaken k a credit).state = k.state) := by
  unfold ackTaken
  by_cases h : bringsProgress k a
  · simp only [if_pos h]
    split <;> exact ⟨rfl, rfl, rfl, rfl, fun hn => absurd h hn⟩
  · simp only [if_neg h]
    split <;> exact ⟨rfl, rfl, rfl, rfl, fun _ => rfl⟩

theorem takeAck_of_progress {s : State} {c : CircuitNo} {a : Seq} (credit : Seq) (h : bringsProgress (s.circuit c) a) :
    s.takeAck c a credit = (slotsReleased (s.updCircuit c fun k => k.acknowledge a credit) c (s.circuit c).postedSpan).testStall c :=
  if_pos ((progress_iff _ a).mpr h)

/-- An ack that brings no progress moves the limit at most. -/
theorem takeAck_of_not {s : State} (hmem : MemoryLaw s) {c : CircuitNo} {a : Seq} (credit : Seq) (h : ¬bringsProgress (s.circuit c) a) :
    Moves c s (s.takeAck c a credit) [] [] := by
  unfold State.takeAck
  dsimp only
  rw [if_neg (mt (progress_iff _ a).mp h)]
  split
  · exact (Moves.updCircuit hmem c _).trans (testStall_moves (s := s.updCircuit c _) hmem c)
  · exact .refl hmem c

theorem spaceOutDue_same (k : Circuit) {k' : Circuit} (h : k'.txDone = k.txDone) (c : CircuitNo) : spaceOutDue k k' c = [] := by
  unfold spaceOutDue
  rw [h, if_neg (by omega)]

theorem takeAck_moved {s : State} (hmem : MemoryLaw s) (c : CircuitNo) (a credit : Seq) : AckMoved s (s.takeAck c a credit) c a credit := by
  have hcircuit := takeAck_circuit s c a credit
  obtain ⟨hdone, hpost, hfill, hrelease, hstate⟩ := ackTaken_fields (s.circuit c) a credit
  rw [← hcircuit] at hdone hpost hfill hrelease hstate
  by_cases h : bringsProgress (s.circuit c) a
  · rw [if_pos h] at hdone
    have hk : (s.updCircuit c fun k => k.acknowledge a credit).circuit c = progressed (s.circuit c) a credit := by
      rw [circuit_updCircuit_same, acknowledge_eq_progressed]
    have hshown := slotsReleased_shows (s := s.updCircuit c fun k => k.acknowledge a credit) hmem c (s.circuit c).postedSpan
    have hfirst := Moves.updCircuit hmem c fun k => k.acknowledge a credit
    rw [takeAck_of_progress credit h] at *
    generalize s.updCircuit c (fun k => k.acknowledge a credit) = u at *
    generalize slotsReleased u c (s.circuit c).postedSpan = v at *
    have hlast := testStall_moves hshown.moves.wf c
    have hstall := testStall_circuit v c
    generalize v.testStall c = t at *
    have hdue : releasePairs (u.circuit c) c (s.circuit c).postedSpan = spaceOutDue (s.circuit c) (t.circuit c) c := by
      unfold releasePairs spaceOutDue
      rw [hk, hdone]
      rfl
    have hbytes : [recordBase c + 0x16] ++ (if (u.circuit c).state = .draining then [recordBase c] else []) =
        ackBytes (s.circuit c) c a := by
      unfold ackBytes
      rw [if_pos h, hk]
      rfl
    have htold := hshown.told
    have hmoves := hshown.moves
    rw [hdue] at htold hmoves
    rw [hbytes] at hmoves
    have hall := (hfirst.trans hmoves).trans hlast
    rw [List.nil_append, List.nil_append, List.append_nil, List.append_nil] at hall
    refine ⟨hcircuit, hall, fun _ => ?_, fun hne => ?_, fun hin => ?_⟩
    · exact (hlast.record (by decide) List.not_mem_nil).trans (hshown.done.trans (by rw [hk, hdone]))
    · refine (hlast.record (off := 0) (by decide) List.not_mem_nil).trans (hshown.state ?_)
      rw [hstall] at hne
      rw [hk]
      exact hne
    · refine (toldAs_between (htold hin) hfirst.raised hmoves.raised hlast.raised List.not_mem_nil).congr fun n => ?_
      exact (entryBytes_spaceOut_congr (by rw [hk, hdone]) (by rw [hk, hfill]; rfl) (by rw [hk, hpost]; rfl) (by rw [hk, hrelease]; rfl) n).symm
  · rw [if_neg h] at hdone
    have hnone := spaceOutDue_same _ hdone c
    have hmoves := takeAck_of_not hmem credit h
    generalize s.takeAck c a credit = t at *
    refine ⟨hcircuit, ?_, fun hp => absurd hp h, fun hne => absurd (hstate h) hne, fun hin => ?_⟩
    · rw [hnone]
      exact ⟨hmoves.only, hmoves.orphans, hmoves.flight, hmoves.wf, hmoves.raised, hmoves.window_le (List.nil_subset _) (by simp)⟩
    · rw [hnone] at hin
      exact absurd hin List.not_mem_nil

/-! ## Frames that the Transfer Engine takes -/

/-- A good frame that moves the circuit it is for. -/
theorem frame_moves {s v : State} {k : Kind} {f : Frame} {offs : List Nat} {due : List NoticePair} (hmem : MemoryLaw s) (h : hears k f s)
    (hk : k ≠ .roll) (htable : (heardFrom s k f).tableFrame k f = v) (hmoves : Moves f.dstCircuit (heardFrom s k f) v offs due)
    (hlow : 0x1E ∉ offs) (hhigh : 0x1F ∉ offs) :
    ∃ x, exec (frameRow k f) s = .next { v with arbiter := x } ∧ heardBlocks k f s { v with arbiter := x } ∧
      sameCircuits s { v with arbiter := x } f.dstCircuit ∧ v.orphans = s.orphans ∧ raisedOnly s { v with arbiter := x } due ∧
      ∀ n, due.length ≤ n → sameWindow s { v with arbiter := x } (heardBytes ++ (offs ++ raiseBytes s n)) := by
  have hnotin {a : Nat} (ha : a = 0x1E ∨ a = 0x1F) (hout : a ∉ offs) : a ∉ offs ++ raiseBytes (heardFrom s k f) due.length := fun hin =>
    (List.mem_append.mp hin).elim hout (not_mem_raiseBytes (by omega) _ _)
  obtain ⟨x, hexec, hblocks⟩ := frame_taken hmem h hk htable hmoves.only.rest
    (hmoves.flight (show s.selector.inFlight = none from hears_inFlight h)) hmoves.window (hnotin (.inl rfl) hlow) (hnotin (.inr rfl) hhigh)
  refine ⟨x, hexec, hblocks, hmoves.only.others, hmoves.orphans, raisedOnly_congr (u := heardFrom s k f) rfl hmoves.raised.only, fun n hn => ?_⟩
  exact sameWindow_of_heardFrom (hmoves.window_le (List.Subset.refl _) hn)

/-- A DATA or an ACK that reaches a circuit in OPEN or DRAINING goes to the Transfer Engine (R65). -/
theorem tableFrame_transfers {s : State} {f : Frame} (hreaches : reaches f s) (htransfers : (s.circuit f.dstCircuit).state.transfers = true) :
    (hears .data f s → (heardFrom s .data f).tableFrame .data f = (heardFrom s .data f).takeData f.dstCircuit f) ∧
    (hears .ack f s → (heardFrom s .ack f).tableFrame .ack f = (heardFrom s .ack f).takeAckFrame f.dstCircuit f) := by
  have hstate : (s.circuit f.dstCircuit).state = .opened ∨ (s.circuit f.dstCircuit).state = .draining := by
    cases hs : (s.circuit f.dstCircuit).state <;> simp [hs, CircuitState.transfers] at htransfers ⊢
  refine ⟨fun h => (tableFrame_circuit (hears_dst h) (by decide) (by decide)).trans ?_,
    fun h => (tableFrame_circuit (hears_dst h) (by decide) (by decide)).trans ?_⟩
  · obtain ⟨hopened, hdraining, -⟩ := takeCircuitFrame_of_reaches (u := heardFrom s .data f) (k := .data) hreaches
    exact hstate.elim hopened hdraining
  · obtain ⟨hopened, hdraining, -⟩ := takeCircuitFrame_of_reaches (u := heardFrom s .ack f) (k := .ack) hreaches
    exact hstate.elim hopened hdraining

theorem not_mem_ackBytes {k : Circuit} {c : CircuitNo} {seq : Seq} {a : Nat} (ha : a < 0x100) : a ∉ ackBytes k c seq := fun hin => by
  have hrange := recordBase_range c
  unfold ackBytes at hin
  obtain hin | hin := List.mem_append.mp hin <;> split at hin <;> simp at hin <;> omega

theorem spaceOutDue_length (k k' : Circuit) (c : CircuitNo) : (spaceOutDue k k' c).length ≤ 1 := by
  unfold spaceOutDue
  split <;> simp

/-- What the ack of a frame shows, in the words of the statements. -/
theorem ackShows_of_moved {s t : State} {c : CircuitNo} {a credit : Seq} (h : AckMoved s t c a credit) : ackShows (s.circuit c) a s t c :=
  ⟨fun hp => ⟨h.done hp, fun hdue => (h.told (by unfold spaceOutDue; rw [if_pos hdue]; exact List.mem_cons_self)).told fun _ => rfl⟩, h.state⟩

theorem updCircuit_same (s : State) (c : CircuitNo) : s.updCircuit c (fun k => k) = s := by
  rw [State.updCircuit, State.circuit, Vector.get_eq_getElem, Vector.set_getElem_self]

/-- Settles O32: a POLL owes the ACK, and then the ack and the credit reach the send side. -/
theorem acksMoveTheSendSide : Obligations.AcksMoveTheSendSide := by
  intro s f hmem h hreaches htransfers
  have htable := (tableFrame_transfers hreaches htransfers).2 h
  by_cases hmode : (s.circuit f.dstCircuit).mode = .assured
  · simp only [if_pos hmode]
    have hpoll : (heardFrom s .ack f).takeAckFrame f.dstCircuit f =
        ((heardFrom s .ack f).updCircuit f.dstCircuit fun k => { k with ackOwed := f.poll || k.ackOwed }).takeAck f.dstCircuit f.ack f.credit := by
      unfold State.takeAckFrame
      rw [circuit_heardFrom, hmode]
      cases f.poll
      · exact congrArg (fun u : State => u.takeAck f.dstCircuit f.ack f.credit) (updCircuit_same (heardFrom s .ack f) f.dstCircuit).symm
      · rfl
    rw [hpoll] at htable
    have hfirst := Moves.updCircuit (heardFrom_wf hmem .ack f) f.dstCircuit fun k => { k with ackOwed := f.poll || k.ackOwed }
    have hmoved := takeAck_moved hfirst.wf f.dstCircuit f.ack f.credit
    have hk : ((heardFrom s .ack f).updCircuit f.dstCircuit fun k => { k with ackOwed := f.poll || k.ackOwed }).circuit f.dstCircuit =
        { s.circuit f.dstCircuit with ackOwed := f.poll || (s.circuit f.dstCircuit).ackOwed } := circuit_updCircuit_same ..
    generalize ((heardFrom s .ack f).updCircuit f.dstCircuit fun k => { k with ackOwed := f.poll || k.ackOwed }).takeAck f.dstCircuit f.ack f.credit = v at *
    have hshows := ackShows_of_moved hmoved
    have hmoves := hfirst.trans hmoved.moves
    have hcircuit := hmoved.circuit
    rw [hk] at hshows hmoves hcircuit
    obtain ⟨x, hexec, hblocks, hothers, horphans, hraised, hwindow⟩ := frame_moves hmem h (by decide) htable hmoves
      (not_mem_ackBytes (by decide)) (not_mem_ackBytes (by decide))
    have hsmall := spaceOutDue_length (s.circuit f.dstCircuit) (v.circuit f.dstCircuit) f.dstCircuit
    refine ⟨_, hexec, hblocks, hothers, horphans, hcircuit, ?_, hraised, ?_⟩
    · obtain ⟨hprogress, hstate⟩ := hshows
      exact ⟨fun hp => ⟨(hprogress hp).1, fun hdue => told_congr (u := (heardFrom s .ack f).updCircuit f.dstCircuit _) rfl ((hprogress hp).2 hdue)⟩,
        hstate⟩
    · rw [List.append_assoc]
      exact hwindow 1 hsmall
  · have hplain : (s.circuit f.dstCircuit).mode = .plain := by
      cases hm : (s.circuit f.dstCircuit).mode with
      | assured => exact absurd hm hmode
      | plain => rfl
    have hnothing : (heardFrom s .ack f).takeAckFrame f.dstCircuit f = heardFrom s .ack f := by
      unfold State.takeAckFrame
      rw [circuit_heardFrom, hplain]
    obtain ⟨t, hexec, hblocks, hcircuits, hnotice, horphans, hwindow⟩ := frame_passes hmem h (by decide) (htable.trans hnothing)
    refine ⟨t, hexec, hblocks, fun d _ => hcircuits d, horphans, ?_⟩
    rw [if_neg hmode]
    exact ⟨hcircuits _, hnotice, hwindow⟩

end Sys2Proof.Proofs
end

section
namespace Sys2Proof.Proofs

open Sys2Proof Sys2Proof.Machine Sys2Proof.Claims Sys2Proof.Safety Sys2Proof.Laws

/-! ## A segment in its slot (R140) -/

theorem slotFlags (gapped endMark : Bool) :
    ((0 : BitVec 6) ++ BitVec.ofBool gapped ++ BitVec.ofBool endMark : Byte) = (if endMark then 1 else 0) + (if gapped then 2 else 0) := by
  cases gapped <;> cases endMark <;> decide

theorem fillSlot_eq (k : Circuit) : k.rxSlot = fillSlot k := rfl

/-- Offsets of the ring area lie off the Notice Unit. -/
theorem offNotice_slot {k : Circuit} (hring : RingAreaLaw k) (hroom : hasRoom k) (f : Frame) : OffNotice (slotBytes k f) := fun a ha => by
  have hslot := rxSlot_range hring (Nat.lt_of_le_of_lt (Nat.zero_le _) hroom)
  rw [fillSlot_eq] at hslot
  rw [slotBytes, mem_bytesFrom] at ha
  omega

theorem writeSlot_moves {s : State} (hmem : MemoryLaw s) (c : CircuitNo) (f : Frame) {gapped : Bool} {missing : Nat}
    (hgapped : gapped = decide (missing ≠ 0)) (hring : RingAreaLaw (s.circuit c)) (hroom : hasRoom (s.circuit c)) (hlength : f.payload.length ≤ 252) :
    Moves c s (s.writeSlot c f gapped missing) (slotBytes (s.circuit c) f) [] ∧ slotHolds (s.circuit c) f missing (s.writeSlot c f gapped missing) := by
  have hfree : (s.circuit c).freeSlots ≠ 0 := mt (freeSlots_eq_zero_iff _).mp (not_not.mpr hroom)
  have hslot := rxSlot_range hring (freeSlots_pos hfree)
  have hframe := writeSlot_eq s c f gapped missing
  have hwf := writeSlot_wf hmem c f gapped missing
  refine ⟨?_, ?_⟩
  · have honly : CircuitOnly c s (s.writeSlot c f gapped missing) := by
      rw [hframe]
      exact ⟨by constructor <;> rfl, fun _ _ => rfl⟩
    refine .quiet honly (by rw [hframe]) (fun _ => by rw [hframe]) (by rw [hframe]) hwf (fun a ha hout => ?_) (offNotice_slot hring hroom f)
    rw [slotBytes, mem_bytesFrom, ← fillSlot_eq] at hout
    exact peek_writeSlot_ne s c f gapped missing hring hfree hlength ha (by omega)
  · have hpayload (i : Nat) (hi : i < f.payload.length) := peek_pokeBytes_same f.payload hmem ((s.circuit c).rxSlot + 4) i (by omega) hi
    have hwf0 : MemoryLaw (s.pokeBytes ((s.circuit c).rxSlot + 4) f.payload) := pokeBytes_wf _ s _ hmem
    unfold slotHolds State.writeSlot
    simp only [← fillSlot_eq]
    generalize (s.circuit c).rxSlot = a at *
    generalize s.pokeBytes (a + 4) f.payload = u at *
    have hwf1 := poke_wf u a (BitVec.ofNat 8 f.payload.length) hwf0
    refine ⟨?_, ?_, ?_, ?_, fun i hi => ?_⟩
    · rw [peek_poke_ne _ _ _ _ (by omega) (by omega) (by omega), peek_poke_ne _ _ _ _ (by omega) (by omega) (by omega),
        peek_poke_ne _ _ _ _ (by omega) (by omega) (by omega), peek_poke_same _ _ _ hwf0 (by omega)]
    · rw [peek_poke_ne _ _ _ _ (by omega) (by omega) (by omega), peek_poke_ne _ _ _ _ (by omega) (by omega) (by omega),
        peek_poke_same _ _ _ hwf1 (by omega), slotFlags, hgapped]
      simp
    · rw [peek_poke_ne _ _ _ _ (by omega) (by omega) (by omega), peek_poke_same _ _ _ (poke_wf _ _ _ hwf1) (by omega)]
    · exact peek_poke_same _ _ _ (poke_wf _ _ _ (poke_wf _ _ _ hwf1)) (by omega)
    · rw [peek_poke_ne _ _ _ _ (by omega) (by omega) (by omega), peek_poke_ne _ _ _ _ (by omega) (by omega) (by omega),
        peek_poke_ne _ _ _ _ (by omega) (by omega) (by omega), peek_poke_ne _ _ _ _ (by omega) (by omega) (by omega)]
      exact hpayload i hi

theorem advanceFill_moves {s : State} (hmem : MemoryLaw s) (c : CircuitNo) (seq : Seq) :
    Moves c s (s.advanceFill c seq) [recordBase c + 0x17] [] ∧ (s.advanceFill c seq).peek (recordBase c + 0x17) = (s.circuit c).rxFill + 1 := by
  have hfirst := Moves.updCircuit hmem c fun k => { k with rxFill := k.rxFill + 1, expectedSeq := seq + 1 }
  have hsame := circuit_updCircuit_same s c fun k => { k with rxFill := k.rxFill + 1, expectedSeq := seq + 1 }
  unfold State.advanceFill
  generalize s.updCircuit c (fun k => { k with rxFill := k.rxFill + 1, expectedSeq := seq + 1 }) = u at *
  refine ⟨hfirst.trans (.pokeRecord hfirst.wf c (by decide) _), ?_⟩
  exact (peek_pokeRecord_same hfirst.wf c (off := recRxFill) (by decide) _).trans (by rw [hsame])

/-- DATA_IN, if a fill is due to raise it. -/
def fillPairs (k : Circuit) (c : CircuitNo) (endMark : Bool) : List NoticePair :=
  if endMark = true ∨ k.rxNotice.toNat ≤ k.filledSpan then [.circuit c .dataIn] else []

/-- The entry of DATA_IN tells of the four indices alone. -/
theorem entryBytes_dataIn_congr {u v : State} {c : CircuitNo} (hdone : (v.circuit c).txDone = (u.circuit c).txDone)
    (hfill : (v.circuit c).rxFill = (u.circuit c).rxFill) (hpost : (v.circuit c).postedCopy = (u.circuit c).postedCopy)
    (hrelease : (v.circuit c).releaseCopy = (u.circuit c).releaseCopy) (n : Byte) :
    entryBytes v n (.circuit c .dataIn) = entryBytes u n (.circuit c .dataIn) := by
  simp only [entryBytes, hdone, hfill, hpost, hrelease]

theorem noticeFill_moves {s : State} (hmem : MemoryLaw s) (c : CircuitNo) (endMark : Bool) :
    Moves c s (s.noticeFill c endMark) [] (fillPairs (s.circuit c) c endMark) ∧
      (NoticePair.circuit c .dataIn ∈ fillPairs (s.circuit c) c endMark →
        ToldAs s (s.noticeFill c endMark) (.circuit c .dataIn) fun n => entryBytes s n (.circuit c .dataIn)) := by
  have hcond : (endMark || decide ((s.circuit c).rxNotice.toNat ≤ (s.circuit c).filledSpan)) = true ↔
      (endMark = true ∨ (s.circuit c).rxNotice.toNat ≤ (s.circuit c).filledSpan) := by simp
  unfold State.noticeFill fillPairs
  by_cases h : endMark = true ∨ (s.circuit c).rxNotice.toNat ≤ (s.circuit c).filledSpan
  · rw [if_pos (hcond.mpr h), if_pos h]
    have hfirst := Moves.updCircuit hmem c fun k => { k with rxIdleTimer := none }
    have hsame := circuit_updCircuit_same s c fun k => { k with rxIdleTimer := none }
    generalize s.updCircuit c (fun k => { k with rxIdleTimer := none }) = u at *
    have hraise := Moves.raise hfirst.wf c (.circuit c .dataIn) (u.detailOf (.circuit c .dataIn))
    refine ⟨hfirst.trans hraise, fun _ => ?_⟩
    refine ((toldAs_raiseWith hfirst.wf (.circuit c .dataIn) _).before hfirst.raised hraise.raised List.not_mem_nil).congr fun n => ?_
    rw [entryWith_detailOf]
    exact entryBytes_dataIn_congr (by rw [hsame]) (by rw [hsame]) (by rw [hsame]) (by rw [hsame]) n
  · rw [if_neg (mt hcond.mp h), if_neg h]
    exact ⟨.updCircuit hmem c _, fun hin => absurd hin List.not_mem_nil⟩

theorem fillPairs_eq_dataInDue {k k' : Circuit} {f : Frame} (hnotice : k'.rxNotice = k.rxNotice) (hrelease : k'.releaseCopy = k.releaseCopy)
    (hfill : k'.rxFill = k.rxFill + 1) (c : CircuitNo) : fillPairs k' c f.endMark = dataInDue k c f := by
  unfold fillPairs dataInDue idleAfterFill Circuit.filledSpan
  rw [hnotice, hrelease, hfill]
  split <;> rfl

theorem dataInDue_length (k : Circuit) (c : CircuitNo) (f : Frame) : (dataInDue k c f).length ≤ 1 := by
  unfold dataInDue
  split <;> simp

/-- Steps that write below the ring area leave the slots. -/
theorem Moves.slots {c : CircuitNo} {s t : State} {offs : List Nat} {due : List NoticePair} (h : Moves c s t offs due)
    (hoffs : ∀ x ∈ offs, x < 0x1000) {a : Nat} (hlow : 0x1000 ≤ a) (hhigh : a < 65536) : t.peek a = s.peek a :=
  h.window a hhigh fun hin => by
    obtain hin | hin := List.mem_append.mp hin
    · have := hoffs a hin
      omega
    · exact not_mem_raiseBytes (by omega) _ _ hin

theorem slotHolds_congr {k : Circuit} {f : Frame} {missing : Nat} {u t : State} (hring : RingAreaLaw k) (hroom : hasRoom k)
    (hlength : f.payload.length ≤ 252) (hslots : ∀ a, 0x1000 ≤ a → a < 65536 → t.peek a = u.peek a) (h : slotHolds k f missing u) :
    slotHolds k f missing t := by
  have hslot := rxSlot_range hring (Nat.lt_of_le_of_lt (Nat.zero_le _) hroom)
  rw [fillSlot_eq] at hslot
  obtain ⟨h0, h1, h2, h3, hpayload⟩ := h
  exact ⟨(hslots _ (by omega) (by omega)).trans h0, (hslots _ (by omega) (by omega)).trans h1, (hslots _ (by omega) (by omega)).trans h2,
    (hslots _ (by omega) (by omega)).trans h3, fun i hi => (hslots _ (by omega) (by omega)).trans (hpayload i hi)⟩

theorem record_offs_lt {c : CircuitNo} {off : Nat} (hoff : off < 0x40) : ∀ x ∈ [recordBase c + off], x < 0x1000 := by
  have := recordBase_range c
  simp
  omega

/-! ## An assured segment (R112, R113, R115) -/

/-- What an expected segment that finds a slot shows. -/
structure SegmentFilled (s t : State) (c : CircuitNo) (f : Frame) : Prop where
  moves : Moves c s t (slotBytes (s.circuit c) f ++ [recordBase c + 0x17]) (dataInDue (s.circuit c) c f)
  slot : slotHolds (s.circuit c) f 0 t
  fill : t.peek (recordBase c + 0x17) = (s.circuit c).rxFill + 1
  told : idleAfterFill (s.circuit c) f = none → ToldAs s t (.circuit c .dataIn) fun n =>
    entryBytes (s.updCircuit c fun k => segmentTaken k f) n (.circuit c .dataIn)

theorem assuredFilled {s : State} (hmem : MemoryLaw s) (c : CircuitNo) {f : Frame} (hring : RingAreaLaw (s.circuit c))
    (hseq : f.seq = (s.circuit c).expectedSeq) (hroom : hasRoom (s.circuit c)) (hlength : f.payload.length ≤ 252) :
    SegmentFilled s ((((s.writeSlot c f false 0).advanceFill c f.seq).oweAck c).noticeFill c f.endMark) c f := by
  obtain ⟨hwritten, hslot⟩ := writeSlot_moves hmem c f (gapped := false) (missing := 0) rfl hring hroom hlength
  have hsame : (s.writeSlot c f false 0).circuit c = s.circuit c := circuit_writeSlot ..
  generalize s.writeSlot c f false 0 = u at *
  obtain ⟨hadvanced, hfill⟩ := advanceFill_moves hwritten.wf c f.seq
  have hcircuit := advanceFill_circuit u c f.seq
  rw [hsame] at hfill hcircuit
  generalize u.advanceFill c f.seq = v at *
  have howed : Moves c v (v.oweAck c) [] [] := .updCircuit hadvanced.wf c _
  have hcircuit' : (v.oweAck c).circuit c = { v.circuit c with ackOwed := true } := circuit_updCircuit_same ..
  rw [hcircuit] at hcircuit'
  generalize v.oweAck c = w at *
  obtain ⟨hnoticed, htold⟩ := noticeFill_moves howed.wf c f.endMark
  have hdue : fillPairs (w.circuit c) c f.endMark = dataInDue (s.circuit c) c f :=
    fillPairs_eq_dataInDue (by rw [hcircuit']) (by rw [hcircuit']) (by rw [hcircuit']) c
  rw [hdue] at hnoticed htold
  generalize w.noticeFill c f.endMark = t at *
  have hfront := (hwritten.trans hadvanced).trans howed
  have hall := hfront.trans hnoticed
  rw [List.append_nil, List.append_nil] at hall
  refine ⟨hall, ?_, ?_, fun hidle => ?_⟩
  · refine slotHolds_congr hring hroom hlength (fun a hlow hhigh => ?_) hslot
    exact (hnoticed.slots (by simp) hlow hhigh).trans ((howed.slots (by simp) hlow hhigh).trans (hadvanced.slots (record_offs_lt (by decide)) hlow hhigh))
  · exact (hnoticed.record (by decide) List.not_mem_nil).trans ((howed.record (by decide) List.not_mem_nil).trans hfill)
  · have hin : NoticePair.circuit c .dataIn ∈ dataInDue (s.circuit c) c f := by
      rw [dataInDue, if_pos hidle]
      exact List.mem_cons_self
    have htaken : (s.updCircuit c fun k => segmentTaken k f).circuit c = { s.circuit c with
        rxFill := (s.circuit c).rxFill + 1, expectedSeq := (s.circuit c).expectedSeq + 1, ackOwed := true, rxIdleTimer := idleAfterFill (s.circuit c) f } := by
      rw [circuit_updCircuit_same, segmentTaken, if_neg (not_not.mpr hseq), if_neg (not_not.mpr hroom)]
    refine ((htold hin).before hfront.raised hnoticed.raised List.not_mem_nil).congr fun n => ?_
    exact entryBytes_dataIn_congr (by rw [hcircuit', htaken]) (by rw [hcircuit', htaken]) (by rw [hcircuit', htaken]) (by rw [hcircuit', htaken]) n

/-- The receive side of an assured circuit does not touch the send side. -/
theorem segmentTaken_send (k : Circuit) (f : Frame) : (segmentTaken k f).txNotice = k.txNotice ∧ (segmentTaken k f).txDone = k.txDone ∧
    (segmentTaken k f).postedCopy = k.postedCopy ∧ (segmentTaken k f).oldestSeq = k.oldestSeq ∧ (segmentTaken k f).nextSeq = k.nextSeq ∧
    (segmentTaken k f).state = k.state := by
  unfold segmentTaken
  split
  · exact ⟨rfl, rfl, rfl, rfl, rfl, rfl⟩
  split <;> exact ⟨rfl, rfl, rfl, rfl, rfl, rfl⟩

theorem ackBytes_segmentTaken (k : Circuit) (f : Frame) (c : CircuitNo) (a : Seq) : ackBytes (segmentTaken k f) c a = ackBytes k c a := by
  obtain ⟨-, -, -, holdest, hnext, hstate⟩ := segmentTaken_send k f
  unfold ackBytes bringsProgress
  rw [holdest, hnext, hstate]

theorem spaceOutDue_segmentTaken (k k' : Circuit) (f : Frame) (c : CircuitNo) : spaceOutDue (segmentTaken k f) k' c = spaceOutDue k k' c := by
  obtain ⟨hnotice, hdone, hpost, -⟩ := segmentTaken_send k f
  unfold spaceOutDue
  rw [hnotice, hdone, hpost]

/-- An assured segment and then its ack, whichever way the segment was taken. -/
theorem segment_acked {s u : State} {c : CircuitNo} {f : Frame} {offs : List Nat} {due : List NoticePair} (h : Moves c s u offs due)
    (hcircuit : u.circuit c = segmentTaken (s.circuit c) f) (hdue : NoticePair.circuit c .spaceOut ∉ due) :
    let t := u.takeAck c f.ack f.credit
    t.circuit c = ackTaken (segmentTaken (s.circuit c) f) f.ack f.credit ∧ ackShows (s.circuit c) f.ack s t c ∧
      Moves c u t (ackBytes (s.circuit c) c f.ack) (spaceOutDue (s.circuit c) (t.circuit c) c) := by
  have hmoved := takeAck_moved h.wf c f.ack f.credit
  obtain ⟨hnotice, hdone, hpost, holdest, hnext, hstate⟩ := segmentTaken_send (s.circuit c) f
  dsimp only
  generalize u.takeAck c f.ack f.credit = t at *
  obtain ⟨htaken, hmoves, hshown, hstated, htold⟩ := hmoved
  rw [hcircuit] at htaken hmoves hshown hstated htold
  rw [ackBytes_segmentTaken, spaceOutDue_segmentTaken] at hmoves
  rw [spaceOutDue_segmentTaken] at htold
  rw [hstate] at hstated
  unfold bringsProgress at hshown
  rw [holdest, hnext] at hshown
  refine ⟨htaken, ⟨fun hp => ⟨hshown hp, fun hcond => ?_⟩, hstated⟩, hmoves⟩
  have hin : NoticePair.circuit c .spaceOut ∈ spaceOutDue (s.circuit c) (t.circuit c) c := by
    unfold spaceOutDue
    rw [if_pos hcond]
    exact List.mem_cons_self
  exact ((htold hin).before h.raised hmoves.raised hdue).told fun _ => rfl

theorem count_not_mem_slot {k : Circuit} (hring : RingAreaLaw k) (hroom : hasRoom k) (f : Frame) {a : Nat} (ha : a < 0x1000) :
    a ∉ slotBytes k f := fun hin => by
  have hslot := rxSlot_range hring (Nat.lt_of_le_of_lt (Nat.zero_le _) hroom)
  rw [fillSlot_eq] at hslot
  rw [slotBytes, mem_bytesFrom] at hin
  omega

/-- A DATA on an assured circuit: its segment as it was taken, and then its ack. -/
theorem data_acked {s u : State} {f : Frame} {offs : List Nat} {due : List NoticePair} (hmem : MemoryLaw s) (h : hears .data f s)
    (hreaches : reaches f s) (hmode : (s.circuit f.dstCircuit).mode = .assured) (htransfers : (s.circuit f.dstCircuit).state.transfers = true)
    (hsegment : (heardFrom s .data f).takeAssuredSegment f.dstCircuit f = u) (hmoves : Moves f.dstCircuit (heardFrom s .data f) u offs due)
    (hdue : NoticePair.circuit f.dstCircuit .spaceOut ∉ due) (hlow : 0x1E ∉ offs) (hhigh : 0x1F ∉ offs) :
    ∃ v x, let t : State := { v with arbiter := x }
      Moves f.dstCircuit u v (ackBytes (s.circuit f.dstCircuit) f.dstCircuit f.ack) (spaceOutDue (s.circuit f.dstCircuit) (v.circuit f.dstCircuit) f.dstCircuit) ∧
      exec (.dataReceived f) s = .next t ∧ heardBlocks .data f s t ∧ sameCircuits s t f.dstCircuit ∧ t.orphans = s.orphans ∧
      t.circuit f.dstCircuit = ackTaken (segmentTaken (s.circuit f.dstCircuit) f) f.ack f.credit ∧
      ackShows (s.circuit f.dstCircuit) f.ack s t f.dstCircuit ∧
      raisedOnly s t (due ++ spaceOutDue (s.circuit f.dstCircuit) (t.circuit f.dstCircuit) f.dstCircuit) ∧
      ∀ n, due.length + 1 ≤ n →
        sameWindow s t (heardBytes ++ (offs ++ ackBytes (s.circuit f.dstCircuit) f.dstCircuit f.ack ++ raiseBytes s n)) := by
  have hdata : (heardFrom s .data f).takeData f.dstCircuit f = u.takeAck f.dstCircuit f.ack f.credit := by
    unfold State.takeData
    rw [circuit_heardFrom, hmode, ← hsegment]
  have hcircuit : u.circuit f.dstCircuit = segmentTaken ((heardFrom s .data f).circuit f.dstCircuit) f := by
    rw [← hsegment, takeAssuredSegment_circuit]
  have htable := ((tableFrame_transfers hreaches htransfers).1 h).trans hdata
  obtain ⟨htaken, hshows, hacked⟩ := segment_acked hmoves hcircuit hdue
  generalize u.takeAck f.dstCircuit f.ack f.credit = v at *
  have hsmall := spaceOutDue_length (s.circuit f.dstCircuit) (v.circuit f.dstCircuit) f.dstCircuit
  obtain ⟨x, hexec, hblocks, hothers, horphans, hraised, hwindow⟩ := frame_moves hmem h (by decide) htable (hmoves.trans hacked)
    (fun hin => (List.mem_append.mp hin).elim hlow (not_mem_ackBytes (by decide)))
    (fun hin => (List.mem_append.mp hin).elim hhigh (not_mem_ackBytes (by decide)))
  refine ⟨v, x, hacked, hexec, hblocks, hothers, horphans, htaken, ?_, hraised, fun n hn => ?_⟩
  · obtain ⟨hprogress, hstate⟩ := hshows
    exact ⟨fun hp => ⟨(hprogress hp).1, fun hdue => told_congr (u := heardFrom s .data f) rfl ((hprogress hp).2 hdue)⟩, hstate⟩
  · refine hwindow n ?_
    rw [List.length_append]
    have : (spaceOutDue ((heardFrom s .data f).circuit f.dstCircuit) (v.circuit f.dstCircuit) f.dstCircuit).length ≤ 1 := hsmall
    omega

/-- A segment that finds no slot is counted (R113). -/
theorem assuredDiscarded {s : State} (hmem : MemoryLaw s) (c : CircuitNo) :
    let t := ((s.updCircuit c fun k => { k with discardCount := k.discardCount + 1 }).pokeRecordHalf c recDiscardCount
      ((s.circuit c).discardCount + 1)).oweAck c
    Moves c s t (recordBytes c [0x1C, 0x1D]) [] ∧ shows t (recordBase c + 0x1C) ((s.circuit c).discardCount + 1) := by
  have hfirst := Moves.updCircuit hmem c fun k => { k with discardCount := k.discardCount + 1 }
  dsimp only
  generalize s.updCircuit c (fun k => { k with discardCount := k.discardCount + 1 }) = u at *
  obtain ⟨hpoked, hshown⟩ := Moves.pokeRecordHalf hfirst.wf c (off := recDiscardCount) (by decide) ((s.circuit c).discardCount + 1)
  generalize u.pokeRecordHalf c recDiscardCount ((s.circuit c).discardCount + 1) = v at *
  exact ⟨(hfirst.trans hpoked).trans (.updCircuit hpoked.wf c _), hshown⟩

theorem recordOff_not_mem_ackBytes {k : Circuit} {c : CircuitNo} {a : Seq} {off : Nat} (hoff : off ≠ 0x16 ∧ off ≠ 0) :
    recordBase c + off ∉ ackBytes k c a := fun hin => by
  unfold ackBytes at hin
  obtain hin | hin := List.mem_append.mp hin <;> split at hin <;> simp at hin <;> omega

theorem ackBytes_lt {k : Circuit} {c : CircuitNo} {a : Seq} : ∀ x ∈ ackBytes k c a, x < 0x1000 := fun x hin => by
  have hrange := recordBase_range c
  unfold ackBytes at hin
  obtain hin | hin := List.mem_append.mp hin <;> split at hin <;> simp at hin <;> omega

/-- Settles O30: by whether the segment is the one expected and finds a slot. -/
theorem assuredSegmentsAreTakenInOrder : Obligations.AssuredSegmentsAreTakenInOrder := by
  intro s f hmem h hreaches hmode htransfers hring
  have hwf := heardFrom_wf hmem .data f
  have hlength := payload_le_of_keepsRules (hears_keepsRules h)
  by_cases hseq : f.seq = (s.circuit f.dstCircuit).expectedSeq
  · by_cases hroom : hasRoom (s.circuit f.dstCircuit)
    · have hfilled := assuredFilled (f := f) hwf f.dstCircuit hring hseq hroom hlength
      have hsegment : (heardFrom s .data f).takeAssuredSegment f.dstCircuit f =
          ((((heardFrom s .data f).writeSlot f.dstCircuit f false 0).advanceFill f.dstCircuit f.seq).oweAck f.dstCircuit).noticeFill
            f.dstCircuit f.endMark :=
        (if_neg (not_not.mpr hseq)).trans (if_neg (mt (freeSlots_eq_zero_iff (s.circuit f.dstCircuit)).mp (not_not.mpr hroom)))
      generalize ((((heardFrom s .data f).writeSlot f.dstCircuit f false 0).advanceFill f.dstCircuit f.seq).oweAck f.dstCircuit).noticeFill
            f.dstCircuit f.endMark = u at *
      obtain ⟨hmoves, hslot, hfill, htold⟩ := hfilled
      have hout {a : Nat} (ha : a < 0x100) : a ∉ slotBytes (s.circuit f.dstCircuit) f ++ [recordBase f.dstCircuit + 0x17] := fun hin => by
        have hrange := recordBase_range f.dstCircuit
        obtain hin | hin := List.mem_append.mp hin
        · exact count_not_mem_slot hring hroom f (by omega) hin
        · simp at hin
          omega
      have hdue : NoticePair.circuit f.dstCircuit .spaceOut ∉ dataInDue (s.circuit f.dstCircuit) f.dstCircuit f := by
        unfold dataInDue
        split <;> simp
      obtain ⟨v, x, hacked, hexec, hblocks, hothers, horphans, htaken, hshows, hraised, hwindow⟩ :=
        data_acked hmem h hreaches hmode htransfers hsegment hmoves hdue (hout (by decide)) (hout (by decide))
      have hone := dataInDue_length (s.circuit f.dstCircuit) f.dstCircuit f
      refine ⟨_, hexec, hblocks, hothers, horphans, htaken, hshows, ?_⟩
      rw [if_neg (not_not.mpr hseq), if_neg (not_not.mpr hroom)]
      refine ⟨slotHolds_congr hring hroom hlength (fun a hlow hhigh => hacked.slots ackBytes_lt hlow hhigh) hslot,
        (hacked.record (by decide) (recordOff_not_mem_ackBytes (by decide))).trans hfill, fun hidle => ?_, hraised, ?_⟩
      · refine told_congr (u := heardFrom s .data f) rfl (((htold hidle).after hmoves.raised hacked.raised).told fun n => ?_)
        exact entryBytes_circuit_congr (by rw [circuit_updCircuit_same, circuit_updCircuit_same]; rfl) n _ _
      · have hlist := hwindow 2 (Nat.succ_le_succ hone)
        simpa only [List.append_assoc, circuit_heardFrom] using hlist
    · have hsegment : (heardFrom s .data f).takeAssuredSegment f.dstCircuit f =
          (((heardFrom s .data f).updCircuit f.dstCircuit fun k => { k with discardCount := k.discardCount + 1 }).pokeRecordHalf f.dstCircuit
            recDiscardCount ((s.circuit f.dstCircuit).discardCount + 1)).oweAck f.dstCircuit :=
        (if_neg (not_not.mpr hseq)).trans (if_pos ((freeSlots_eq_zero_iff (s.circuit f.dstCircuit)).mpr hroom))
      obtain ⟨hmoves, hcount⟩ := assuredDiscarded hwf f.dstCircuit
      rw [circuit_heardFrom] at hmoves hcount
      generalize (((heardFrom s .data f).updCircuit f.dstCircuit fun k => { k with discardCount := k.discardCount + 1 }).pokeRecordHalf f.dstCircuit
            recDiscardCount ((s.circuit f.dstCircuit).discardCount + 1)).oweAck f.dstCircuit = u at *
      obtain ⟨v, x, hacked, hexec, hblocks, hothers, horphans, htaken, hshows, hraised, hwindow⟩ :=
        data_acked hmem h hreaches hmode htransfers hsegment hmoves List.not_mem_nil (not_mem_recordBytes (by decide)) (not_mem_recordBytes (by decide))
      refine ⟨_, hexec, hblocks, hothers, horphans, htaken, hshows, ?_⟩
      rw [if_neg (not_not.mpr hseq), if_pos hroom]
      refine ⟨⟨(hacked.record (by decide) (recordOff_not_mem_ackBytes (by decide))).trans hcount.1,
        (hacked.record (off := 0x1D) (by decide) (recordOff_not_mem_ackBytes (by decide))).trans hcount.2⟩, hraised, ?_⟩
      have hlist := hwindow 1 le_rfl
      simpa only [List.append_assoc] using hlist
  · have hsegment : (heardFrom s .data f).takeAssuredSegment f.dstCircuit f = (heardFrom s .data f).oweAck f.dstCircuit := if_pos hseq
    obtain ⟨v, x, -, hexec, hblocks, hothers, horphans, htaken, hshows, hraised, hwindow⟩ := data_acked hmem h hreaches hmode htransfers hsegment
      (.updCircuit hwf f.dstCircuit _) List.not_mem_nil List.not_mem_nil List.not_mem_nil
    refine ⟨_, hexec, hblocks, hothers, horphans, htaken, hshows, ?_⟩
    rw [if_pos hseq, List.append_assoc]
    exact ⟨hraised, hwindow 1 le_rfl⟩

end Sys2Proof.Proofs
end

section
namespace Sys2Proof.Proofs

open Sys2Proof Sys2Proof.Machine Sys2Proof.Claims Sys2Proof.Safety Sys2Proof.Laws

/-! ## A plain segment (R125, R126) -/

/-- The record bytes that the mark of a gap writes. -/
def gapOffsets (k : Circuit) : List Nat := [0x1A, 0x1B] ++ if k.firstGap = none then [0x18, 0x19] else []

theorem markGap_moves {s : State} (hmem : MemoryLaw s) (c : CircuitNo) :
    Moves c s (s.markGap c) (recordBytes c (gapOffsets (s.circuit c))) [] ∧
      shows (s.markGap c) (recordBase c + 0x1A) ((s.circuit c).gapCount + 1) ∧
      ((s.circuit c).firstGap = none → shows (s.markGap c) (recordBase c + 0x18) ((s.circuit c).rxFill.setWidth 16)) := by
  have hfirst := Moves.updCircuit hmem c fun k => { k with gapCount := k.gapCount + 1 }
  unfold State.markGap gapOffsets
  dsimp only
  generalize s.updCircuit c (fun k => { k with gapCount := k.gapCount + 1 }) = u at *
  obtain ⟨hcounted, hcount⟩ := Moves.pokeRecordHalf hfirst.wf c (off := recGapCount) (by decide) ((s.circuit c).gapCount + 1)
  generalize u.pokeRecordHalf c recGapCount ((s.circuit c).gapCount + 1) = v at *
  cases hgap : (s.circuit c).firstGap with
  | some i =>
    rw [if_neg (by simp), List.append_nil]
    exact ⟨hfirst.trans hcounted, hcount, fun h => absurd h (by simp)⟩
  | none =>
    rw [if_pos rfl]
    dsimp only
    have hupdated := Moves.updCircuit hcounted.wf c fun k => { k with firstGap := some k.rxFill }
    generalize v.updCircuit c (fun k => { k with firstGap := some k.rxFill }) = w at *
    obtain ⟨hmarked, hmark⟩ := Moves.pokeRecordHalf hupdated.wf c (off := recFirstGap) (by decide) (firstGapHalf (some (s.circuit c).rxFill))
    generalize w.pokeRecordHalf c recFirstGap (firstGapHalf (some (s.circuit c).rxFill)) = t at *
    have hall := (hfirst.trans hcounted).trans (hupdated.trans hmarked)
    refine ⟨hall, ?_, fun _ => hmark⟩
    have hkept {off : Nat} (hoff : off = 0x1A ∨ off = 0x1B) : t.peek (recordBase c + off) = v.peek (recordBase c + off) := by
      refine (hmarked.record (by omega) ?_).trans (hupdated.record (by omega) List.not_mem_nil)
      rw [record_mem_recordBytes]
      simp [recFirstGap]
      omega
    exact ⟨(hkept (.inl rfl)).trans hcount.1, (hkept (off := 0x1B) (.inr rfl)).trans hcount.2⟩

/-- A plain segment that finds no slot is counted (R125). -/
theorem plainOverrun {s : State} (hmem : MemoryLaw s) (c : CircuitNo) :
    let t := (s.updCircuit c fun k => { k with overrunCount := k.overrunCount + 1 }).pokeRecordHalf c recOverrunCount
      ((s.circuit c).overrunCount + 1)
    Moves c s t (recordBytes c [0x1E, 0x1F]) [] ∧ shows t (recordBase c + 0x1E) ((s.circuit c).overrunCount + 1) := by
  have hfirst := Moves.updCircuit hmem c fun k => { k with overrunCount := k.overrunCount + 1 }
  dsimp only
  generalize s.updCircuit c (fun k => { k with overrunCount := k.overrunCount + 1 }) = u at *
  obtain ⟨hpoked, hshown⟩ := Moves.pokeRecordHalf hfirst.wf c (off := recOverrunCount) (by decide) ((s.circuit c).overrunCount + 1)
  exact ⟨hfirst.trans hpoked, hshown⟩

/-- What the fill of a slot and its notice show, whatever came between the slot and the fill. -/
structure PlainFilled (s t : State) (c : CircuitNo) (f : Frame) (missing : Nat) (offs : List Nat) (due : List NoticePair) : Prop where
  moves : Moves c s t offs due
  slot : slotHolds (s.circuit c) f missing t
  fill : t.peek (recordBase c + 0x17) = (s.circuit c).rxFill + 1
  told : idleAfterFill (s.circuit c) f = none → ToldAs s t (.circuit c .dataIn) fun n => entryBytes t n (.circuit c .dataIn)

theorem plainInSequence {s : State} (hmem : MemoryLaw s) (c : CircuitNo) {f : Frame} (hring : RingAreaLaw (s.circuit c))
    (hroom : hasRoom (s.circuit c)) (hlength : f.payload.length ≤ 252) :
    PlainFilled s (((s.writeSlot c f false 0).advanceFill c f.seq).noticeFill c f.endMark) c f 0
      (slotBytes (s.circuit c) f ++ [recordBase c + 0x17]) (dataInDue (s.circuit c) c f) := by
  obtain ⟨hwritten, hslot⟩ := writeSlot_moves hmem c f (gapped := false) (missing := 0) rfl hring hroom hlength
  have hsame : (s.writeSlot c f false 0).circuit c = s.circuit c := circuit_writeSlot ..
  generalize s.writeSlot c f false 0 = u at *
  obtain ⟨hadvanced, hfill⟩ := advanceFill_moves hwritten.wf c f.seq
  have hcircuit := advanceFill_circuit u c f.seq
  rw [hsame] at hfill hcircuit
  generalize u.advanceFill c f.seq = v at *
  obtain ⟨hnoticed, htold⟩ := noticeFill_moves hadvanced.wf c f.endMark
  have hcircuit' := noticeFill_circuit v c f.endMark
  have hdue : fillPairs (v.circuit c) c f.endMark = dataInDue (s.circuit c) c f :=
    fillPairs_eq_dataInDue (by rw [hcircuit]) (by rw [hcircuit]) (by rw [hcircuit]) c
  rw [hdue] at hnoticed htold
  generalize v.noticeFill c f.endMark = t at *
  have hfront := hwritten.trans hadvanced
  have hall := hfront.trans hnoticed
  rw [List.append_nil] at hall
  refine ⟨hall, ?_, (hnoticed.record (by decide) List.not_mem_nil).trans hfill, fun hidle => ?_⟩
  · refine slotHolds_congr hring hroom hlength (fun a hlow hhigh => ?_) hslot
    exact (hnoticed.slots (by simp) hlow hhigh).trans (hadvanced.slots (record_offs_lt (by decide)) hlow hhigh)
  · have hin : NoticePair.circuit c .dataIn ∈ dataInDue (s.circuit c) c f := by
      rw [dataInDue, if_pos hidle]
      exact List.mem_cons_self
    refine ((htold hin).before hfront.raised hnoticed.raised List.not_mem_nil).congr fun n => ?_
    exact entryBytes_dataIn_congr (by rw [hcircuit']) (by rw [hcircuit']) (by rw [hcircuit']) (by rw [hcircuit']) n

/-- The entry of GAP tells of the four indices and of its count alone. -/
theorem entryBytes_gap_congr {u v : State} {c : CircuitNo} (hdone : (v.circuit c).txDone = (u.circuit c).txDone)
    (hfill : (v.circuit c).rxFill = (u.circuit c).rxFill) (hpost : (v.circuit c).postedCopy = (u.circuit c).postedCopy)
    (hrelease : (v.circuit c).releaseCopy = (u.circuit c).releaseCopy) (n missing : Byte) :
    entryBytes v n (.circuit c .gap) missing = entryBytes u n (.circuit c .gap) missing := by
  simp only [entryBytes, hdone, hfill, hpost, hrelease]

/-- A pair that is not noted and finds room is the next to be noted, with its detail in the entry (R158). -/
theorem ToldAs.detail {s t : State} {p : NoticePair} {entry : Byte → List Byte} (h : ToldAs s t p entry) (hnew : p ∉ s.notice.held)
    (hnext : t.notice.held[s.notice.held.length]? = some p) :
    t.peek (0x0600 + 8 * (s.notice.fill.toNat % 64) + 3) = (entry s.notice.sequence).getD 3 0 := by
  have hshown := h.shows hnew 0 (by decide) hnext 3 (by decide)
  have hzero : s.notice.sequence + BitVec.ofNat 8 0 = s.notice.sequence := by simp
  rw [hzero] at hshown
  exact hshown

theorem held_raiseWith_next {s : State} {p : NoticePair} {detail : Byte} (hnew : p ∉ s.notice.held) (hroom : s.notice.count < 64) :
    (s.raiseWith p detail).notice.held = s.notice.held ++ [p] := by
  obtain ⟨hin, -⟩ | ⟨-, hfull, -⟩ | ⟨-, hfull, -⟩ | ⟨-, -, h⟩ := raiseWith_cases s p detail
  · exact absurd hin hnew
  · exact absurd hfull (Nat.not_le.mpr hroom)
  · exact absurd hfull (Nat.not_le.mpr hroom)
  · rw [h, writeEntry_notice]

/-- A step that raises nothing keeps the noted pairs and their number. -/
theorem notice_of_silent {s t : State} (h : Raised s t []) : t.notice.held = s.notice.held ∧ t.notice.count = s.notice.count := by
  have hnone : newlyNoted s t = [] := List.length_eq_zero_iff.mp (Nat.le_zero.mp h.length_le)
  have hheld := h.held
  have hcount := h.count
  rw [hnone] at hheld hcount
  exact ⟨by rw [hheld, List.append_nil], hcount⟩

theorem gapBytes_lt (k : Circuit) (c : CircuitNo) : ∀ x ∈ recordBytes c (gapOffsets k), x < 0x1000 := fun x hx => by
  obtain ⟨off, hoff, rfl⟩ := mem_recordBytes_iff.mp hx
  have hrange := recordBase_range c
  have : off < 0x40 := by
    unfold gapOffsets at hoff
    split at hoff <;> simp at hoff <;> omega
  omega

/-- What a segment after a gap shows beside its slot. -/
structure GapTaken (s t : State) (c : CircuitNo) (f : Frame) (missing : Nat) : Prop where
  filled : PlainFilled s t c f missing (slotBytes (s.circuit c) f ++ recordBytes c (gapOffsets (s.circuit c)) ++ [recordBase c + 0x17])
    (.circuit c .gap :: dataInDue (s.circuit c) c f)
  count : shows t (recordBase c + 0x1A) ((s.circuit c).gapCount + 1)
  first : (s.circuit c).firstGap = none → shows t (recordBase c + 0x18) ((s.circuit c).rxFill.setWidth 16)
  told : ToldAs s t (.circuit c .gap) fun n => entryBytes t n (.circuit c .gap) (BitVec.ofNat 8 missing)
  next : .circuit c .gap ∉ s.notice.held → s.notice.count < 64 → t.notice.held[s.notice.held.length]? = some (.circuit c .gap)

theorem plainAfterGap {s : State} (hmem : MemoryLaw s) (c : CircuitNo) {f : Frame} {missing : Nat} (hmissing : missing ≠ 0)
    (hring : RingAreaLaw (s.circuit c)) (hroom : hasRoom (s.circuit c)) (hlength : f.payload.length ≤ 252) :
    GapTaken s (((((s.writeSlot c f true missing).markGap c).advanceFill c f.seq).raiseWith (.circuit c .gap)
      (BitVec.ofNat 8 missing)).noticeFill c f.endMark) c f missing := by
  obtain ⟨hwritten, hslot⟩ := writeSlot_moves hmem c f (gapped := true) (missing := missing) (by simp [hmissing]) hring hroom hlength
  have hsame : (s.writeSlot c f true missing).circuit c = s.circuit c := circuit_writeSlot ..
  generalize s.writeSlot c f true missing = u at *
  obtain ⟨hmarked, hcount, hfirst⟩ := markGap_moves hwritten.wf c
  have hcircuit0 := markGap_circuit u c
  rw [hsame] at hmarked hcount hfirst hcircuit0
  generalize u.markGap c = m at *
  obtain ⟨hadvanced, hfill⟩ := advanceFill_moves hmarked.wf c f.seq
  have hcircuit := advanceFill_circuit m c f.seq
  rw [hcircuit0] at hfill hcircuit
  generalize m.advanceFill c f.seq = v at *
  have hraise := Moves.raise hadvanced.wf c (.circuit c .gap) (BitVec.ofNat 8 missing)
  have hgap := toldAs_raiseWith hadvanced.wf (.circuit c .gap) (BitVec.ofNat 8 missing)
  have hsilent := (hwritten.trans hmarked).trans hadvanced
  obtain ⟨hkeptHeld, hkeptCount⟩ := notice_of_silent hsilent.raised
  have hheld := held_raiseWith_next (s := v) (p := .circuit c .gap) (detail := BitVec.ofNat 8 missing)
  have hcircuit1 : (v.raiseWith (.circuit c .gap) (BitVec.ofNat 8 missing)).circuit c = v.circuit c := (raiseWith_only _ _ _).circuit c
  generalize v.raiseWith (.circuit c .gap) (BitVec.ofNat 8 missing) = w at *
  obtain ⟨hnoticed, htold⟩ := noticeFill_moves hraise.wf c f.endMark
  have hcircuit' := noticeFill_circuit w c f.endMark
  have hdue : fillPairs (w.circuit c) c f.endMark = dataInDue (s.circuit c) c f :=
    fillPairs_eq_dataInDue (by rw [hcircuit1, hcircuit]) (by rw [hcircuit1, hcircuit]) (by rw [hcircuit1, hcircuit]) c
  rw [hdue] at hnoticed htold
  generalize w.noticeFill c f.endMark = t at *
  have hall := (hsilent.trans hraise).trans hnoticed
  have hkept {off : Nat} (hoff : off < 0x40) (hne : off ≠ 0x17) : t.peek (recordBase c + off) = m.peek (recordBase c + off) :=
    (hnoticed.record hoff List.not_mem_nil).trans ((hraise.record hoff List.not_mem_nil).trans (hadvanced.record hoff (by simp; omega)))
  refine ⟨⟨?_, ?_, ?_, fun hidle => ?_⟩, ?_, fun hnone => ?_, ?_, fun hnew hcnt => ?_⟩
  · simpa using hall
  · refine slotHolds_congr hring hroom hlength (fun a hlow hhigh => ?_) hslot
    exact (hnoticed.slots (by simp) hlow hhigh).trans ((hraise.slots (by simp) hlow hhigh).trans
      ((hadvanced.slots (record_offs_lt (by decide)) hlow hhigh).trans (hmarked.slots (gapBytes_lt _ c) hlow hhigh)))
  · exact (hnoticed.record (by decide) List.not_mem_nil).trans ((hraise.record (by decide) List.not_mem_nil).trans hfill)
  · have hin : NoticePair.circuit c .dataIn ∈ dataInDue (s.circuit c) c f := by
      rw [dataInDue, if_pos hidle]
      exact List.mem_cons_self
    refine ((htold hin).before (hsilent.trans hraise).raised hnoticed.raised (by simp)).congr fun n => ?_
    exact entryBytes_dataIn_congr (by rw [hcircuit']) (by rw [hcircuit']) (by rw [hcircuit']) (by rw [hcircuit']) n
  · exact ⟨(hkept (by decide) (by decide)).trans hcount.1, (hkept (off := 0x1B) (by decide) (by decide)).trans hcount.2⟩
  · exact ⟨(hkept (by decide) (by decide)).trans (hfirst hnone).1, (hkept (off := 0x19) (by decide) (by decide)).trans (hfirst hnone).2⟩
  · refine (toldAs_between hgap hsilent.raised hraise.raised hnoticed.raised List.not_mem_nil).congr fun n => ?_
    rw [entryWith_gap]
    exact (entryBytes_gap_congr (by rw [hcircuit', hcircuit1]) (by rw [hcircuit', hcircuit1]) (by rw [hcircuit', hcircuit1])
      (by rw [hcircuit', hcircuit1]) n _).symm
  · rw [hnoticed.raised.held, hheld (by rwa [hkeptHeld]) (by rwa [hkeptCount]), hkeptHeld]
    simp

theorem low_not_mem_slotRecord {k : Circuit} (hring : RingAreaLaw k) (hroom : hasRoom k) (f : Frame) (c : CircuitNo) {offs : List Nat}
    {a : Nat} (ha : a < 0x100) : a ∉ slotBytes k f ++ recordBytes c offs := fun hin =>
  (List.mem_append.mp hin).elim (count_not_mem_slot hring hroom f (by omega)) (not_mem_recordBytes ha)

theorem gapList_subset (heard slot raises : List Nat) (k : Circuit) (c : CircuitNo) :
    heard ++ (slot ++ recordBytes c (gapOffsets k) ++ [recordBase c + 0x17] ++ raises) ⊆
      heard ++ slot ++ recordBytes c ([0x17, 0x1A, 0x1B] ++ if k.firstGap = none then [0x18, 0x19] else []) ++ raises := fun a ha => by
  have hoffs : recordBytes c ([0x17, 0x1A, 0x1B] ++ if k.firstGap = none then [0x18, 0x19] else []) =
      (recordBase c + 0x17) :: recordBytes c (gapOffsets k) := rfl
  simp only [hoffs, List.mem_append, List.mem_cons, List.not_mem_nil, or_false] at ha ⊢
  tauto

/-- Settles O31: by whether the segment finds a slot, and whether segments are missing before it. -/
theorem plainSegmentsMarkGaps : Obligations.PlainSegmentsMarkGaps := by
  intro s f hmem h hreaches hmode htransfers hring
  have hwf := heardFrom_wf hmem .data f
  have hlength := payload_le_of_keepsRules (hears_keepsRules h)
  have hdata : (heardFrom s .data f).tableFrame .data f = (heardFrom s .data f).takePlainSegment f.dstCircuit f := by
    rw [(tableFrame_transfers hreaches htransfers).1 h, State.takeData, circuit_heardFrom, hmode]
  have hcircuit : ((heardFrom s .data f).takePlainSegment f.dstCircuit f).circuit f.dstCircuit = plainTaken (s.circuit f.dstCircuit) f :=
    takePlainSegment_circuit (heardFrom s .data f) f.dstCircuit f
  have hone := dataInDue_length (s.circuit f.dstCircuit) f.dstCircuit f
  by_cases hroom : hasRoom (s.circuit f.dstCircuit)
  · have hfree := mt (freeSlots_eq_zero_iff (s.circuit f.dstCircuit)).mp (not_not.mpr hroom)
    by_cases hseq : f.seq = (s.circuit f.dstCircuit).expectedSeq
    · have htaken : (heardFrom s .data f).takePlainSegment f.dstCircuit f =
          (((heardFrom s .data f).writeSlot f.dstCircuit f false 0).advanceFill f.dstCircuit f.seq).noticeFill f.dstCircuit f.endMark :=
        (if_neg hfree).trans (if_pos (distance_eq_zero_iff.mpr hseq))
      have hfilled := plainInSequence (f := f) hwf f.dstCircuit hring hroom hlength
      rw [htaken] at hdata hcircuit
      generalize (((heardFrom s .data f).writeSlot f.dstCircuit f false 0).advanceFill f.dstCircuit f.seq).noticeFill f.dstCircuit f.endMark = v at *
      obtain ⟨hmoves, hslot, hfill, htold⟩ := hfilled
      obtain ⟨x, hexec, hblocks, hothers, horphans, hraised, hwindow⟩ := frame_moves hmem h (by decide) hdata hmoves
        (low_not_mem_slotRecord hring hroom f f.dstCircuit (offs := [0x17]) (by decide))
        (low_not_mem_slotRecord hring hroom f f.dstCircuit (offs := [0x17]) (by decide))
      refine ⟨_, hexec, hblocks, hothers, horphans, hcircuit, ?_⟩
      rw [if_neg (not_not.mpr hroom), if_pos hseq]
      refine ⟨?_, hfill, fun hidle => told_congr (u := heardFrom s .data f) rfl ((htold hidle).told fun n => rfl), hraised, ?_⟩
      · rw [distance_eq_zero_iff.mpr hseq]
        exact hslot
      · have hlist := hwindow 1 hone
        simpa only [List.append_assoc, circuit_heardFrom] using hlist
    · have hmissing : distance (s.circuit f.dstCircuit).expectedSeq f.seq ≠ 0 := mt distance_eq_zero_iff.mp hseq
      have htaken : (heardFrom s .data f).takePlainSegment f.dstCircuit f =
          ((((((heardFrom s .data f).writeSlot f.dstCircuit f true (distance (s.circuit f.dstCircuit).expectedSeq f.seq)).markGap f.dstCircuit).advanceFill
            f.dstCircuit f.seq).raiseWith (.circuit f.dstCircuit .gap)
            (BitVec.ofNat 8 (distance (s.circuit f.dstCircuit).expectedSeq f.seq))).noticeFill f.dstCircuit f.endMark) :=
        (if_neg hfree).trans (if_neg hmissing)
      have hgapped := plainAfterGap (f := f) hwf f.dstCircuit hmissing hring hroom hlength
      rw [htaken] at hdata hcircuit
      generalize ((((((heardFrom s .data f).writeSlot f.dstCircuit f true (distance (s.circuit f.dstCircuit).expectedSeq f.seq)).markGap f.dstCircuit).advanceFill
            f.dstCircuit f.seq).raiseWith (.circuit f.dstCircuit .gap)
            (BitVec.ofNat 8 (distance (s.circuit f.dstCircuit).expectedSeq f.seq))).noticeFill f.dstCircuit f.endMark) = v at *
      obtain ⟨⟨hmoves, hslot, hfill, htold⟩, hcount, hfirst, hgap, hnext⟩ := hgapped
      have hout {a : Nat} (ha : a < 0x100) : a ∉ slotBytes (s.circuit f.dstCircuit) f ++
          recordBytes f.dstCircuit (gapOffsets (s.circuit f.dstCircuit)) ++ [recordBase f.dstCircuit + 0x17] := fun hin =>
        (List.mem_append.mp hin).elim (low_not_mem_slotRecord hring hroom f f.dstCircuit ha) (not_mem_recordBytes (offs := [0x17]) ha)
      obtain ⟨x, hexec, hblocks, hothers, horphans, hraised, hwindow⟩ := frame_moves hmem h (by decide) hdata hmoves
        (hout (by decide)) (hout (by decide))
      refine ⟨_, hexec, hblocks, hothers, horphans, hcircuit, ?_⟩
      rw [if_neg (not_not.mpr hroom), if_neg hseq]
      refine ⟨hslot, hfill, fun hidle => told_congr (u := heardFrom s .data f) rfl ((htold hidle).told fun n => rfl), hcount, hfirst, hraised,
        told_congr (u := heardFrom s .data f) rfl (hgap.told fun n => rfl), fun hnew hspare => hgap.detail hnew (hnext hnew hspare), ?_⟩
      have hlist := hwindow 2 (Nat.succ_le_succ hone)
      exact sameWindow_mono hlist (gapList_subset heardBytes (slotBytes (s.circuit f.dstCircuit) f) (raiseBytes s 2) (s.circuit f.dstCircuit) f.dstCircuit)
  · have htaken : (heardFrom s .data f).takePlainSegment f.dstCircuit f =
        ((heardFrom s .data f).updCircuit f.dstCircuit fun k => { k with overrunCount := k.overrunCount + 1 }).pokeRecordHalf f.dstCircuit
          recOverrunCount ((s.circuit f.dstCircuit).overrunCount + 1) := if_pos ((freeSlots_eq_zero_iff (s.circuit f.dstCircuit)).mpr hroom)
    obtain ⟨hmoves, hcount⟩ := plainOverrun hwf f.dstCircuit
    rw [circuit_heardFrom] at hmoves hcount
    have hnotice : ((heardFrom s .data f).takePlainSegment f.dstCircuit f).notice = s.notice := by rw [htaken]; rfl
    rw [htaken] at hdata hcircuit hnotice
    generalize ((heardFrom s .data f).updCircuit f.dstCircuit fun k => { k with overrunCount := k.overrunCount + 1 }).pokeRecordHalf f.dstCircuit
          recOverrunCount ((s.circuit f.dstCircuit).overrunCount + 1) = v at *
    obtain ⟨x, hexec, hblocks, hothers, horphans, -, hwindow⟩ := frame_moves hmem h (by decide) hdata hmoves
      (not_mem_recordBytes (by decide)) (not_mem_recordBytes (by decide))
    refine ⟨_, hexec, hblocks, hothers, horphans, hcircuit, ?_⟩
    rw [if_pos hroom]
    refine ⟨hcount, hnotice, ?_⟩
    have hlist := hwindow 0 le_rfl
    simpa only [raiseBytes, if_true, List.append_nil] using hlist

end Sys2Proof.Proofs
end

section
namespace Sys2Proof.Proofs

open Sys2Proof Sys2Proof.Machine Sys2Proof.Claims Sys2Proof.Safety Sys2Proof.Laws

/-! ## The collided report (R16, R48, R54) -/

theorem pastLifetime_eq (s : State) (c : CircuitNo) (life : Nat) : s.pastLifetime c life = !stillOf s c life := by
  rw [State.pastLifetime, stillOf, Bool.eq_iff_iff]
  simp only [Bool.or_eq_true, beq_iff_eq, bne_iff_ne, Bool.not_eq_true', decide_eq_false_iff_not]
  tauto

theorem restored_eq (k : Circuit) (d : Discharged) : k.restored d = afterCollided k d := by
  unfold Circuit.restored afterCollided
  cases h : k.controlOwed <;> simp

theorem ownerCollided_eq (s : State) (f : FlightFrame) : s.ownerCollided f = { s with
    orphans.entries := if f.owner = .orphanList then s.orphans.entries.map fun o => { o with inFlight := false } else s.orphans.entries
    circuits := (s.ownerCollided f).circuits } := by
  unfold State.ownerCollided
  cases h : f.owner with
  | roster => rfl
  | orphanList => rfl
  | circuit c life =>
    dsimp only
    split <;> rfl

theorem ownerCollided_circuit (s : State) (f : FlightFrame) (d : CircuitNo) : (s.ownerCollided f).circuit d = match f.owner with
    | .circuit c life => if d = c ∧ stillOf s c life = true then afterCollided (s.circuit d) f.discharged else s.circuit d
    | _ => s.circuit d := by
  unfold State.ownerCollided
  cases h : f.owner with
  | roster => rfl
  | orphanList => rfl
  | circuit c life =>
    dsimp only
    rw [pastLifetime_eq]
    cases hstill : stillOf s c life with
    | false => simp
    | true =>
      by_cases hd : d = c
      · subst hd
        simp [circuit_updCircuit_same, restored_eq]
      · rw [if_neg (show ¬(!true) = true by decide), if_neg fun hand => hd hand.1]
        exact (updCircuit_only s c _).others d hd

theorem countCollision_eq (s : State) : s.countCollision = { s with
    quality := { s.quality with ownCollisions := s.quality.ownCollisions + 1, k := countUp s.quality.k }
    window := s.countCollision.window } := rfl

theorem countCollision_shows {s : State} (hmem : MemoryLaw s) :
    shows s.countCollision 0x24 (s.quality.ownCollisions + 1) ∧ shows s.countCollision 0x28 (countUp s.quality.k) ∧
      sameWindow s s.countCollision [0x24, 0x25, 0x28, 0x29] := by
  obtain ⟨hown, hwindow, hmem'⟩ := pokeHalf_shows (s := { s with
    quality.ownCollisions := s.quality.ownCollisions + 1, quality.k := countUp s.quality.k }) hmem (a := 0x24) (by decide)
    (s.quality.ownCollisions + 1)
  obtain ⟨hk, hwindow', -⟩ := pokeHalf_shows hmem' (a := 0x28) (by decide) (countUp s.quality.k)
  exact ⟨shows_of_sameWindow hwindow' (by decide) (by decide) (by decide) hown, hk, sameWindow_trans hwindow hwindow'⟩

/-- The driver is released, nothing is in flight, and the collision is counted (R16, R48). -/
def collidedBase (s : State) : State := ({ s with
      line := s.line.afterOwnFrame s.quietAfterCollision
      selector.inFlight := none
      arbiter.collisions := min Config.muteCollisions (s.arbiter.collisions + 1) } : State).countCollision

theorem collidedBase_shows {s : State} (hmem : MemoryLaw s) :
    shows (collidedBase s) 0x24 (s.quality.ownCollisions + 1) ∧
      shows (collidedBase s) 0x28 (if s.quality.k = 0xFFFF then 0xFFFF else s.quality.k + 1) ∧
      sameWindow s (collidedBase s) [0x24, 0x25, 0x28, 0x29] := by
  rw [← countUp_eq]
  exact countCollision_shows (s := { s with
      line := s.line.afterOwnFrame s.quietAfterCollision
      selector.inFlight := none
      arbiter.collisions := min Config.muteCollisions (s.arbiter.collisions + 1) }) hmem

/-- The collided report before the muting that it may bring. -/
def collided (s : State) (f : FlightFrame) : State :=
  (((collidedBase s).ownerCollided f).setFullNext).frameEnd none

theorem exec_frameCollided {s : State} {f : FlightFrame} (hline : s.line.state = .stopped) (hf : s.selector.inFlight = some f) :
    exec .frameCollided s = .next (collided s f).muteIfDue := congrArg Host.Outcome.next (frameCollided_eq hline hf)

theorem collided_eq {s : State} (f : FlightFrame) (hbusy : s.arbiter.state = .busy) : collided s f = { s with
    line := releasedLine s.line (if 20 ≤ s.line.quiet then 20 else 0)
    quality := { s.quality with
      ownCollisions := s.quality.ownCollisions + 1
      k := if s.quality.k = 0xFFFF then 0xFFFF else s.quality.k + 1 }
    arbiter := roundBegun s { s.arbiter with fullNext := true, collisions := min 16 (s.arbiter.collisions + 1) }
    selector.inFlight := none
    orphans.entries := if f.owner = .orphanList then s.orphans.entries.map fun o => { o with inFlight := false } else s.orphans.entries
    circuits := (collided s f).circuits
    window := (collided s f).window } := by
  unfold collided collidedBase
  rw [← countUp_eq, frameEnd_none, ownerCollided_eq, countCollision_eq]
  simp only [State.setFullNext]
  rw [if_pos hbusy]
  rfl

theorem collided_peek (s : State) (f : FlightFrame) (a : Nat) : (collided s f).peek a = (collidedBase s).peek a := by
  unfold collided
  rw [frameEnd_none, ownerCollided_eq]
  rfl

theorem collided_circuit (s : State) (f : FlightFrame) (d : CircuitNo) : (collided s f).circuit d = match f.owner with
    | .circuit c life => if d = c ∧ stillOf s c life = true then afterCollided (s.circuit d) f.discharged else s.circuit d
    | _ => s.circuit d := by
  have h := ownerCollided_circuit (collidedBase s) f d
  unfold collided
  rw [frameEnd_none]
  exact h

theorem ownerCollided_station (u : State) (f : FlightFrame) (st : StationState) :
    ({ u with station.state := st } : State).ownerCollided f = { u.ownerCollided f with station.state := st } := by
  unfold State.ownerCollided
  cases f.owner with
  | roster => rfl
  | orphanList => rfl
  | circuit c life =>
    have hpast : ({ u with station.state := st } : State).pastLifetime c life = u.pastLifetime c life := rfl
    dsimp only
    rw [hpast]
    cases u.pastLifetime c life <;> rfl

/-- The state of the station does not enter the report but in the muting. -/
theorem collided_station (s : State) (f : FlightFrame) (st : StationState) :
    collided { s with station.state := st } f = { collided s f with station.state := st } := by
  have hbase : collidedBase { s with station.state := st } = { collidedBase s with station.state := st } := rfl
  unfold collided
  rw [hbase, ownerCollided_station]
  generalize (collidedBase s).ownerCollided f = v
  rw [frameEnd_none, frameEnd_none]
  rfl

/-- Settles O45: the report without the muting; the sixteenth collision in a row in ACTIVE then mutes. -/
theorem collidedReportRestoresAndMutes : Obligations.CollidedReportRestoresAndMutes := by
  refine ⟨fun s hmem hline hbusy hfew f hf => ?_, fun s hline hflight hbusy hactive => ?_⟩
  · have heq := collided_eq f hbusy
    obtain ⟨hown, hk, hwindow⟩ := collidedBase_shows hmem
    have hpeek := collided_peek s f
    have hcircuit := collided_circuit s f
    have hexec := exec_frameCollided hline hf
    generalize (collidedBase s) = u at *
    generalize collided s f = t at *
    have hnot : t.muteIfDue = t := by
      refine if_neg fun ⟨hactive, hcount⟩ => ?_
      rw [heq] at hactive hcount
      have hcount' : min 16 (s.arbiter.collisions + 1) = 16 := hcount
      obtain hne | hlt := hfew
      · exact hne hactive
      · omega
    rw [hnot] at hexec
    have hquality : t.quality.k = if s.quality.k = 0xFFFF then 0xFFFF else s.quality.k + 1 := by rw [heq]
    refine ⟨t, hexec, heq, hcircuit, ⟨(hpeek _).trans hown.1, (hpeek _).trans hown.2⟩, ?_, fun a ha hout => (hpeek a).trans (hwindow a ha hout)⟩
    rw [hquality]
    exact ⟨(hpeek _).trans hk.1, (hpeek _).trans hk.2⟩
  · obtain ⟨f, hf⟩ := Option.ne_none_iff_exists'.mp hflight
    have hjoining := exec_frameCollided (s := { s with station.state := .joining }) (f := f) hline hf
    rw [collided_station] at hjoining
    have hst : (collided s f).station = s.station := by rw [collided_eq f hbusy]
    rw [exec_frameCollided hline hf, hjoining]
    generalize collided s f = t at *
    have hnot : ({ t with station.state := .joining } : State).muteIfDue = { t with station.state := .joining } :=
      if_neg fun h => by cases h.1
    rw [hnot, thenMuted]
    have hback : ({ ({ t with station.state := .joining } : State) with station.state := .active } : State) = t := by
      have hsame : ({ t.station with state := .active } : Station) = t.station := by rw [hst, ← hactive]
      show ({ t with station := { t.station with state := .active } } : State) = t
      rw [hsame]
    show _ = exec .enterMuted { ({ t with station.state := .joining } : State) with station.state := .active }
    rw [hback, exec_enterMuted]
    rfl

end Sys2Proof.Proofs
end

section
namespace Sys2Proof.Proofs

open Sys2Proof Sys2Proof.Machine Sys2Proof.Claims Sys2Proof.Safety Sys2Proof.Laws

/-! ## The sent report at its circuit (R54) -/

theorem plainDataSent_eq (s : State) (c : CircuitNo) : s.plainDataSent c =
    slotsReleased (s.updCircuit c fun k => { k with nextSeq := k.nextSeq + 1, txDone := k.txDone + 1 }) c (s.circuit c).postedSpan := rfl

theorem plainDataSent_circuit (s : State) (c : CircuitNo) : (s.plainDataSent c).circuit c =
    if (s.circuit c).state = .draining ∧ (s.circuit c).txDone + 1 = (s.circuit c).drainTarget then
      clearingFrom { s.circuit c with nextSeq := (s.circuit c).nextSeq + 1, txDone := (s.circuit c).txDone + 1 }
    else { s.circuit c with nextSeq := (s.circuit c).nextSeq + 1, txDone := (s.circuit c).txDone + 1 } := by
  rw [plainDataSent_eq, slotsReleased, testDrain_circuit, circuit_noticeRelease, circuit_pokeRecord, circuit_updCircuit_same]

theorem newDataSent_eq (k : Circuit) (f : FlightFrame) : k.newDataSent f = { announcedBy k f with
    nextSeq := k.nextSeq + 1
    dataRetryTimer := some (k.dataRetryTimer.getD 0) } := by
  unfold Circuit.newDataSent
  cases k.dataRetryTimer <;> rfl

theorem afterSent_newData {k : Circuit} {f : FlightFrame} (huse : f.use = .newData) (htransfers : k.state.transfers = true) :
    afterSent k f = if k.mode = .assured then { k.newDataSent f with probeTimer := probeOf (k.newDataSent f) }
      else if k.state = .draining ∧ k.txDone + 1 = k.drainTarget then clearingFrom { k with nextSeq := k.nextSeq + 1, txDone := k.txDone + 1 }
      else { k with nextSeq := k.nextSeq + 1, txDone := k.txDone + 1 } := by
  obtain ⟨st, hst⟩ : ∃ st, k.state = st := ⟨_, rfl⟩
  rw [newDataSent_eq]
  unfold afterSent
  cases st <;> simp only [hst, CircuitState.transfers, Bool.false_eq_true] at htransfers <;> rw [huse, hst]

theorem afterSent_stays {k : Circuit} {f : FlightFrame} (huse : f.use = .newData) (htransfers : k.state.transfers = false) :
    afterSent k f = k := by
  obtain ⟨st, hst⟩ : ∃ st, k.state = st := ⟨_, rfl⟩
  unfold afterSent
  cases st <;> simp only [hst, CircuitState.transfers, Bool.true_eq_false] at htransfers <;> rw [huse, hst]

theorem circuitSent_newData (s : State) (c : CircuitNo) {f : FlightFrame} (huse : f.use = .newData) : s.circuitSent c f =
    if (s.circuit c).state.transfers = true then
      if (s.circuit c).mode = .assured then (s.updCircuit c fun k => k.newDataSent f).testStall c else s.plainDataSent c
    else s := by
  unfold State.circuitSent
  simp only [huse]
  cases (s.circuit c).mode <;> rfl

theorem circuitSent_circuit_newData (s : State) (c : CircuitNo) {f : FlightFrame} (huse : f.use = .newData) :
    (s.circuitSent c f).circuit c = afterSent (s.circuit c) f := by
  rw [circuitSent_newData s c huse]
  cases htransfers : (s.circuit c).state.transfers with
  | false => rw [afterSent_stays huse htransfers, if_neg (by decide)]
  | true =>
    rw [afterSent_newData huse htransfers, if_pos rfl]
    by_cases hmode : (s.circuit c).mode = .assured
    · rw [if_pos hmode, if_pos hmode]
      exact (testStall_circuit _ c).trans (by rw [circuit_updCircuit_same])
    · rw [if_neg hmode, if_neg hmode]
      exact plainDataSent_circuit s c

theorem circuitSent_circuit (s : State) (c : CircuitNo) (f : FlightFrame) : (s.circuitSent c f).circuit c = afterSent (s.circuit c) f := by
  cases huse : f.use with
  | newData => exact circuitSent_circuit_newData s c huse
  | control kind =>
    unfold State.circuitSent afterSent
    cases kind <;> cases hs : (s.circuit c).state <;> simp [hs, huse, Circuit.sentOnce]
  | call =>
    unfold State.circuitSent afterSent
    cases hs : (s.circuit c).state <;> simp [hs, huse, Circuit.sentOnce]
  | resend q =>
    unfold State.circuitSent afterSent
    cases hs : (s.circuit c).state <;> simp [hs, huse, CircuitState.transfers, Circuit.resendSent, Circuit.announced]
  | ack =>
    unfold State.circuitSent afterSent
    cases hs : (s.circuit c).state <;> simp [hs, huse, Circuit.announced, CircuitState.transfers]
  | orphan =>
    unfold State.circuitSent afterSent
    simp only [huse]
  | roll =>
    unfold State.circuitSent afterSent
    simp only [huse]

/-- The bytes of a record that a sent report writes. -/
def circuitSentBytes (k : Circuit) (c : CircuitNo) (f : FlightFrame) : List Nat :=
  if f.use = .newData ∧ k.mode = .plain then recordBytes c [0x00, 0x16] else []

/-- What a sent report shows of its circuit. -/
structure SentMoved (s t : State) (c : CircuitNo) (f : FlightFrame) : Prop where
  moves : Moves c s t (circuitSentBytes (s.circuit c) c f) (spaceOutDue (s.circuit c) (t.circuit c) c)
  done : (t.circuit c).txDone ≠ (s.circuit c).txDone → t.peek (recordBase c + 0x16) = (t.circuit c).txDone
  state : (t.circuit c).txDone ≠ (s.circuit c).txDone → (t.circuit c).state ≠ (s.circuit c).state → t.peek (recordBase c) = 5
  told : NoticePair.circuit c .spaceOut ∈ spaceOutDue (s.circuit c) (t.circuit c) c →
    ToldAs s t (.circuit c .spaceOut) fun n => entryBytes t n (.circuit c .spaceOut)

/-- A report that releases no slot shows nothing. -/
theorem SentMoved.of_same {s t : State} {c : CircuitNo} {f : FlightFrame} (hmoves : Moves c s t [] [])
    (hdone : (t.circuit c).txDone = (s.circuit c).txDone) : SentMoved s t c f := by
  have hnone := spaceOutDue_same _ hdone c
  refine ⟨?_, fun hne => absurd hdone hne, fun hne => absurd hdone hne, fun hin => ?_⟩
  · rw [hnone]
    exact ⟨hmoves.only, hmoves.orphans, hmoves.flight, hmoves.wf, hmoves.raised, hmoves.window_le (List.nil_subset _) (by simp)⟩
  · rw [hnone] at hin
    exact absurd hin List.not_mem_nil

/-- Any report but that of a new DATA changes the context alone. -/
theorem circuitSent_context (s : State) (c : CircuitNo) {f : FlightFrame} (huse : f.use ≠ .newData) :
    ∃ g : Circuit → Circuit, s.circuitSent c f = s.updCircuit c g := by
  have hnone : s = s.updCircuit c fun k => k := (updCircuit_same s c).symm
  unfold State.circuitSent
  cases h : f.use with
  | newData => exact absurd h huse
  | control kind =>
    cases kind with
    | clear => dsimp only; split <;> [exact ⟨_, rfl⟩; exact ⟨_, hnone⟩]
    | answer => exact ⟨_, hnone⟩
    | confirm => exact ⟨_, hnone⟩
  | call => dsimp only; split <;> [exact ⟨_, rfl⟩; exact ⟨_, hnone⟩]
  | resend q => dsimp only; split <;> [exact ⟨_, rfl⟩; exact ⟨_, hnone⟩]
  | ack => dsimp only; split <;> [exact ⟨_, rfl⟩; exact ⟨_, hnone⟩]
  | orphan => exact ⟨_, hnone⟩
  | roll => exact ⟨_, hnone⟩

/-- Only a plain new DATA counts as done when it is sent. -/
theorem afterSent_txDone {k : Circuit} {f : FlightFrame} (h : f.use ≠ .newData ∨ k.mode = .assured) :
    (afterSent k f).txDone = k.txDone := by
  unfold afterSent
  split
  · rfl
  · rfl
  · next huse _ =>
    rw [if_pos (h.resolve_left (absurd huse))]
  · next huse _ =>
    rw [if_pos (h.resolve_left (absurd huse))]
  all_goals rfl

theorem plainDataSent_moved {s : State} (hmem : MemoryLaw s) (c : CircuitNo) {f : FlightFrame} (huse : f.use = .newData)
    (hplain : (s.circuit c).mode = .plain) : SentMoved s (s.plainDataSent c) c f := by
  have hcircuit := plainDataSent_circuit s c
  have hbytes : circuitSentBytes (s.circuit c) c f = recordBytes c [0x00, 0x16] := if_pos ⟨huse, hplain⟩
  rw [plainDataSent_eq] at *
  have hfirst := Moves.updCircuit hmem c fun k => { k with nextSeq := k.nextSeq + 1, txDone := k.txDone + 1 }
  have hk := circuit_updCircuit_same s c fun k => { k with nextSeq := k.nextSeq + 1, txDone := k.txDone + 1 }
  generalize s.updCircuit c (fun k => { k with nextSeq := k.nextSeq + 1, txDone := k.txDone + 1 }) = u at *
  have hshown := slotsReleased_shows hfirst.wf c (s.circuit c).postedSpan
  generalize slotsReleased u c (s.circuit c).postedSpan = t at *
  have hfields : (t.circuit c).txDone = (u.circuit c).txDone ∧ (t.circuit c).rxFill = (u.circuit c).rxFill ∧
      (t.circuit c).postedCopy = (u.circuit c).postedCopy ∧ (t.circuit c).releaseCopy = (u.circuit c).releaseCopy := by
    rw [hcircuit, hk]
    split <;> exact ⟨rfl, rfl, rfl, rfl⟩
  obtain ⟨hdone, hfill, hpost, hrelease⟩ := hfields
  have hdue : releasePairs (u.circuit c) c (s.circuit c).postedSpan = spaceOutDue (s.circuit c) (t.circuit c) c := by
    unfold releasePairs spaceOutDue
    rw [hdone, hk]
    rfl
  have htold := hshown.told
  have hmoves := hshown.moves
  rw [hdue] at htold hmoves
  have hall := hfirst.trans hmoves
  rw [List.nil_append, List.nil_append] at hall
  refine ⟨⟨hall.only, hall.orphans, hall.flight, hall.wf, hall.raised, hall.window_le ?_ (Nat.le_refl _)⟩, fun _ => ?_, fun _ hne => ?_, fun hin => ?_⟩
  · rw [hbytes]
    intro a ha
    obtain ha | ha := List.mem_append.mp ha
    · rw [List.mem_singleton.mp ha]
      exact record_mem_recordBytes.mpr (by decide)
    · split at ha
      · rw [List.mem_singleton.mp ha]
        exact record_mem_recordBytes.mpr (show 0 ∈ _ by decide)
      · exact absurd ha List.not_mem_nil
  · rw [hdone]
    exact hshown.done
  · refine hshown.state ?_
    rw [hk]
    exact hne
  · refine ((htold hin).before hfirst.raised hmoves.raised List.not_mem_nil).congr fun n => ?_
    exact (entryBytes_spaceOut_congr hdone hfill hpost hrelease n).symm

theorem circuitSent_moved {s : State} (hmem : MemoryLaw s) (c : CircuitNo) (f : FlightFrame) : SentMoved s (s.circuitSent c f) c f := by
  have hcircuit := circuitSent_circuit s c f
  by_cases huse : f.use = .newData
  · cases hmode : (s.circuit c).mode with
    | plain =>
      rw [circuitSent_newData s c huse, if_neg (show ¬(s.circuit c).mode = .assured by rw [hmode]; decide)]
      split
      · exact plainDataSent_moved hmem c huse hmode
      · exact .of_same (.refl hmem c) rfl
    | assured =>
      refine .of_same ?_ (by rw [hcircuit, afterSent_txDone (.inr hmode)])
      rw [circuitSent_newData s c huse, if_pos hmode]
      split
      · exact (Moves.updCircuit hmem c _).trans (testStall_moves (s := s.updCircuit c _) hmem c)
      · exact .refl hmem c
  · refine .of_same ?_ (by rw [hcircuit, afterSent_txDone (.inl huse)])
    obtain ⟨g, hg⟩ := circuitSent_context s c huse
    rw [hg]
    exact .updCircuit hmem c g

end Sys2Proof.Proofs
end

section
namespace Sys2Proof.Proofs

open Sys2Proof Sys2Proof.Machine Sys2Proof.Claims Sys2Proof.Safety Sys2Proof.Laws

/-! ## The sent report (R16, R28, R31, R48, R54) -/

/-- The driver is released, nothing is in flight, and the frame is counted. -/
def sentBase (s : State) : State := (sentIdle s).countSent.ownFrameSent

theorem sentBase_shows {s : State} (hmem : MemoryLaw s) : shows (sentBase s) 0x1C (s.quality.framesSent + 1) ∧
    sameWindow s (sentBase s) [0x1C, 0x1D] ∧ MemoryLaw (sentBase s) := by
  obtain ⟨hshown, hwindow, hmem'⟩ := pokeHalf_shows (s := { sentIdle s with
    quality.framesSent := s.quality.framesSent + 1 }) hmem (a := 0x1C) (by decide) (s.quality.framesSent + 1)
  exact ⟨hshown, hwindow, hmem'⟩

theorem sentBase_eq {s : State} (hloop : s.station.loop = false) : sentBase s = { s with
    line := releasedLine s.line 0
    quality.framesSent := s.quality.framesSent + 1
    roster.silence := 0
    arbiter.collisions := 0
    selector := ⟨s.selector.pointer, false, none⟩
    window := (sentBase s).window } := by
  have hquiet : s.quietAfterSent = 0 := if_neg (by rw [hloop]; decide)
  unfold sentBase sentIdle
  rw [hquiet]
  rfl

/-- The bytes that a sent report writes in the record of its owner. -/
def ownerBytes (s : State) (f : FlightFrame) : List Nat :=
  match f.owner with
  | .circuit c _ => circuitSentBytes (s.circuit c) c f
  | _ => []

/-- What a sent report shows at its owner. -/
structure OwnerTold (s t : State) (f : FlightFrame) : Prop where
  eq : t = { s with
    selector.pointer := match f.owner with
      | .circuit c _ => if f.use ≠ .newData then s.selector.pointer else s.pointerAfter c
      | _ => s.selector.pointer
    orphans.entries := if f.owner = .orphanList then s.orphans.entries.filter fun o => !o.inFlight else s.orphans.entries
    circuits := t.circuits
    notice := t.notice
    window := t.window }
  circuit : ∀ d, t.circuit d = match f.owner with
    | .circuit c life => if d = c ∧ stillOf s c life = true then afterSent (s.circuit d) f else s.circuit d
    | _ => s.circuit d
  wf : MemoryLaw t
  raised : Raised s t (allCircuits.flatMap fun c => spaceOutDue (s.circuit c) (t.circuit c) c)
  window : sameWindow s t (ownerBytes s f ++ raiseBytes s 1)
  done : ∀ c, (t.circuit c).txDone ≠ (s.circuit c).txDone → t.peek (recordBase c + 0x16) = (t.circuit c).txDone
  state : ∀ c, (t.circuit c).txDone ≠ (s.circuit c).txDone → (t.circuit c).state ≠ (s.circuit c).state → t.peek (recordBase c) = 5
  told : ∀ c, NoticePair.circuit c .spaceOut ∈ spaceOutDue (s.circuit c) (t.circuit c) c →
    ToldAs s t (.circuit c .spaceOut) fun n => entryBytes t n (.circuit c .spaceOut)

/-- A report that reaches no circuit tells nothing. -/
theorem ownerTold_of_same {s t : State} {f : FlightFrame} (hmem : MemoryLaw s) (heq : t = { s with
    selector.pointer := match f.owner with
      | .circuit c _ => if f.use ≠ .newData then s.selector.pointer else s.pointerAfter c
      | _ => s.selector.pointer
    orphans.entries := if f.owner = .orphanList then s.orphans.entries.filter fun o => !o.inFlight else s.orphans.entries })
    (hcircuit : ∀ d, s.circuit d = match f.owner with
      | .circuit c life => if d = c ∧ stillOf s c life = true then afterSent (s.circuit d) f else s.circuit d
      | _ => s.circuit d) : OwnerTold s t f := by
  have hsame (d : CircuitNo) : t.circuit d = s.circuit d := by rw [heq]; rfl
  have hwindow : t.window = s.window := by rw [heq]
  have hnotice : t.notice = s.notice := by rw [heq]
  refine ⟨?_, fun d => (hsame d).trans (hcircuit d), ?_, ?_, ?_, fun c h => absurd (by rw [hsame]) h, fun c h => absurd (by rw [hsame]) h, fun c hin => ?_⟩
  · subst heq
    rfl
  · show MemoryLaw t
    unfold MemoryLaw
    rw [hwindow]
    exact hmem
  · exact (Raised.silent (offs := []) hnotice (sameWindow_of_window hwindow) (by simp)).mono (List.nil_subset _)
  · exact sameWindow_mono (sameWindow_of_window hwindow) (List.nil_subset _)
  · rw [spaceOutDue_same _ (congrArg Circuit.txDone (hsame c))] at hin
    exact absurd hin List.not_mem_nil

theorem flatMap_subset_of_mem {α β : Type} {l : List α} {a : α} (h : a ∈ l) (g : α → List β) : g a ⊆ l.flatMap g :=
  fun _ hb => List.mem_flatMap.mpr ⟨a, h, hb⟩

theorem ToldAs.congr_start {s w t : State} {p : NoticePair} {entry : Byte → List Byte} (h : ToldAs w t p entry)
    (hnotice : w.notice = s.notice) : ToldAs s t p entry :=
  ⟨h.noted, fun hp k hk hat i hi => by
    rw [← hnotice] at *
    exact h.shows hp k hk hat i hi⟩

/-- A report at a circuit of the lifetime it was built for. -/
theorem ownerTold_of_moved {s t : State} {f : FlightFrame} {c : CircuitNo} {life : Nat} (howner : f.owner = .circuit c life)
    (hstill : stillOf s c life = true) (hnone : s.selector.inFlight = none) (h : SentMoved (pointerMoved s c f) t c f)
    (hcircuit : t.circuit c = afterSent (s.circuit c) f) : OwnerTold s t f := by
  have hpointer := pointerMoved_eq s c f
  have hk (d : CircuitNo) : (pointerMoved s c f).circuit d = s.circuit d := by rw [hpointer]; rfl
  have hnotice : (pointerMoved s c f).notice = s.notice := by rw [hpointer]
  have hwin : (pointerMoved s c f).window = s.window := by rw [hpointer]
  generalize pointerMoved s c f = w at *
  have hothers (d : CircuitNo) (hd : d ≠ c) : t.circuit d = s.circuit d := (h.moves.only.others d hd).trans (hk d)
  have heq := circuitsOnly_eq h.moves.only.rest
  have horphans := h.moves.orphans
  have hselector := h.moves.flight (by rw [hpointer]; exact hnone)
  have hraised := h.moves.raised.after_silent (s := s) (offs := []) hnotice (sameWindow_of_window hwin) (by simp [OffNotice])
  have hwindow := h.moves.window
  have hwf := h.moves.wf
  obtain ⟨-, hdone, hstate, htold⟩ := h
  rw [hk] at hdone hstate htold hraised hwindow
  rw [raiseBytes_congr (congrArg Notice.fill hnotice)] at hwindow
  have hdue : spaceOutDue (s.circuit c) (t.circuit c) c ⊆ allCircuits.flatMap fun c => spaceOutDue (s.circuit c) (t.circuit c) c :=
    flatMap_subset_of_mem (mem_allCircuits c) fun c => spaceOutDue (s.circuit c) (t.circuit c) c
  have hof {d : CircuitNo} (hne : t.circuit d ≠ s.circuit d) : d = c := by
    by_contra hd
    exact hne (hothers d hd)
  refine ⟨?_, fun d => ?_, hwf, hraised.mono hdue, ?_, fun d hne => ?_, fun d hne => ?_, fun d hin => ?_⟩
  · rw [horphans, hselector] at heq
    rw [howner]
    refine heq.trans ?_
    rw [hpointer]
    by_cases huse : f.use = .newData
    · simp [huse]
    · simp [huse]
  · rw [howner]
    by_cases hd : d = c
    · subst hd
      exact hcircuit.trans (if_pos ⟨rfl, hstill⟩).symm
    · exact (hothers d hd).trans (if_neg fun hand => hd hand.1).symm
  · have hbytes : ownerBytes s f = circuitSentBytes (s.circuit c) c f := by rw [ownerBytes, howner]
    rw [hbytes]
    intro a ha hout
    rw [hwindow a ha fun hin => hout ?_, State.peek, hwin]
    · rfl
    · obtain hin | hin := List.mem_append.mp hin
      · exact List.mem_append_left _ hin
      · exact List.mem_append_right _ (raiseBytes_mono (spaceOutDue_length _ _ c) hin)
  · obtain rfl := hof fun hsame => hne (congrArg Circuit.txDone hsame)
    exact hdone hne
  · obtain rfl := hof fun hsame => hne (congrArg Circuit.txDone hsame)
    exact hstate hne
  · by_cases hd : d = c
    · subst hd
      exact (htold hin).congr_start hnotice
    · rw [spaceOutDue_same _ (congrArg Circuit.txDone (hothers d hd))] at hin
      exact absurd hin List.not_mem_nil

/-- The report at the owner, in every case. -/
theorem ownerSent_told {s : State} (hmem : MemoryLaw s) (hnone : s.selector.inFlight = none) (f : FlightFrame) :
    OwnerTold s (s.ownerSent f) f := by
  cases howner : f.owner with
  | roster =>
    refine ownerTold_of_same hmem ?_ fun d => by rw [howner]
    simp [State.ownerSent, howner]
  | orphanList =>
    refine ownerTold_of_same hmem ?_ fun d => by rw [howner]
    simp [State.ownerSent, howner]
  | circuit c life =>
    have hsent := ownerSent_circuit s howner
    rw [pastLifetime_eq] at hsent
    cases hstill : stillOf s c life with
    | false =>
      rw [hstill, if_pos (by decide)] at hsent
      refine ownerTold_of_same hmem ?_ fun d => ?_
      · rw [hsent, pointerMoved_eq, howner]
        by_cases huse : f.use = .newData
        · simp [huse]
        · simp [huse]
      · rw [howner]
        exact (if_neg fun hand => by rw [hstill] at hand; exact absurd hand.2 (by decide)).symm
    | true =>
      rw [hstill, if_neg (by decide)] at hsent
      have hmem' : MemoryLaw (pointerMoved s c f) := by rw [pointerMoved_eq]; exact hmem
      have hcircuit := circuitSent_circuit (pointerMoved s c f) c f
      rw [hsent]
      refine ownerTold_of_moved howner hstill hnone (circuitSent_moved hmem' c f) (hcircuit.trans ?_)
      rw [pointerMoved_eq]
      rfl

theorem mem_ownerBytes {s : State} {f : FlightFrame} {a : Nat} (h : a ∈ ownerBytes s f) :
    ∃ c life, f.owner = .circuit c life ∧ f.use = .newData ∧ (s.circuit c).mode = .plain ∧ a ∈ recordBytes c [0x00, 0x16] := by
  unfold ownerBytes at h
  cases howner : f.owner with
  | roster => rw [howner] at h; exact absurd h List.not_mem_nil
  | orphanList => rw [howner] at h; exact absurd h List.not_mem_nil
  | circuit c life =>
    rw [howner] at h
    by_cases hand : f.use = .newData ∧ (s.circuit c).mode = .plain
    · exact ⟨c, life, rfl, hand.1, hand.2, by
        dsimp only [circuitSentBytes] at h
        rwa [if_pos hand] at h⟩
    · dsimp only [circuitSentBytes] at h
      rw [if_neg hand] at h
      exact absurd h List.not_mem_nil

/-- The sent report before Station Control sees it, from the frame's start. -/
theorem sentOwner_told {s : State} (hmem : MemoryLaw s) (hloop : s.station.loop = false) (f : FlightFrame) :
    sentOwner s f = { s with
        line := releasedLine s.line 0
        quality.framesSent := s.quality.framesSent + 1
        roster.silence := 0
        arbiter.collisions := 0
        selector := ⟨match f.owner with
            | .circuit c _ => if f.use ≠ .newData then s.selector.pointer else s.pointerAfter c
            | _ => s.selector.pointer, false, none⟩
        orphans.entries := if f.owner = .orphanList then s.orphans.entries.filter fun o => !o.inFlight else s.orphans.entries
        circuits := (sentOwner s f).circuits
        notice := (sentOwner s f).notice
        window := (sentOwner s f).window } ∧
      OwnerTold (sentBase s) (sentOwner s f) f := by
  have htold : OwnerTold (sentBase s) (sentOwner s f) f :=
    ownerSent_told (sentBase_shows hmem).2.2 (by rw [sentBase_eq hloop]) f
  refine ⟨?_, htold⟩
  have heq := htold.eq
  generalize sentOwner s f = t at heq ⊢
  have hbase := sentBase_eq hloop
  generalize sentBase s = u at heq hbase
  obtain ⟨m, hm⟩ : ∃ m, u = { s with
    line := releasedLine s.line 0
    quality.framesSent := s.quality.framesSent + 1
    roster.silence := 0
    arbiter.collisions := 0
    selector := ⟨s.selector.pointer, false, none⟩
    window := m } := ⟨_, hbase⟩
  rw [hm] at heq
  exact heq

/-- What both statements about the sent report of any use need of its owner. -/
theorem sentOwner_window {s : State} (hmem : MemoryLaw s) {t : State} {f : FlightFrame} (h : OwnerTold (sentBase s) t f) :
    shows t 0x1C (s.quality.framesSent + 1) ∧ sameWindow s t ([0x1C, 0x1D] ++ ownerBytes s f ++ raiseBytes s 1) := by
  obtain ⟨hshown, hfirst, -⟩ := sentBase_shows hmem
  have hsecond : sameWindow (sentBase s) t (ownerBytes s f ++ raiseBytes s 1) := h.window
  have hout {a : Nat} (ha : a < 0x20) (hlow : 0x13 ≤ a) : a ∉ ownerBytes s f ++ raiseBytes s 1 := fun hin => by
    obtain hin | hin := List.mem_append.mp hin
    · obtain ⟨c, life, -, -, -, hin⟩ := mem_ownerBytes hin
      exact not_mem_recordBytes (by omega) hin
    · exact not_mem_raiseBytes (by omega) _ _ hin
  refine ⟨shows_of_sameWindow hsecond (by decide) (hout (by decide) (by decide)) (hout (by decide) (by decide)) hshown, ?_⟩
  rw [List.append_assoc]
  exact sameWindow_trans hfirst hsecond

theorem afterSent_roll {f : FlightFrame} (k : Circuit) (huse : f.use = .roll) : afterSent k f = k := by
  unfold afterSent
  rw [huse]

/-- The sent report of a ROLL leaves its owner as it was. -/
theorem ownerTold_roll {s t : State} {f : FlightFrame} (h : OwnerTold s t f) (huse : f.use = .roll) :
    (∀ d, t.circuit d = s.circuit d) ∧ Raised s t [] ∧ ownerBytes s f = [] := by
  have hsame (d : CircuitNo) : t.circuit d = s.circuit d := by
    rw [h.circuit d]
    cases f.owner with
    | roster => rfl
    | orphanList => rfl
    | circuit c life => simp only [afterSent_roll _ huse, ite_self]
  refine ⟨hsame, h.raised.mono fun p hp => ?_, List.eq_nil_iff_forall_not_mem.mpr fun a ha => ?_⟩
  · obtain ⟨c, -, hin⟩ := List.mem_flatMap.mp hp
    rwa [spaceOutDue_same _ (congrArg Circuit.txDone (hsame c))] at hin
  · obtain ⟨-, -, -, hnew, -⟩ := mem_ownerBytes ha
    rw [huse] at hnew
    cases hnew

/-- The entry to ACTIVE (R31, R177). -/
theorem enterActive_shows {s : State} (hmem : MemoryLaw s) :
    Raised s s.enterActive [.station .station] ∧ raisedIn s s.enterActive (.station .station) ∧
    s.enterActive = { s with
      station := { s.station with state := .active, joinTimer := none }
      arbiter.collisions := 0
      notice := s.enterActive.notice
      window := s.enterActive.window } ∧
    s.enterActive.peek 0x03 = 3 ∧ sameWindow s s.enterActive ([0x03] ++ raiseBytes s 1) := by
  obtain ⟨hraised, -⟩ := enterState_raised (s := { s with arbiter.collisions := 0, station.joinTimer := none }) hmem .active
  obtain ⟨hin, hstate, hwindow⟩ := enterState_shows (s := { s with arbiter.collisions := 0, station.joinTimer := none }) hmem .active
  have hquiet : Raised s ({ s with arbiter.collisions := 0, station.joinTimer := none } : State) [] :=
    .silent (offs := []) rfl (fun _ _ _ => rfl) (by simp)
  exact ⟨hquiet.trans hraised, hin, enterState_eq _ _, hstate, hwindow⟩

/-- Settles O43: the owner's step on the state with the driver released, then Station Control, then the round. -/
theorem sentReportReachesEveryOwner : Obligations.SentReportReachesEveryOwner := by
  intro s hmem hline hbusy hloop haddress f hf
  have hexec : exec .frameSent s = .next ((sentStation s f).frameEnd (some (sentStation s f).station.address)) := by
    rw [← reportSent_eq]
    refine congrArg Host.Outcome.next ?_
    rw [State.frameSent, hline, Option.mem_def.mp hf]
    exact if_neg (by rw [hloop]; decide)
  obtain ⟨heq, htold⟩ := sentOwner_told hmem hloop f
  obtain ⟨hshown, hwindow⟩ := sentOwner_window hmem htold
  have hcircuit := htold.circuit
  have hstation : (sentOwner s f).station = s.station := by rw [heq]
  have harbiter : (sentOwner s f).arbiter = { s.arbiter with collisions := 0 } := by rw [heq]
  by_cases hroll : f.use = .roll ∧ s.station.state = .joining
  · obtain ⟨hsame, hquiet, hnone⟩ := ownerTold_roll htold hroll.1
    have hactive : sentStation s f = (sentOwner s f).enterActive := if_pos (by rw [hstation]; exact hroll)
    have hmem' := htold.wf
    obtain ⟨hquietly, -⟩ := hquiet.only
    have hnotice : (sentOwner s f).notice = s.notice := hquietly rfl
    generalize sentOwner s f = u at *
    obtain ⟨hraised, hin, heq', hstate, hlast⟩ := enterActive_shows hmem'
    have hall := hquiet.trans hraised
    rw [raiseBytes_congr (congrArg Notice.fill hnotice)] at hlast
    rw [hactive] at hexec
    generalize u.enterActive = t at *
    have harbiter' : t.arbiter = { s.arbiter with collisions := 0 } := by rw [heq', harbiter]
    have hstation' : t.station = { s.station with state := .active, joinTimer := none } := by rw [heq', hstation]
    have hcircuits : t.circuits = u.circuits := by rw [heq']
    rw [frameEnd_eq_roundBegun (by rw [harbiter']; exact hbusy) (by rw [hstation']; exact haddress)] at hexec
    simp only [if_pos hroll]
    have hk (d : CircuitNo) : t.circuit d = u.circuit d := congrArg (fun v : Vector Circuit 16 => v.get d) hcircuits
    have hdone (c : CircuitNo) : (t.circuit c).txDone = (s.circuit c).txDone := congrArg Circuit.txDone ((hk c).trans (hsame c))
    have hnot (a : Nat) (ha : a = 0x1C ∨ a = 0x1D) : a ∉ [0x03] ++ raiseBytes s 1 := fun hin =>
      (List.mem_append.mp hin).elim (by simp; omega) (not_mem_raiseBytes (by omega) _ _)
    refine ⟨_, hexec, ?_, fun d => (hk d).trans (hcircuit d), shows_of_sameWindow hlast (by decide) (hnot _ (.inl rfl)) (hnot _ (.inr rfl)) hshown,
      (hall.mono ?_).only, fun _ _ => ⟨hstate, ?_⟩, fun c hne => absurd (hdone c) hne, ?_⟩
    · conv_lhs => rw [heq', heq, ← hcircuits]
      rfl
    · exact List.subset_append_right _ _
    · exact raisedIn_congr hnotice hin
    · have hboth : sameWindow s t (([0x1C, 0x1D] ++ ownerBytes s f ++ raiseBytes s 1) ++ ([0x03] ++ raiseBytes s 1)) :=
        sameWindow_trans hwindow hlast
      have hnone' : ownerBytes s f = [] := hnone
      rw [hnone'] at hboth
      refine sameWindow_mono hboth fun a ha => ?_
      simp only [List.mem_append, List.not_mem_nil, or_false] at ha ⊢
      tauto
  · have hnot : sentStation s f = sentOwner s f := if_neg (by rw [hstation]; exact hroll)
    rw [hnot, hstation, frameEnd_eq_roundBegun (by rw [harbiter]; exact hbusy) haddress] at hexec
    generalize sentOwner s f = t at *
    simp only [if_neg hroll, List.append_nil]
    refine ⟨_, hexec, ?_, hcircuit, hshown, htold.raised.only, fun huse hjoining => absurd ⟨huse, hjoining⟩ hroll, fun c hne => ?_, ?_⟩
    · conv_lhs => rw [heq]
      rfl
    · refine ⟨htold.done c hne, fun hbefore hafter => ?_, htold.state c hne⟩
      refine told_congr (u := sentBase s) rfl ((htold.told c ?_).told fun _ => rfl)
      have hk : (sentBase s).circuit c = s.circuit c := rfl
      rw [hk]
      unfold spaceOutDue
      rw [if_pos ⟨hbefore, hafter⟩]
      exact List.mem_cons_self
    · refine sameWindow_mono hwindow fun a ha => ?_
      rw [List.mem_append, List.mem_append] at ha
      obtain (ha | ha) | ha := ha
      · exact List.mem_append_left _ (List.mem_append_left _ ha)
      · obtain ⟨c, life, howner, huse, hplain, ha⟩ := mem_ownerBytes ha
        have hmode : (s.circuit c).mode = .plain := hplain
        rw [howner, huse]
        refine List.mem_append_left _ (List.mem_append_right _ ?_)
        dsimp only
        rwa [if_pos hmode]
      · exact List.mem_append_right _ ha

end Sys2Proof.Proofs
end

section
namespace Sys2Proof.Proofs

open Sys2Proof Sys2Proof.Machine Sys2Proof.Claims Sys2Proof.Safety Sys2Proof.Laws

/-! ## Operations on circuits keep a relation between states

A relation under which two states agree on the circuits, the Notice Unit and the station's state, and which a few elementary changes
keep, is kept by every operation of the Circuit Table and the Transfer Engine on a frame or a loss: these are made of those changes,
and take their decisions from what the two states agree on. -/

/-- The elementary changes keep the relation, and related states agree on what the operations on circuits read. -/
structure Congruence (R : State → State → Prop) : Prop where
  state : ∀ {u v}, R u v → v.station.state = u.station.state
  circuit : ∀ {u v}, R u v → ∀ c, v.circuit c = u.circuit c
  notice : ∀ {u v}, R u v → v.notice = u.notice
  poke : ∀ {u v}, R u v → ∀ a x, R (u.poke a x) (v.poke a x)
  updCircuit : ∀ {u v}, R u v → ∀ c f, R (u.updCircuit c f) (v.updCircuit c f)
  withNotice : ∀ {u v}, R u v → ∀ n : Notice, R { u with notice := n } { v with notice := n }
  forget : ∀ {u v}, R u v → ∀ c f, R (u.forget c f) (v.forget c f)
  addOrphan : ∀ {u v}, R u v → ∀ peer pc reply, R (u.addOrphan peer pc reply) (v.addOrphan peer pc reply)

section Operations

variable {R : State → State → Prop} {u v : State}

namespace Congruence

theorem findCircuit (hR : Congruence R) (h : R u v) (q : CircuitNo → Circuit → Bool) : v.findCircuit q = u.findCircuit q := by
  have hcircuit : v.circuit = u.circuit := funext (hR.circuit h)
  simp only [State.findCircuit, hcircuit]

theorem pokeRecord (hR : Congruence R) (h : R u v) (c : CircuitNo) (off : Nat) (x : Byte) : R (u.pokeRecord c off x) (v.pokeRecord c off x) :=
  hR.poke h (recordBase c + off) x

theorem pokeRecordHalf (hR : Congruence R) (h : R u v) (c : CircuitNo) (off : Nat) (x : Half) :
    R (u.pokeRecordHalf c off x) (v.pokeRecordHalf c off x) := hR.poke (hR.poke h _ (lowByte x)) _ (highByte x)

theorem pokeBytes (hR : Congruence R) (l : List Byte) (h : R u v) (a : Nat) : R (u.pokeBytes a l) (v.pokeBytes a l) := by
  induction l generalizing u v a with
  | nil => exact h
  | cons x rest ih => exact ih (hR.poke h a x) (a + 1)

/-! ### Owed flags -/

theorem oweControl (hR : Congruence R) (h : R u v) (c : CircuitNo) (kind : ControlKind) : R (u.oweControl c kind) (v.oweControl c kind) :=
  hR.updCircuit h c _

theorem oweAck (hR : Congruence R) (h : R u v) (c : CircuitNo) : R (u.oweAck c) (v.oweAck c) := hR.updCircuit h c _

theorem clearAckPoll (hR : Congruence R) (h : R u v) (c : CircuitNo) : R (u.clearAckPoll c) (v.clearAckPoll c) :=
  hR.updCircuit (hR.forget h c _) c _

theorem clearControl (hR : Congruence R) (h : R u v) (c : CircuitNo) : R (u.clearControl c) (v.clearControl c) :=
  hR.updCircuit (hR.forget h c _) c _

/-! ### Raising -/

theorem writeEntry (hR : Congruence R) (h : R u v) {q : NoticePair} (hsnapshot : v.snapshotOf q = u.snapshotOf q) (detail : Byte) :
    R (u.writeEntry q detail) (v.writeEntry q detail) := by
  rw [State.writeEntry, State.writeEntry, State.updateIrq, State.updateIrq, hR.notice h, hsnapshot]
  dsimp only
  have hbytes := hR.pokeBytes ([u.notice.sequence, q.sourceByte, q.causeByte, detail] ++ u.snapshotOf q) h (entryOffset u.notice.fill)
  rw [hR.notice hbytes]
  exact hR.withNotice (hR.poke (hR.poke (hR.withNotice hbytes _) _ _) _ _) _

theorem raiseWith (hR : Congruence R) (h : R u v) {q : NoticePair} (hsnapshot : v.snapshotOf q = u.snapshotOf q) (detail : Byte) :
    R (u.raiseWith q detail) (v.raiseWith q detail) := by
  rw [State.raiseWith, State.raiseWith, hR.notice h]
  split
  · exact h
  split
  · split
    · exact h
    · exact hR.poke (hR.poke (hR.withNotice h _) _ _) _ _
  · exact hR.writeEntry h hsnapshot detail

theorem raise (hR : Congruence R) (h : R u v) (c : CircuitNo) (cause : CircuitCause) :
    R (u.raise (.circuit c cause)) (v.raise (.circuit c cause)) := by
  obtain ⟨hsnapshot, hdetail⟩ := snapshotOf_circuit_congr (hR.circuit h c) cause
  rw [State.raise, State.raise, hdetail]
  exact hR.raiseWith h hsnapshot _

theorem raiseDone (hR : Congruence R) (h : R u v) (c : CircuitNo) (d : Option Completion) :
    R (u.raiseOption (doneOf c d)) (v.raiseOption (doneOf c d)) := by
  cases d with
  | none => exact h
  | some d => exact hR.raise h c .done

/-! ### Shared operations -/

theorem setCircuitState (hR : Congruence R) (h : R u v) (c : CircuitNo) (st : CircuitState) :
    R (u.setCircuitState c st) (v.setCircuitState c st) := hR.pokeRecord (hR.updCircuit h c _) c _ _

theorem writeUnsent (hR : Congruence R) (h : R u v) (c : CircuitNo) : R (u.writeUnsent c) (v.writeUnsent c) := by
  rw [State.writeUnsent, State.writeUnsent, hR.circuit h]
  exact hR.pokeRecord (hR.updCircuit h c _) c _ _

theorem writeCompletionOption (hR : Congruence R) (h : R u v) (c : CircuitNo) (d : Option Completion) :
    R (u.writeCompletionOption c d) (v.writeCompletionOption c d) := by
  cases d with
  | none => exact h
  | some d =>
    rw [State.writeCompletionOption, State.writeCompletionOption, writeCompletion_eq_pokeBytes, writeCompletion_eq_pokeBytes]
    exact hR.pokeBytes _ (hR.updCircuit h c _) _

theorem releaseOwed (hR : Congruence R) (h : R u v) (c : CircuitNo) : R (u.releaseOwed c) (v.releaseOwed c) := by
  rw [State.releaseOwed, State.releaseOwed, hR.circuit h]
  refine hR.clearControl ?_ c
  split
  · exact hR.addOrphan (hR.updCircuit (hR.clearAckPoll h c) c _) _ _ _
  · exact hR.updCircuit (hR.clearAckPoll h c) c _

theorem freeWith (hR : Congruence R) (h : R u v) (c : CircuitNo) (outcome : CompletionOutcome) : R (u.freeWith c outcome) (v.freeWith c outcome) := by
  rw [State.freeWith, State.freeWith, hR.circuit h, State.goFree, State.goFree, hR.circuit h]
  generalize (u.circuit c).completes outcome = d
  refine hR.raiseDone (hR.setCircuitState (hR.writeCompletionOption (hR.updCircuit (hR.releaseOwed ?_ c) c _) c d) c .free) c d
  split
  · exact hR.writeUnsent h c
  · exact h

theorem completeInto (hR : Congruence R) (h : R u v) (c : CircuitNo) (outcome : CompletionOutcome) (st : CircuitState) :
    R (u.completeInto c outcome st) (v.completeInto c outcome st) := by
  rw [State.completeInto, State.completeInto, hR.circuit h]
  exact hR.raiseDone (hR.setCircuitState (hR.updCircuit (hR.writeCompletionOption h c _) c _) c st) c _

theorem enterEnded (hR : Congruence R) (h : R u v) (c : CircuitNo) (cause : EndCause) (confirm : Bool) :
    R (u.enterEnded c cause confirm) (v.enterEnded c cause confirm) := by
  unfold State.enterEnded
  dsimp only
  refine hR.raise (hR.setCircuitState (hR.pokeRecord (hR.writeUnsent (hR.updCircuit (hR.clearAckPoll ?_ c) c _) c) c _ _) c .ended) c .ended
  split
  · exact hR.oweControl h c .confirm
  · exact hR.clearControl h c

theorem lose (hR : Congruence R) (h : R u v) (c : CircuitNo) (cause : EndCause) : R (u.lose c cause) (v.lose c cause) := by
  unfold State.lose
  rw [hR.circuit h]
  cases (u.circuit c).state with
  | calling => exact hR.freeWith h c .lost
  | opened => exact hR.enterEnded h c cause false
  | draining => exact hR.freeWith h c .lost
  | clearing => exact hR.freeWith h c .unconfirmed
  | listening =>
    dsimp only
    split
    · exact hR.freeWith h c .lost
    · exact h
  | ended => exact h
  | free => exact h

theorem testDrain (hR : Congruence R) (h : R u v) (c : CircuitNo) : R (u.testDrain c) (v.testDrain c) := by
  rw [State.testDrain, State.testDrain, hR.circuit h]
  split
  · exact hR.setCircuitState (hR.updCircuit (hR.oweControl (hR.clearAckPoll h c) c .clear) c _) c .clearing
  · exact h

theorem testStall (hR : Congruence R) (h : R u v) (c : CircuitNo) : R (u.testStall c) (v.testStall c) := hR.updCircuit h c _

theorem noticeFill (hR : Congruence R) (h : R u v) (c : CircuitNo) (endMark : Bool) : R (u.noticeFill c endMark) (v.noticeFill c endMark) := by
  rw [State.noticeFill, State.noticeFill, hR.circuit h]
  split
  · exact hR.raise (hR.updCircuit h c _) c .dataIn
  · exact hR.updCircuit h c _

theorem noticeRelease (hR : Congruence R) (h : R u v) (c : CircuitNo) (before : Nat) :
    R (u.noticeRelease c before) (v.noticeRelease c before) := by
  rw [State.noticeRelease, State.noticeRelease, hR.circuit h]
  split
  · exact hR.raise h c .spaceOut
  · exact h

theorem slotsReleased (hR : Congruence R) (h : R u v) (c : CircuitNo) (before : Nat) :
    R (Proofs.slotsReleased u c before) (Proofs.slotsReleased v c before) := by
  unfold Proofs.slotsReleased
  rw [hR.circuit h]
  exact hR.testDrain (hR.noticeRelease (hR.pokeRecord h c _ _) c before) c

/-! ### The Transfer Engine on a frame -/

theorem writeSlot (hR : Congruence R) (h : R u v) (c : CircuitNo) (f : Frame) (gapped : Bool) (missing : Nat) :
    R (u.writeSlot c f gapped missing) (v.writeSlot c f gapped missing) := by
  rw [State.writeSlot, State.writeSlot, hR.circuit h]
  exact hR.poke (hR.poke (hR.poke (hR.poke (hR.pokeBytes _ h _) _ _) _ _) _ _) _ _

theorem advanceFill (hR : Congruence R) (h : R u v) (c : CircuitNo) (seq : Seq) : R (u.advanceFill c seq) (v.advanceFill c seq) := by
  have hfirst := hR.updCircuit h c fun k => { k with rxFill := k.rxFill + 1, expectedSeq := seq + 1 }
  unfold State.advanceFill
  dsimp only
  rw [hR.circuit hfirst]
  exact hR.pokeRecord hfirst c _ _

theorem takeAssuredSegment (hR : Congruence R) (h : R u v) (c : CircuitNo) (f : Frame) :
    R (u.takeAssuredSegment c f) (v.takeAssuredSegment c f) := by
  rw [State.takeAssuredSegment, State.takeAssuredSegment, hR.circuit h]
  split
  · exact hR.oweAck h c
  split
  · exact hR.oweAck (hR.pokeRecordHalf (hR.updCircuit h c _) c _ _) c
  · exact hR.noticeFill (hR.oweAck (hR.advanceFill (hR.writeSlot h c f _ _) c _) c) c _

theorem markGap (hR : Congruence R) (h : R u v) (c : CircuitNo) : R (u.markGap c) (v.markGap c) := by
  rw [State.markGap, State.markGap, hR.circuit h]
  have hfirst := hR.pokeRecordHalf (hR.updCircuit h c fun k => { k with gapCount := k.gapCount + 1 }) c recGapCount ((u.circuit c).gapCount + 1)
  cases (u.circuit c).firstGap with
  | some _ => exact hfirst
  | none => exact hR.pokeRecordHalf (hR.updCircuit hfirst c _) c _ _

theorem takePlainSegment (hR : Congruence R) (h : R u v) (c : CircuitNo) (f : Frame) : R (u.takePlainSegment c f) (v.takePlainSegment c f) := by
  rw [State.takePlainSegment, State.takePlainSegment, hR.circuit h]
  split
  · exact hR.pokeRecordHalf (hR.updCircuit h c _) c _ _
  split
  · exact hR.noticeFill (hR.advanceFill (hR.writeSlot h c f _ _) c _) c _
  · have hfilled := hR.advanceFill (hR.markGap (hR.writeSlot h c f true (distance (u.circuit c).expectedSeq f.seq)) c) c f.seq
    exact hR.noticeFill (hR.raiseWith hfilled (snapshotOf_circuit_congr (hR.circuit hfilled c) .gap).1 _) c _

theorem takeAck (hR : Congruence R) (h : R u v) (c : CircuitNo) (a credit : Seq) : R (u.takeAck c a credit) (v.takeAck c a credit) := by
  by_cases hprogress : bringsProgress (u.circuit c) a
  · rw [takeAck_of_progress credit hprogress, takeAck_of_progress credit (by rw [hR.circuit h]; exact hprogress), hR.circuit h]
    exact hR.testStall (hR.slotsReleased (hR.updCircuit h c _) c _) c
  · have hnot := mt (progress_iff (u.circuit c) a).mp hprogress
    rw [State.takeAck, State.takeAck, hR.circuit h]
    dsimp only
    rw [if_neg hnot, if_neg hnot]
    split
    · exact hR.testStall (hR.updCircuit h c _) c
    · exact h

theorem takeData (hR : Congruence R) (h : R u v) (c : CircuitNo) (f : Frame) : R (u.takeData c f) (v.takeData c f) := by
  rw [State.takeData, State.takeData, hR.circuit h]
  cases (u.circuit c).mode with
  | assured => exact hR.takeAck (hR.takeAssuredSegment h c f) c f.ack f.credit
  | plain => exact hR.takePlainSegment h c f

theorem takeAckFrame (hR : Congruence R) (h : R u v) (c : CircuitNo) (f : Frame) : R (u.takeAckFrame c f) (v.takeAckFrame c f) := by
  rw [State.takeAckFrame, State.takeAckFrame, hR.circuit h]
  cases (u.circuit c).mode with
  | assured =>
    refine hR.takeAck ?_ c f.ack f.credit
    split
    · exact hR.oweAck h c
    · exact h
  | plain => exact h

/-! ### The Circuit Table on a frame -/

theorem strayFrame (hR : Congruence R) (h : R u v) (k : Kind) (f : Frame) : R (u.strayFrame k f) (v.strayFrame k f) := by
  unfold State.strayFrame
  cases strayReply k f.dstCircuit with
  | some r => exact hR.addOrphan h _ _ _
  | none => exact h

theorem acceptAnswer (hR : Congruence R) (h : R u v) (c : CircuitNo) (f : Frame) : R (u.acceptAnswer c f) (v.acceptAnswer c f) := by
  have hother : R (u.loseStaleOther c f) (v.loseStaleOther c f) := by
    rw [State.loseStaleOther, State.loseStaleOther, hR.findCircuit h]
    cases u.findCircuit fun i k => i != c && k.holdsPair f.src f.srcCircuit with
    | some i => exact hR.lose h i .lostStale
    | none => exact h
  exact hR.completeInto (hR.pokeRecord (hR.updCircuit hother c _) c _ _) c _ _

theorem callingFrame (hR : Congruence R) (h : R u v) (k : Kind) (c : CircuitNo) (f : Frame) : R (u.callingFrame k c f) (v.callingFrame k c f) := by
  unfold State.callingFrame
  rw [hR.circuit h]
  split
  · split
    · exact hR.acceptAnswer h c f
    · exact hR.strayFrame h _ f
  · split
    · exact hR.freeWith h c _
    · exact h
  · exact h

theorem openFrame (hR : Congruence R) (h : R u v) (k : Kind) (c : CircuitNo) (f : Frame) : R (u.openFrame k c f) (v.openFrame k c f) := by
  unfold State.openFrame
  split
  · exact hR.takeData h c f
  · exact hR.takeAckFrame h c f
  · exact hR.enterEnded h c _ _
  · exact h

theorem clearedByPeer (hR : Congruence R) (h : R u v) (c : CircuitNo) (outcome : CompletionOutcome) :
    R (u.clearedByPeer c outcome) (v.clearedByPeer c outcome) := hR.freeWith (hR.oweControl h c .confirm) c outcome

theorem drainingFrame (hR : Congruence R) (h : R u v) (k : Kind) (c : CircuitNo) (f : Frame) :
    R (u.drainingFrame k c f) (v.drainingFrame k c f) := by
  unfold State.drainingFrame
  split
  · exact hR.takeData h c f
  · exact hR.takeAckFrame h c f
  · exact hR.clearedByPeer h c _
  · exact h

theorem clearingFrame (hR : Congruence R) (h : R u v) (k : Kind) (c : CircuitNo) : R (u.clearingFrame k c) (v.clearingFrame k c) := by
  unfold State.clearingFrame
  split
  · exact hR.clearedByPeer h c _
  · exact hR.freeWith h c _
  · exact h

theorem endedFrame (hR : Congruence R) (h : R u v) (k : Kind) (c : CircuitNo) (f : Frame) : R (u.endedFrame k c f) (v.endedFrame k c f) := by
  unfold State.endedFrame
  rw [hR.circuit h, hR.state h]
  split
  · split
    · exact h
    · exact hR.addOrphan h _ _ _
  · split
    · exact hR.oweControl h c _
    · exact h
  · exact h

theorem takeCircuitFrame (hR : Congruence R) (h : R u v) (hstation : v.station = u.station) (k : Kind) (f : Frame) :
    R (u.takeCircuitFrame k f) (v.takeCircuitFrame k f) := by
  unfold State.takeCircuitFrame State.configured
  dsimp only
  rw [hR.circuit h, hstation]
  split
  · exact hR.strayFrame h k f
  cases (u.circuit f.dstCircuit).state with
  | free => exact hR.strayFrame h k f
  | listening => exact hR.strayFrame h k f
  | calling => dsimp only; split <;> [exact hR.callingFrame h k _ f; exact hR.strayFrame h k f]
  | opened => dsimp only; split <;> [exact hR.openFrame h k _ f; exact hR.strayFrame h k f]
  | draining => dsimp only; split <;> [exact hR.drainingFrame h k _ f; exact hR.strayFrame h k f]
  | clearing => dsimp only; split <;> [exact hR.clearingFrame h k _; exact hR.strayFrame h k f]
  | ended => dsimp only; split <;> [exact hR.endedFrame h k _ f; exact hR.strayFrame h k f]

theorem acceptCall (hR : Congruence R) (h : R u v) (c : CircuitNo) (f : Frame) : R (u.acceptCall c f) (v.acceptCall c f) :=
  hR.completeInto (hR.oweControl (hR.pokeRecord (hR.pokeRecord (hR.pokeRecord (hR.updCircuit h c _) c _ _) c _ _) c _ _) c _) c _ _

theorem matchListener (hR : Congruence R) (h : R u v) (f : Frame) : R (u.matchListener f) (v.matchListener f) := by
  rw [State.matchListener, State.matchListener, hR.findCircuit h, hR.findCircuit h]
  cases u.findCircuit fun _ k => k.listensFor f && k.mode == callMode f with
  | some c => exact hR.acceptCall h c f
  | none => exact hR.addOrphan h _ _ _

theorem answerCall (hR : Congruence R) (h : R u v) (f : Frame) : R (u.answerCall f) (v.answerCall f) := by
  rw [State.answerCall, State.answerCall, hR.findCircuit h]
  cases u.findCircuit fun _ k => k.holdsPair f.src f.srcCircuit with
  | none => exact hR.matchListener h f
  | some c =>
    dsimp only
    rw [hR.circuit h]
    split
    · split
      · exact hR.oweControl h c _
      · exact h
    · exact hR.matchListener (hR.lose h c _) f

theorem tableFrame (hR : Congruence R) (h : R u v) (hstation : v.station = u.station) (k : Kind) (f : Frame) :
    R (u.tableFrame k f) (v.tableFrame k f) := by
  unfold State.tableFrame State.takeCall
  rw [hstation]
  split
  · exact h
  split
  · exact h
  · split
    · exact h
    · exact hR.answerCall h f
  · exact hR.takeCircuitFrame h hstation k f

/-! ### The sent report at its circuit -/

theorem circuitSent (hR : Congruence R) (h : R u v) (c : CircuitNo) (f : FlightFrame) : R (u.circuitSent c f) (v.circuitSent c f) := by
  by_cases huse : f.use = .newData
  · rw [circuitSent_newData u c huse, circuitSent_newData v c huse, hR.circuit h]
    split
    · split
      · exact hR.testStall (hR.updCircuit h c _) c
      · rw [plainDataSent_eq, plainDataSent_eq, hR.circuit h]
        exact hR.slotsReleased (hR.updCircuit h c _) c _
    · exact h
  · unfold State.circuitSent
    dsimp only
    rw [hR.circuit h]
    cases huse' : f.use with
    | newData => exact absurd huse' huse
    | control kind =>
      cases kind with
      | clear => dsimp only; split <;> [exact hR.updCircuit h c _; exact h]
      | answer => exact h
      | confirm => exact h
    | call => dsimp only; split <;> [exact hR.updCircuit h c _; exact h]
    | resend q => dsimp only; split <;> [exact hR.updCircuit h c _; exact h]
    | ack => dsimp only; split <;> [exact hR.updCircuit h c _; exact h]
    | orphan => exact h
    | roll => exact h

end Congruence

end Operations

/-! ## States that differ in other blocks -/

/-- The two states agree on all that the operations on circuits read or change, and, if `p`, on the window. -/
structure Twin (p : Prop) (u v : State) : Prop where
  state : v.station.state = u.station.state
  selector : v.selector = u.selector
  orphans : v.orphans = u.orphans
  circuits : v.circuits = u.circuits
  notice : v.notice = u.notice
  window : p → v.window = u.window

theorem Twin.circuit {p : Prop} {u v : State} (h : Twin p u v) (c : CircuitNo) : v.circuit c = u.circuit c :=
  congrArg (Vector.get · c) h.circuits

theorem Twin.poke {p : Prop} {u v : State} (h : Twin p u v) (a : Nat) (x : Byte) : Twin p (u.poke a x) (v.poke a x) :=
  ⟨h.state, h.selector, h.orphans, h.circuits, h.notice, fun hp => by rw [State.poke, State.poke, h.window hp]⟩

theorem Twin.addOrphan {p : Prop} {u v : State} (h : Twin p u v) (peer : Address) (pc : CircuitNo) (reply : Reply) :
    Twin p (u.addOrphan peer pc reply) (v.addOrphan peer pc reply) := by
  have horphans (o : Orphans) : Twin p { u with orphans := o } { v with orphans := o } :=
    ⟨h.state, h.selector, rfl, h.circuits, h.notice, h.window⟩
  rw [State.addOrphan, State.addOrphan, h.state, h.orphans]
  dsimp only
  split
  · exact h
  split
  · exact h
  split
  · exact ((horphans _).poke _ _).poke _ _
  · exact horphans _

theorem twin_congruence (p : Prop) : Congruence (Twin p) where
  state h := h.state
  circuit h := h.circuit
  notice h := h.notice
  poke h := h.poke
  updCircuit {u v} h c f := by
    refine ⟨h.state, h.selector, h.orphans, ?_, h.notice, h.window⟩
    show v.circuits.set c (f (v.circuit c)) = u.circuits.set c (f (u.circuit c))
    rw [h.circuits, h.circuit]
  withNotice h n := ⟨h.state, h.selector, h.orphans, h.circuits, rfl, h.window⟩
  forget h c f := by
    refine ⟨h.state, ?_, h.orphans, h.circuits, h.notice, h.window⟩
    rw [State.forget, State.forget, h.selector, h.circuit]
  addOrphan h := h.addOrphan

end Sys2Proof.Proofs
end

section
namespace Sys2Proof.Proofs

open Sys2Proof Sys2Proof.Machine Sys2Proof.Claims Sys2Proof.Safety Sys2Proof.Laws

/-! ## The looped copy (R18, R34) -/

theorem sentIdle_loop {s : State} (hloop : s.station.loop = true) : sentIdle s = { sentIdle { s with station.loop := false } with
    station.loop := true
    line.quiet := 20 } := by
  have hquiet : s.quietAfterSent = 20 := if_pos hloop
  have hstation : ({ s.station with loop := true } : Station) = s.station := by rw [← hloop]
  unfold sentIdle
  rw [hquiet]
  show _ = ({ sentIdle s with station := { s.station with loop := true }, line := s.line.afterOwnFrame 20 } : State)
  rw [hstation]
  rfl

/-- The state with the strap of loop test set and the line quiet. -/
def looped (u : State) : State := { u with
  station.loop := true
  line.quiet := 20 }

theorem twin_looped (u : State) : Twin True u (looped u) := ⟨rfl, rfl, rfl, rfl, rfl, fun _ => rfl⟩

/-- What an operation on circuits makes of the one of two twins, from what it makes of the other. -/
theorem eq_of_twin {v u' v' : State} (h : Twin True u' v') (hv : CircuitsOnly v v') : v' = { v with
    circuits := u'.circuits, orphans := u'.orphans, selector := u'.selector, notice := u'.notice, window := u'.window } := by
  have heq := circuitsOnly_eq hv
  rw [h.circuits, h.orphans, h.selector, h.notice, h.window trivial] at heq
  exact heq

theorem circuitSent_looped (u : State) (c : CircuitNo) (f : FlightFrame) : (looped u).circuitSent c f = looped (u.circuitSent c f) := by
  have htwin := (twin_congruence True).circuitSent (twin_looped u) c f
  have hu := circuitSent_only u c f
  have heq := eq_of_twin htwin (circuitSent_only (looped u) c f).rest
  have heq' := circuitsOnly_eq hu.rest
  generalize u.circuitSent c f = x at *
  rw [heq]
  unfold looped
  rw [heq']

theorem ownerSent_looped (u : State) (f : FlightFrame) : (looped u).ownerSent f = looped (u.ownerSent f) := by
  cases howner : f.owner with
  | roster => simp only [State.ownerSent, howner]
  | orphanList => simp only [State.ownerSent, howner]; rfl
  | circuit c life =>
    have hpointer : pointerMoved (looped u) c f = looped (pointerMoved u c f) := by
      rw [pointerMoved_eq, pointerMoved_eq]
      rfl
    have hpast : (looped u).pastLifetime c life = u.pastLifetime c life := rfl
    rw [ownerSent_circuit _ howner, ownerSent_circuit _ howner, hpast, hpointer]
    split
    · rfl
    · exact circuitSent_looped _ c f

theorem pokeBytes_looped (l : List Byte) (u : State) (a : Nat) : (looped u).pokeBytes a l = looped (u.pokeBytes a l) := by
  induction l generalizing u a with
  | nil => rfl
  | cons x rest ih => exact ih (u.poke a x) (a + 1)

theorem raiseWith_looped (u : State) (q : NoticePair) (detail : Byte) :
    (looped u).raiseWith q detail = looped (u.raiseWith q detail) := by
  have hentry : (looped u).writeEntry q detail = looped (u.writeEntry q detail) := by
    have hsnapshot : (looped u).snapshotOf q = u.snapshotOf q := by cases q <;> rfl
    have hnotice : (looped u).notice = u.notice := rfl
    rw [State.writeEntry, State.writeEntry, hsnapshot, hnotice, pokeBytes_looped]
    rfl
  have hnotice : (looped u).notice = u.notice := rfl
  rw [State.raiseWith, State.raiseWith, hnotice, hentry]
  split
  · rfl
  split
  · split <;> rfl
  · rfl

theorem enterActive_looped (u : State) : (looped u).enterActive = looped u.enterActive := by
  exact raiseWith_looped (({ u with
    arbiter.collisions := 0, station.joinTimer := none, station.state := .active } : State).poke offStationState StationState.active.code)
    (.station .station) StationState.active.code

theorem frameEnd_looped (u : State) (source : Option Address) : (looped u).frameEnd source = looped (u.frameEnd source) := by
  have hbusy : (looped u).arbiter.state = u.arbiter.state := rfl
  rw [State.frameEnd, State.frameEnd, hbusy]
  split
  · rw [beginRound_eq_roundBegun, beginRound_eq_roundBegun]
    rfl
  · rfl

/-- The sent report does the same in loop test, but for the line, which is quiet from there on (R18). -/
theorem reportSent_looped {s : State} (hloop : s.station.loop = true) (f : FlightFrame) :
    s.reportSent f = looped (({ s with station.loop := false } : State).reportSent f) := by
  have hidle : sentIdle s = looped (sentIdle { s with station.loop := false }) := sentIdle_loop hloop
  have howner : sentOwner s f = looped (sentOwner { s with station.loop := false } f) := by
    unfold sentOwner
    rw [hidle]
    exact ownerSent_looped (sentIdle { s with station.loop := false }).countSent.ownFrameSent f
  have hstation : sentStation s f = looped (sentStation { s with station.loop := false } f) := by
    unfold sentStation
    rw [howner, enterActive_looped]
    have hstate (x : State) : (looped x).station.state = x.station.state := rfl
    rw [hstate]
    split <;> rfl
  rw [reportSent_eq, reportSent_eq, hstation]
  exact frameEnd_looped _ _

/-- The copy as it is stored in the receive buffer (R6). -/
def copied (u : State) (bytes : List Byte) : State := { u with
  line := { u.line with
    rxBuffer := bytes.take Config.frameRoom
    rxCount := bytes.length
    rxCheck := checkOf (bytes.take (bytes.length - 2)) } }

theorem loopedCopy_good (u : State) {bytes : List Byte} {k : Kind} {f : Frame} (h : classify false bytes = .good k f) :
    u.loopedCopy bytes = (copied u bytes).countGood.tableFrame k f := by
  rw [State.loopedCopy, h]
  rfl

theorem loopedCopy_malformed (u : State) {bytes : List Byte} {a : Address} (h : classify false bytes = .malformed a) :
    u.loopedCopy bytes = (copied u bytes).countMalformed := by
  rw [State.loopedCopy, h]
  rfl

theorem loopedCopy_damaged (u : State) {bytes : List Byte} (h : classify false bytes = .damaged) :
    u.loopedCopy bytes = (copied u bytes).countDamaged := by
  rw [State.loopedCopy, h]
  rfl

theorem isDamaged_iff_classify (bytes : List Byte) : isDamaged bytes = true ↔ classify false bytes = .damaged := by
  refine ⟨fun h => classify_damaged (.inr h), fun h => ?_⟩
  rw [isDamaged_eq]
  unfold classify at h
  split at h
  · next hbad => simpa using hbad
  · split at h <;> cases h

theorem isMalformed_iff_classify (bytes : List Byte) : isMalformed bytes ↔ ∃ a, classify false bytes = .malformed a := by
  refine ⟨fun h => ⟨_, h⟩, fun ⟨a, h⟩ => ?_⟩
  have ha : a = sourceOf bytes := by
    unfold classify at h
    split at h
    · cases h
    · split at h
      · cases h
      · cases h
        rfl
  rw [isMalformed, h, ha, sourceOf_eq]

/-- The copy is counted in its class, and neither the Turn Arbiter nor the Roster nor Station Control sees it. -/
theorem loopedCopy_counts (u : State) (bytes : List Byte) :
    (u.loopedCopy bytes).arbiter = u.arbiter ∧ (u.loopedCopy bytes).roster = u.roster ∧
    (u.loopedCopy bytes).station = u.station ∧ (u.loopedCopy bytes).line.state = u.line.state ∧
    (u.loopedCopy bytes).quality = { u.quality with
      damagedHeard := if isDamaged bytes = true then u.quality.damagedHeard + 1 else u.quality.damagedHeard
      d := if isDamaged bytes = true ∧ u.quality.d ≠ 0xFFFF then u.quality.d + 1 else u.quality.d
      malformed := if isMalformed bytes then u.quality.malformed + 1 else u.quality.malformed
      goodHeard := if isDamaged bytes = true ∨ isMalformed bytes then u.quality.goodHeard else u.quality.goodHeard + 1 } := by
  simp only [isDamaged_iff_classify, isMalformed_iff_classify]
  cases hclass : classify false bytes with
  | good k f =>
    have hrest := tableFrame_only (copied u bytes).countGood k f
    rw [loopedCopy_good u hclass]
    generalize (copied u bytes).countGood.tableFrame k f = t at *
    refine ⟨hrest.arbiter, hrest.roster, hrest.station, ?_, ?_⟩
    · rw [hrest.line]
      rfl
    · rw [hrest.quality]
      simp
      rfl
  | malformed a =>
    rw [loopedCopy_malformed u hclass]
    refine ⟨rfl, rfl, rfl, rfl, ?_⟩
    simp
    rfl
  | damaged =>
    rw [loopedCopy_damaged u hclass]
    refine ⟨rfl, rfl, rfl, rfl, ?_⟩
    have hcount : (copied u bytes).countDamaged.quality = { u.quality with
      damagedHeard := u.quality.damagedHeard + 1, d := countUp u.quality.d } := rfl
    rw [hcount, countUp_eq]
    by_cases hfull : u.quality.d = 65535#16
    · simp [hfull]
    · simp [hfull]

/-- A copy that is addressed elsewhere or is a ROLL reaches no circuit. -/
theorem tableFrame_elsewhere {u : State} {k : Kind} {f : Frame} (h : k = .roll ∨ f.dst ≠ u.station.address) : u.tableFrame k f = u := by
  unfold State.tableFrame
  obtain rfl | h := h
  · exact ite_self _
  · exact if_pos h

theorem twin_copied (u : State) (bytes : List Byte) : Twin False u (copied u bytes).countGood :=
  ⟨rfl, rfl, rfl, rfl, rfl, False.elim⟩

/-- In loop test the same frame from the line goes where its copy does, and ends the round besides (R18, R34). -/
theorem loopedCopy_heard {u : State} {k : Kind} {f : Frame} (hrules : keepsRules k f = true) (hloop : u.station.loop = true)
    (hsrc : f.src = u.station.address) :
    ∃ v, exec (frameRow k f) { u with line.state := .hearing } = .next v ∧
      u.loopedCopy (frameBytes k f) =
        { v with line := { v.line with state := u.line.state, quiet := u.line.quiet }, arbiter := u.arbiter } := by
  have hheard : ({ u with line.state := .hearing } : State).hear false (frameBytes k f) =
      ({ u with line := heardLine u.line (frameBytes k f) } : State).goodEnd k f := by
    rw [State.hear, if_pos rfl, classify_frameBytes hrules]
    rfl
  have hcopy := loopedCopy_good u (classify_frameBytes hrules)
  obtain ⟨b, hb⟩ : ∃ b, b = ({ u with line := heardLine u.line (frameBytes k f) } : State).countGood := ⟨_, rfl⟩
  have hdup : b.duplicate f.src = false := by
    have hstrap : b.station.loop = true := by rw [hb]; exact hloop
    simp [State.duplicate, hstrap]
  have hown : f.src = b.station.address := by rw [hb]; exact hsrc
  have hroster : b.rosterSource f.src = b := if_pos (.inr hown)
  have hroll : b.examineRoll f = b := if_neg fun ⟨_, hne, _⟩ => hne hown
  have hend : ({ u with line := heardLine u.line (frameBytes k f) } : State).goodEnd k f = (b.tableFrame k f).frameEnd (some f.src) := by
    rw [State.goodEnd, ← hb]
    simp only [hdup, hroster, hroll, ite_self, Bool.false_eq_true, if_false]
  have htwin : Twin True (copied u (frameBytes k f)).countGood b := by
    subst hb
    exact ⟨rfl, rfl, rfl, rfl, rfl, fun _ => rfl⟩
  refine ⟨_, (exec_frameRow_hear k f _).trans (congrArg Host.Outcome.next (hheard.trans hend)), ?_⟩
  have hstation : b.station = (copied u (frameBytes k f)).countGood.station := by rw [hb]; rfl
  have hright := eq_of_twin ((twin_congruence True).tableFrame htwin hstation k f) (tableFrame_only b k f)
  have hleft := circuitsOnly_eq (tableFrame_only (copied u (frameBytes k f)).countGood k f)
  rw [frameEnd_eq, hcopy]
  generalize (copied u (frameBytes k f)).countGood.tableFrame k f = x at *
  generalize b.tableFrame k f = y at *
  generalize y.frameEnd (some f.src) = z
  rw [hright, hb]
  conv_lhs => rw [hleft]
  rfl

theorem headerBytes_eq_headerOnLine (f : FlightFrame) :
    headerBytes f.kind f.header (BitVec.ofNat 8 f.payloadLength) = headerOnLine f := by
  have hcircuits : ∀ a b : Fin 16, (BitVec.ofNat 4 a.val ++ BitVec.ofNat 4 b.val : BitVec 8) = BitVec.ofNat 8 (b.val + 16 * a.val) := by
    decide
  have hseq : ∀ q : BitVec 6, ((0 : BitVec 2) ++ q : BitVec 8) = q.setWidth 8 := by decide
  unfold headerBytes headerOnLine
  rw [hcircuits, hseq, hseq, hseq]
  rfl

theorem bodyByte_eq_ownByte (s : State) (f : FlightFrame) (i : Nat) : s.bodyByte f i = Claims.ownByte s f i := by
  unfold State.bodyByte Claims.ownByte
  rw [headerBytes_eq_headerOnLine]
  rfl

/-- Header and payload as they are on the line. -/
def bodyOnLine (s : State) (f : FlightFrame) : List Byte :=
  let sent := s.line.driven.take f.bodyLength
  sent ++ ((List.range f.bodyLength).drop sent.length).map (s.bodyByte f)

theorem bodyOnLine_bytes (s : State) (f : FlightFrame) : (bodyOnLine s f).length = 7 + payloadSize f ∧
    ∀ i, i < 7 + payloadSize f →
      (bodyOnLine s f).getD i 0 = if i < s.line.driven.length then s.line.driven.getD i 0 else Claims.ownByte s f i := by
  have hbody : f.bodyLength = 7 + payloadSize f := rfl
  unfold bodyOnLine
  rw [hbody]
  generalize 7 + payloadSize f = n
  refine ⟨?_, fun i hi => ?_⟩
  · simp
  · by_cases hdriven : i < s.line.driven.length
    · rw [if_pos hdriven]
      rw [List.getD_append _ _ _ _ (by simp; omega)]
      simp [hi]
    · rw [if_neg hdriven, List.getD_append_right _ _ _ _ (by simp; omega), List.getD_eq_getElem?_getD]
      have hat : i - (s.line.driven.take n).length + (s.line.driven.take n).length = i := by simp; omega
      rw [List.getElem?_map, List.getElem?_drop, Nat.add_comm, hat, List.getElem?_range hi]
      exact bodyByte_eq_ownByte s f i

/-- The bytes on the line: header and payload, then the check over them. -/
theorem frameOnLine_bytes (s : State) (f : FlightFrame) :
    (s.frameOnLine f).length = 9 + payloadSize f ∧
    (∀ i, i < 7 + payloadSize f →
      (s.frameOnLine f).getD i 0 = if i < s.line.driven.length then s.line.driven.getD i 0 else Claims.ownByte s f i) ∧
    (s.frameOnLine f).getD (7 + payloadSize f) 0 =
      (checkOf ((s.frameOnLine f).take (7 + payloadSize f)) >>> 8).setWidth 8 ∧
    (s.frameOnLine f).getD (8 + payloadSize f) 0 = (checkOf ((s.frameOnLine f).take (7 + payloadSize f))).setWidth 8 := by
  obtain ⟨hlength, hbyte⟩ := bodyOnLine_bytes s f
  have hwhole : s.frameOnLine f = withCheck (bodyOnLine s f) := rfl
  have htake : (s.frameOnLine f).take (7 + payloadSize f) = bodyOnLine s f := by
    rw [hwhole, withCheck, ← hlength, List.take_left]
  refine ⟨?_, fun i hi => ?_, ?_, ?_⟩
  · rw [hwhole, withCheck, List.length_append, hlength]
    simp
    omega
  · rw [hwhole, withCheck, List.getD_append _ _ _ _ (by omega), hbyte i hi]
  · rw [htake, hwhole, withCheck, List.getD_append_right _ _ _ _ (by omega), hlength, Nat.sub_self]
    exact highByte_eq _
  · rw [htake, hwhole, withCheck, List.getD_append_right _ _ _ _ (by omega), hlength, show 8 + payloadSize f - (7 + payloadSize f) = 1 by omega]
    exact (BitVec.setWidth_eq_extractLsb' (by decide)).symm

/-- Settles O44: the sent report does not see the strap of loop test, and the copy goes to the Circuit Table alone. -/
theorem loopedCopyReachesOnlyTheCircuits : Obligations.LoopedCopyReachesOnlyTheCircuits := by
  refine ⟨fun s hline hloop f hf => ?_, loopedCopy_counts, fun u k f hrules h => ?_, fun u k f hrules => ?_,
    fun u k f hrules hloop hsrc => loopedCopy_heard hrules hloop hsrc, frameOnLine_bytes⟩
  · have hleft : exec .frameSent s = .next ((s.reportSent f).loopedCopy (s.frameOnLine f)) := by
      refine congrArg Host.Outcome.next ?_
      rw [State.frameSent, hline, Option.mem_def.mp hf]
      exact if_pos hloop
    have hright : exec .frameSent { s with station.loop := false } = .next (({ s with station.loop := false } : State).reportSent f) := by
      refine congrArg Host.Outcome.next ?_
      simp only [State.frameSent, hline, Option.mem_def.mp hf]
      rfl
    rw [hleft, hright, reportSent_looped hloop]
    rfl
  · rw [loopedCopy_good u (classify_frameBytes hrules), tableFrame_elsewhere (u := (copied u (frameBytes k f)).countGood) h]
    exact ⟨rfl, rfl, rfl⟩
  · have htwin := (twin_congruence False).tableFrame (twin_copied u (frameBytes k f)) rfl k f
    rw [loopedCopy_good u (classify_frameBytes hrules)]
    exact ⟨htwin.circuits, htwin.orphans, htwin.notice⟩

end Sys2Proof.Proofs
end

section
namespace Sys2Proof.Proofs

-- Each evaluation in the kernel waits for the check of all the text above it: one at a time.
set_option Elab.async false

open Sys2Proof Sys2Proof.Machine Sys2Proof.Claims Sys2Proof.Safety Sys2Proof.Laws

/-! ## A slot length read from the count of dropped orphans (R75, R102)

The premises of O42 leave the rings free, so that a transmit ring may lie over the count of dropped orphans in the Station Block. Five
losses before it fill the orphan list and change that count; four, on the list that the statement has emptied, do not. -/

/-- A plain circuit in OPEN with one slot posted and unsent, to circuit `n` of the peer 7, and its transmit ring at `base`. -/
def postedCircuit (n : CircuitNo) (base : Half) : Circuit := { Circuit.reset with
  state := .opened
  mode := .plain
  peer := 7
  peerCircuit := some n
  txBase := base
  txSize := 4
  postedCopy := 1 }

/-- Circuits 0 to 4 have a slot of length 253 at 0x1000, and the ring of circuit 5 lies over the count of drops, which stands at 252. -/
def crowded : State := (({ State.reset with
    station := { Station.reset 5 0 false with state := .active, resetLow := false, startStatus := .ok, circuitCount := 6 }
    line := { Line.reset with state := .idle, rxEnable := true, txEnable := true }
    arbiter := { Arbiter.reset 7 with state := .round, positions := 2, roundTimer := 24 }
    orphans := ⟨[], 252⟩
    circuits := Vector.ofFn fun c => if c.val < 5 then postedCircuit c 0x1000 else if c.val = 5 then postedCircuit c 0x30 else Circuit.reset } : State).poke
      0x30 252).poke 0x1000 253

theorem crowded_premises : MemoryLaw crowded ∧ turnReady crowded ∧ crowded.station.state = .active ∧ crowded.selector.inFlight = none ∧
    noCall crowded ∧ (∀ d, resendOf (crowded.circuit d) = none) ∧ (0 : CircuitNo).val < crowded.station.circuitCount ∧
    maySend (crowded.circuit 0) = true ∧
    (∀ d : CircuitNo, d.val < crowded.station.circuitCount → rotationRank crowded d < rotationRank crowded 0 →
      maySend (crowded.circuit d) = false) ∧
    252 < (crowded.peek (sendSlot (crowded.circuit 0) (crowded.circuit 0).nextSeq)).toNat := by decide +kernel

/-- The turn loses all six circuits and passes unused. -/
theorem crowded_turn : ∃ t, exec .turn crowded = .next t ∧ t.line.state = .idle :=
  ⟨_, rfl, by decide +kernel⟩

/-- The writes of a record and of an entry leave the count of drops. -/
theorem drops_pokeRecord (s : State) (c : CircuitNo) {off : Nat} (hoff : off < 0x40) (v : Byte) :
    (s.pokeRecord c off v).peek 0x30 = s.peek 0x30 :=
  pokeRecord_sameWindow s c hoff v _ (by decide) (not_mem_recordBytes (by decide))

theorem drops_raise (s : State) (p : NoticePair) : (s.raise p).peek 0x30 = s.peek 0x30 :=
  peek_raise_ne s p _ (by decide) (by decide) (by decide)

theorem recordFault_calm (s : State) (c : CircuitNo) (kind : FaultKind) : (s.recordFault c kind).peek 0x30 = s.peek 0x30 ∧
    (s.recordFault c kind).orphans = s.orphans ∧ ((s.recordFault c kind).circuit c).state = (s.circuit c).state := by
  have honly := raise_only ((s.updCircuit c fun k => { k with faultKind := kind }).pokeRecord c recFaultKind kind.code) (.circuit c .fault)
  refine ⟨(drops_raise _ _).trans (drops_pokeRecord _ c (by decide) _), honly.orphans, ?_⟩
  rw [State.recordFault, honly.circuit, circuit_pokeRecord, circuit_updCircuit_same]

/-- An OPEN circuit owes no CONFIRM that its loss could move to the orphan list (R91). -/
theorem lose_calm {s : State} {c : CircuitNo} (hopened : (s.circuit c).state = .opened) (cause : EndCause) :
    (s.lose c cause).peek 0x30 = s.peek 0x30 ∧ (s.lose c cause).orphans = s.orphans := by
  rw [State.lose, hopened]
  refine ⟨?_, enterEnded_orphans s c cause false⟩
  unfold State.enterEnded
  dsimp only
  rw [drops_raise, State.setCircuitState, drops_pokeRecord _ c (by decide)]
  show State.peek (State.pokeRecord _ c recEndCause cause.code) 0x30 = _
  rw [drops_pokeRecord _ c (by decide), State.writeUnsent]
  exact drops_pokeRecord _ c (by decide) _

/-- A slot fault of an OPEN circuit, where the orphan list has room: the count of drops stays. -/
theorem slotFault_calm {s : State} {c : CircuitNo} (hopened : (s.circuit c).state = .opened) (hroom : s.orphans.entries.length < 4) :
    (s.slotFault c).peek 0x30 = s.peek 0x30 ∧ (s.slotFault c).orphans.entries.length ≤ s.orphans.entries.length + 1 := by
  obtain ⟨hfault, horphans, hstate⟩ := recordFault_calm s c .slotFault
  obtain ⟨hlost, hkept⟩ := lose_calm (hstate.trans hopened) .slotFault
  rw [hfault] at hlost
  rw [horphans] at hkept
  unfold State.slotFault
  dsimp only
  generalize (s.recordFault c .slotFault).lose c .slotFault = v at *
  rw [← hlost, ← hkept]
  obtain h | ⟨hfull, -⟩ | ⟨-, -, h⟩ := addOrphan_cases v (s.circuit c).peer ((s.circuit c).peerCircuit.getD 0) (.clear c)
  · rw [h]
    exact ⟨rfl, Nat.le_succ _⟩
  · have hfull' : 4 ≤ v.orphans.entries.length := hfull
    rw [hkept] at hfull'
    omega
  · rw [h]
    exact ⟨rfl, by simp⟩

/-- A search comes to a circuit with a slot of no more than 252 bytes over the count of drops, where the losses on the way leave room on
the orphan list. -/
theorem scanData_reaches {wants : Circuit → Option Seq} {use : Seq → FrameUse} {c : CircuitNo} {seq : Seq} {rest : List CircuitNo}
    {l : List CircuitNo} (hnodup : l.Nodup) (hc : c ∉ l) {s : State} (hopened : ∀ d ∈ l, (s.circuit d).state = .opened)
    (hroom : s.orphans.entries.length + l.length ≤ 4) (hwants : wants (s.circuit c) = some seq) (hslot : (s.circuit c).txSlot seq = 0x30)
    (hlength : (s.peek 0x30).toNat ≤ 252) : (s.scanData wants use (l ++ c :: rest)).2 ≠ none := by
  induction l generalizing s with
  | nil =>
    rw [List.nil_append, State.scanData, hwants]
    dsimp only
    rw [hslot, if_neg (show ¬Config.maxPayload < (s.peek 0x30).toNat from Nat.not_lt.mpr hlength)]
    exact Option.some_ne_none _
  | cons d l ih =>
    rw [List.nodup_cons] at hnodup
    rw [List.mem_cons, not_or] at hc
    rw [List.length_cons] at hroom
    rw [List.forall_mem_cons] at hopened
    obtain ⟨hd, hopened⟩ := hopened
    rw [List.cons_append, State.scanData]
    split
    · exact ih hnodup.2 hc.2 hopened (by omega) hwants hslot hlength
    · dsimp only
      split
      · have honly := slotFault_only s d
        have hsame (e : CircuitNo) (he : e ≠ d) : (s.slotFault d).circuit e = s.circuit e := honly.others e he
        obtain ⟨hpeek, hentries⟩ := slotFault_calm hd (by omega)
        refine ih hnodup.2 hc.2 (fun e he => ?_) (by omega) ?_ ?_ (by rw [hpeek]; exact hlength)
        · rw [hsame e fun h => hnodup.1 (h ▸ he)]
          exact hopened e he
        · rw [hsame c hc.1]
          exact hwants
        · rw [hsame c hc.1]
          exact hslot
      · exact Option.some_ne_none _

/-- A frame chosen starts, whatever was lost on the way. -/
theorem exec_turn_sends {s : State} (hready : turnReady s) (hactive : s.station.state = .active) (hchoose : (turning s).choose.2 ≠ none) :
    ∃ t, exec .turn s = .next t ∧ t.line.state = .sending := by
  obtain ⟨hposition, hidle, henable⟩ := hready
  obtain ⟨f, hf⟩ := Option.ne_none_iff_exists'.mp hchoose
  have hline := (choose_only (turning s)).line
  have hpair : (turning s).choose = ((turning s).choose.1, some f) := Prod.ext rfl hf
  generalize (turning s).choose.1 = u at *
  have hturn : s.makeTurn = u.startFrame f := by
    unfold State.makeTurn
    dsimp only
    rw [if_pos ⟨by rw [hactive]; rfl, hidle⟩]
    rw [hpair]
  refine ⟨u.startFrame f, by rw [exec_turn, if_pos hposition, hturn], ?_⟩
  rw [State.startFrame, if_pos (by rw [hline]; exact ⟨hidle, henable⟩), State.lineBusyToArbiter]
  split <;> rfl

theorem rotationOrder_crowded : crowded.rotationOrder = [0] ++ ([1, 2, 3, 4] ++ 5 :: []) := by decide +kernel

theorem crowded_others : ∀ d : CircuitNo, d ∈ [1, 2, 3, 4] → (crowded.circuit d).state = .opened := by decide +kernel

theorem crowded_last : (crowded.circuit 5).wantsNew = some 0 ∧ (crowded.circuit 5).txSlot 0 = 0x30 ∧ crowded.peek 0x30 = 252 := by
  decide +kernel

/-- What the first loss leaves of `crowded` sends the DATA of circuit 5, its orphan list emptied. -/
theorem crowded_scan {u : State} (hstation : u.station = crowded.station) (hselector : u.selector = crowded.selector)
    (hsame : sameCircuits crowded u 0) (hcircuit : u.circuit 0 = lostWith { crowded.circuit 0 with faultKind := .slotFault } .slotFault)
    (hpeek : u.peek 0x30 = crowded.peek 0x30) : (turning { u with orphans.entries := [] }).chooseData.2 ≠ none := by
  have hlost : resendOf (u.circuit 0) = none ∧ (u.circuit 0).wantsNew = none := by
    rw [hcircuit]
    decide +kernel
  obtain ⟨-, -, -, -, -, hnone, -⟩ := crowded_premises
  have hresend (d : CircuitNo) : resendOf (u.circuit d) = none := by
    by_cases hd : d = 0
    · rw [hd, hlost.1]
    · rw [hsame d hd, hnone d]
  obtain ⟨hwants, hslot, hcount⟩ := crowded_last
  have horder : (turning { u with orphans.entries := [] }).rotationOrder = [0] ++ ([1, 2, 3, 4] ++ 5 :: []) := by
    rw [← rotationOrder_crowded]
    unfold State.rotationOrder State.configured
    rw [show (turning { u with orphans.entries := [] }).station = crowded.station from hstation,
      show (turning { u with orphans.entries := [] }).selector = crowded.selector from hselector]
  have hreaches := scanData_reaches (wants := Circuit.wantsNew) (use := fun _ => .newData) (c := 5) (rest := []) (l := [1, 2, 3, 4])
    (by decide) (by decide) (s := turning { u with orphans.entries := [] })
    (fun d hd => by
      rw [show (turning { u with orphans.entries := [] }).circuit d = crowded.circuit d from
        hsame d fun h => by subst h; exact absurd hd (by decide)]
      exact crowded_others d hd)
    (Nat.le_refl 4)
    (by rw [show (turning { u with orphans.entries := [] }).circuit 5 = crowded.circuit 5 from hsame 5 (by decide)]; exact hwants)
    (by rw [show (turning { u with orphans.entries := [] }).circuit 5 = crowded.circuit 5 from hsame 5 (by decide)]; exact hslot)
    (by rw [show (turning { u with orphans.entries := [] }).peek 0x30 = 252 from hpeek.trans hcount]; decide)
  rw [chooseData_of_noResend (s := turning { u with orphans.entries := [] }) hresend, horder,
    scanData_skip (s := turning { u with orphans.entries := [] }) fun d hd => by
      rw [List.mem_singleton.mp hd]
      exact hlost.2]
  generalize (turning { u with orphans.entries := [] }).scanData Circuit.wantsNew (fun _ => .newData) ([1, 2, 3, 4] ++ 5 :: []) = pair at *
  obtain ⟨x, _ | f⟩ := pair
  · exact absurd rfl hreaches
  · exact Option.some_ne_none _

/-- Refutes O42: in `crowded` the turn loses circuit 5 as well, where the state that the first loss leaves, its orphan list emptied,
sends the DATA of circuit 5. -/
theorem not_badSlotLengthLosesTheCircuit : ¬ Obligations.BadSlotLengthLosesTheCircuit := by
  intro h
  obtain ⟨hmem, hready, hactive, hflight, hcall, hresend, hcount, hmay, hfirst, hlength⟩ := crowded_premises
  obtain ⟨u, v, t, hexec, hu, hsame, hcircuit, -, -, -, -, -, -, -, hwindow, hready', hcall', hexec', ht, -⟩ :=
    h crowded 0 hmem hready hactive hflight hcall (.inr ⟨hresend, hcount, hmay, hfirst, hlength⟩)
  have hstation : u.station = crowded.station := by rw [hu]
  have hselector : u.selector = crowded.selector := by rw [hu]
  have hpeek : u.peek 0x30 = crowded.peek 0x30 := hwindow _ (by decide) fun hin => by
    rw [List.mem_append, List.mem_append] at hin
    obtain (hin | hin) | hin := hin
    · exact absurd hin (by decide)
    · exact not_mem_recordBytes (by decide) hin
    · exact not_mem_raiseBytes (by decide) crowded 2 hin
  obtain ⟨t', hidle, hline⟩ := crowded_turn
  obtain rfl : t = t' := Host.Outcome.next.inj (hexec.symm.trans hidle)
  have hscan := crowded_scan hstation hselector hsame hcircuit hpeek
  obtain ⟨v', hsent, hsending⟩ := exec_turn_sends (s := { u with orphans.entries := [] }) hready' (by rw [← hactive, ← hstation]) (by
    rw [choose_of_noCall (s := turning { u with orphans.entries := [] }) (by rw [← hactive, ← hstation]) hcall']
    exact hscan)
  obtain rfl : v = v' := Host.Outcome.next.inj (hexec'.symm.trans hsent)
  have hsame' : t.line = v.line := by rw [ht]
  rw [hsame', hsending] at hline
  cases hline

end Sys2Proof.Proofs
end

section
namespace Sys2Proof.Proofs

open Sys2Proof Sys2Proof.Machine Sys2Proof.Claims Sys2Proof.Safety Sys2Proof.Laws

/-! ## Runs of bytes written into the window -/

theorem pokeEach_eq (bytes : List (Nat × Byte)) (s : State) : s.pokeEach bytes = { s with window := (s.pokeEach bytes).window } := by
  induction bytes generalizing s with
  | nil => rfl
  | cons b rest ih => exact ih (s.poke b.1 b.2)

/-- A run of bytes that gives an offset one value alone leaves it there. -/
theorem peek_pokeEach_value {bytes : List (Nat × Byte)} (hlow : ∀ b ∈ bytes, b.1 < 65536) {a : Nat} {v : Byte}
    (hin : ∃ b ∈ bytes, b.1 = a) (hvalue : ∀ b ∈ bytes, b.1 = a → b.2 = v) {s : State} (hmem : MemoryLaw s) :
    (s.pokeEach bytes).peek a = v := by
  induction bytes generalizing s with
  | nil =>
    obtain ⟨b, hb, -⟩ := hin
    exact absurd hb List.not_mem_nil
  | cons b rest ih =>
    rw [List.forall_mem_cons] at hlow hvalue
    by_cases hrest : ∃ c ∈ rest, c.1 = a
    · exact ih hlow.2 hrest hvalue.2 (poke_wf _ _ _ hmem)
    · have hout : ∀ c ∈ rest, c.1 ≠ a := fun c hc he => hrest ⟨c, hc, he⟩
      obtain ⟨c, hc, rfl⟩ := hin
      obtain rfl | hc := List.mem_cons.mp hc
      · have hsame := hvalue.1 rfl
        refine (peek_pokeEach_ne hlow.2 _ hlow.1 hout).trans ?_
        rw [peek_poke_same _ _ _ hmem hlow.1, hsame]
      · exact absurd rfl (hout c hc)

/-- The bytes of one write of a pass. -/
def writeBytes : FieldWrite → List (Nat × Byte)
  | .byte off v => [(off, v)]
  | .half off v => [(off, lowByte v), (off + 1, highByte v)]

theorem writeFields_eq_pokeEach (ws : List FieldWrite) (s : State) : s.writeFields ws = s.pokeEach (ws.flatMap writeBytes) := by
  induction ws generalizing s with
  | nil => rfl
  | cons w rest ih =>
    have hfirst : s.writeField w = s.pokeEach (writeBytes w) := by cases w <;> rfl
    rw [List.flatMap_cons, pokeEach_append, ← hfirst]
    exact ih _

/-! ## A write of CONTROL taken (R145) -/

/-- What a taken write of CONTROL starts, before the write-back. -/
def started (v : Byte) (u : State) : State :=
  if v = 0x5A ∧ u.station.state = .config then u.takeGo else if v = 0xA5 then u.takeRestart else u

theorem takeControl_eq (u : State) (v : Byte) : u.takeControl v =
    if u.station.state = .reset then u else (started v u.landLater).writeBackControl := rfl

/-- The command of a write of CONTROL. -/
theorem exec_control {s : State} {v : Byte} {i : Instr} (hi : (i = .controlOtherValue v) ∨ (i = .go ∧ v = 0x5A) ∨ (i = .restart ∧ v = 0xA5)) :
    exec i s = .next ((s.arrive [(0x0A, v)]).takeControl v) := by
  obtain rfl | ⟨rfl, rfl⟩ | ⟨rfl, rfl⟩ := hi <;> rfl

/-- Where no later write of CONTROL is open, the command does what it starts on the state in which its byte stands. -/
theorem exec_control_closed {s : State} {v : Byte} {i : Instr} (hopen : openWrites s = false) (hstate : s.station.state ≠ .reset)
    (hi : (i = .controlOtherValue v) ∨ (i = .go ∧ v = 0x5A) ∨ (i = .restart ∧ v = 0xA5)) :
    exec i s = .next (started v (s.arrive [(0x0A, v)])).writeBackControl := by
  have hkept : (s.arrive [(0x0A, v)]).station.state ≠ .reset := by rw [arrive_eq]; exact hstate
  rw [exec_control hi, takeControl_eq, if_neg hkept, landLater_of_openWrites hopen]

/-- Whether a write of CONTROL that waits has landed, as the model and the statements say it. -/
theorem landed_touches (s : State) (n : Nat) :
    (s.writesAhead.take n).any touchesControl = ((writesWaiting s).take n).any writesControl := by
  rw [writesAhead_eq, ← List.map_take, List.any_map]
  exact congrArg _ (funext fun i => (writesControl_eq i).symm)

/-- The write-back, of a state that has left CONTROL and the queue as they were when the write was taken (R145). -/
theorem writeBack_shows {s t : State} {v : Byte} (hmem : MemoryLaw s) (hwf : MemoryLaw t) (hpending : t.pending = s.pending)
    (hlanded : t.landed = s.landed - 1) (hcontrol : t.peek 0x0A = (s.arrive [(0x0A, v)]).peek 0x0A) :
    t.writeBackControl = { t with window := t.writeBackControl.window } ∧ writtenBack s t.writeBackControl ∧
      sameWindow t t.writeBackControl [0x0A] ∧ MemoryLaw t.writeBackControl := by
  have hahead : (t.writesAhead.take t.landed).any touchesControl = ((writesWaiting s).take (s.landed - 1)).any writesControl := by
    rw [hlanded, ← landed_touches, State.writesAhead, hpending]
    rfl
  obtain ⟨htouches, h⟩ | ⟨htouches, h⟩ := writeBackControl_cases t <;> rw [h] <;> rw [hahead] at htouches
  · refine ⟨rfl, ?_, fun _ _ _ => rfl, hwf⟩
    have hlands := (arrive_arrived hmem (by decide : (0x0A : Nat) < 65536) v).lands
    have hsome : s.landed ≠ 0 := fun hzero => by
      rw [hzero] at htouches
      exact absurd htouches (by simp)
    rw [landsAt, if_neg hsome] at hlands
    rw [writtenBack, if_pos htouches, hcontrol, hlands]
  · refine ⟨rfl, ?_, poke_sameWindow t (by decide) 0, poke_wf _ _ _ hwf⟩
    rw [writtenBack, if_neg (by rw [htouches]; decide)]
    exact peek_poke_same t _ _ hwf (by decide)

end Sys2Proof.Proofs
end

section
namespace Sys2Proof.Proofs

open Sys2Proof Sys2Proof.Machine Sys2Proof.Claims Sys2Proof.Safety Sys2Proof.Laws

/-! ## RESTART (R181) -/

/-- The state fields of the configured circuits, written FREE. -/
def freeStates (s : State) : List (Nat × Byte) := (allCircuits.filter fun c => s.configured c).map fun c => (recordBase c, 0)

theorem showAllFree_eq_pokeEach (s : State) : s.showAllFree = s.pokeEach (freeStates s) := by
  have hfold (l : List CircuitNo) (u : State) (hu : u.configured = s.configured) :
      l.foldl (fun t c => if t.configured c then t.pokeRecord c recState CircuitState.free.code else t) u =
        u.pokeEach ((l.filter fun c => s.configured c).map fun c => (recordBase c, 0)) := by
    induction l generalizing u with
    | nil => rfl
    | cons c rest ih =>
      rw [List.foldl_cons, List.filter_cons, hu]
      cases s.configured c with
      | true => exact ih (u.poke (recordBase c) 0) hu
      | false => exact ih u hu
  exact hfold allCircuits s rfl

theorem restartWrites_zero : ∀ b ∈ restartWrites.flatMap writeBytes, b.2 = 0 := by decide

theorem restartWrites_offsets : ∀ b ∈ restartWrites.flatMap writeBytes,
    b.1 ∈ [0x08, 0x09, 0x0D, 0x0F, 0x10, 0x11, 0x12, 0x13] ++ bytesFrom 0x14 30 := by decide

theorem restartWrites_all : ∀ a ∈ [0x08, 0x09, 0x0D, 0x0F, 0x10, 0x11, 0x12, 0x13] ++ bytesFrom 0x14 30,
    ∃ b ∈ restartWrites.flatMap writeBytes, b.1 = a := by decide

/-- The bytes of a restart, but for the state and the halt cause. -/
def restartRun (s : State) : List (Nat × Byte) := freeStates s ++ restartWrites.flatMap writeBytes

theorem restartRun_eq (s : State) : s.showAllFree.writeFields restartWrites = s.pokeEach (restartRun s) := by
  rw [showAllFree_eq_pokeEach, writeFields_eq_pokeEach, restartRun, pokeEach_append]

theorem mem_freeStates {s : State} {b : Nat × Byte} : b ∈ freeStates s ↔ ∃ c : CircuitNo, c.val < s.station.circuitCount ∧ (recordBase c, 0) = b := by
  simp only [freeStates, State.configured, List.mem_map, List.mem_filter, mem_allCircuits, true_and, decide_eq_true_eq]

theorem restartRun_zero {s : State} : ∀ b ∈ restartRun s, b.2 = 0 := by
  intro b hb
  obtain hb | hb := List.mem_append.mp hb
  · obtain ⟨c, -, rfl⟩ := mem_freeStates.mp hb
    rfl
  · exact restartWrites_zero b hb

theorem restartRun_low {s : State} : ∀ b ∈ restartRun s, b.1 < 65536 := by
  intro b hb
  obtain hb | hb := List.mem_append.mp hb
  · obtain ⟨c, -, rfl⟩ := mem_freeStates.mp hb
    exact record_lt c (off := 0) (by decide)
  · have h := restartWrites_offsets b hb
    revert h
    generalize b.1 = a
    revert a
    decide

/-- The offsets that a restart writes, but for the state and the halt cause. -/
def restartOffsets (s : State) : List Nat :=
  [0x08, 0x09, 0x0D, 0x0F, 0x10, 0x11, 0x12, 0x13] ++ bytesFrom 0x14 30 ++
    (allCircuits.filter fun c => decide (c.val < s.station.circuitCount)).map recordBase

theorem mem_restartOffsets {s : State} {a : Nat} : a ∈ restartOffsets s ↔ ∃ b ∈ restartRun s, b.1 = a := by
  have hrecords : a ∈ (allCircuits.filter fun c => decide (c.val < s.station.circuitCount)).map recordBase ↔ ∃ b ∈ freeStates s, b.1 = a := by
    simp only [List.mem_map, List.mem_filter, mem_allCircuits, true_and, decide_eq_true_eq, mem_freeStates]
    constructor
    · rintro ⟨c, hc, rfl⟩
      exact ⟨_, ⟨c, hc, rfl⟩, rfl⟩
    · rintro ⟨b, ⟨c, hc, rfl⟩, rfl⟩
      exact ⟨c, hc, rfl⟩
  have hfields : a ∈ [0x08, 0x09, 0x0D, 0x0F, 0x10, 0x11, 0x12, 0x13] ++ bytesFrom 0x14 30 ↔ ∃ b ∈ restartWrites.flatMap writeBytes, b.1 = a :=
    ⟨restartWrites_all a, fun ⟨b, hb, hba⟩ => hba ▸ restartWrites_offsets b hb⟩
  rw [restartOffsets, List.mem_append, hrecords, hfields, restartRun]
  simp only [List.mem_append, or_and_right, exists_or]
  exact or_comm

/-- What a restart leaves in the window. -/
theorem takeRestart_shows {u : State} (hmem : MemoryLaw u) : MemoryLaw u.takeRestart ∧
    u.takeRestart = { restartBlocks u u.station.address with window := u.takeRestart.window } ∧
    u.takeRestart.peek 0x03 = (restartState u.station.address).code ∧ u.takeRestart.peek 0x04 = (restartCause u.station.address).code ∧
    (∀ a ∈ restartOffsets u, a ≠ 0x03 → a ≠ 0x04 → u.takeRestart.peek a = 0) ∧
    sameWindow u u.takeRestart ([0x03, 0x04] ++ restartOffsets u) := by
  rw [takeRestart_eq, restartRun_eq, pokeEach_eq]
  have hrun := pokeEach_wf (restartRun u) hmem
  have hzero {a : Nat} (ha : a ∈ restartOffsets u) : (u.pokeEach (restartRun u)).peek a = 0 :=
    peek_pokeEach_value restartRun_low (mem_restartOffsets.mp ha) (fun b hb _ => restartRun_zero b hb) hmem
  have hkept {a : Nat} (ha : a < 65536) (hout : a ∉ restartOffsets u) : (u.pokeEach (restartRun u)).peek a = u.peek a :=
    peek_pokeEach_ne restartRun_low u ha fun b hb hba => hout (mem_restartOffsets.mpr ⟨b, hb, hba⟩)
  generalize u.pokeEach (restartRun u) = w at *
  obtain ⟨x, hx⟩ : ∃ x, x = restartBlocks { u with window := w.window } u.station.address := ⟨_, rfl⟩
  have hwf : MemoryLaw x := by rw [hx]; exact hrun
  have hpeek (a : Nat) : x.peek a = w.peek a := by rw [hx]; rfl
  have hfirst := peek_poke_same x offHaltCause (restartCause u.station.address).code hwf (by decide)
  have hfirst' {a : Nat} (ha : a < 65536) (hne : a ≠ 0x04) : (x.poke offHaltCause (restartCause u.station.address).code).peek a = x.peek a :=
    peek_poke_ne x _ a _ (by decide) ha hne
  have hwf' : MemoryLaw (x.poke offHaltCause (restartCause u.station.address).code) := poke_wf _ _ _ hwf
  have heq : (x.poke offHaltCause (restartCause u.station.address).code).poke offStationState (restartState u.station.address).code =
      { restartBlocks u u.station.address with
        window := ((x.poke offHaltCause (restartCause u.station.address).code).poke offStationState (restartState u.station.address).code).window } := by
    rw [hx]
    rfl
  rw [show restartBlocks ({ u with window := w.window } : State) u.station.address = x from hx.symm]
  generalize x.poke offHaltCause (restartCause u.station.address).code = y at *
  have hlast := peek_poke_same y offStationState (restartState u.station.address).code hwf' (by decide)
  have hlast' {a : Nat} (ha : a < 65536) (hne : a ≠ 0x03) : (y.poke offStationState (restartState u.station.address).code).peek a = y.peek a :=
    peek_poke_ne y _ a _ (by decide) ha hne
  refine ⟨poke_wf _ _ _ hwf', heq, hlast, (hlast' (by decide) (by decide)).trans hfirst, fun a ha h3 h4 => ?_, fun a ha hout => ?_⟩
  · have hlow : a < 65536 := by
      obtain ⟨b, hb, rfl⟩ := mem_restartOffsets.mp ha
      exact restartRun_low b hb
    rw [hlast' hlow h3, hfirst' hlow h4, hpeek, hzero ha]
  · simp only [List.mem_append, List.mem_cons, List.not_mem_nil, or_false, not_or] at hout
    obtain ⟨⟨h3, h4⟩, hout⟩ := hout
    rw [hlast' ha h3, hfirst' ha h4, hpeek, hkept ha hout]

theorem not_restartOffset {s : State} {a : Nat} (ha : a < 0x0100) (hout : a ∉ [0x08, 0x09, 0x0D, 0x0F, 0x10, 0x11, 0x12, 0x13] ++ bytesFrom 0x14 30) :
    a ∉ restartOffsets s := fun hin => by
  obtain h | h := List.mem_append.mp hin
  · exact hout h
  · obtain ⟨c, -, rfl⟩ := List.mem_map.mp h
    have := recordBase_range c
    omega

theorem entry_reset (a : Nat) : Roster.reset.entry a = ⟨false, 0⟩ := by
  unfold Roster.entry Roster.reset
  split
  · simp [Vector.get_eq_getElem, RosterEntry.absent]
  · rfl

/-- The codes of the state and the halt cause that a restart leaves. -/
theorem restart_codes (a : Address) : (restartState a).code = (if a = 31 then 5 else 1) ∧ (restartCause a).code = (if a = 31 then 2 else 0) := by
  unfold restartState restartCause
  split <;> exact ⟨rfl, rfl⟩

/-- Settles O7: the byte arrives, the restart leaves every block at its values, and CONTROL is written back. -/
theorem restartReturnsToConfig : Obligations.RestartReturnsToConfig := by
  intro s hmem hstate hopen
  have hexec := exec_control_closed (v := 0xA5) hopen hstate (.inr (.inr ⟨rfl, rfl⟩))
  have harrived := arrive_arrived hmem (by decide : (0x0A : Nat) < 65536) 0xA5
  have hstarted : started 0xA5 (s.arrive [(0x0A, 0xA5)]) = (s.arrive [(0x0A, 0xA5)]).takeRestart := by
    rw [started, if_neg fun h => absurd h.1 (by decide), if_pos rfl]
  rw [hstarted] at hexec
  obtain ⟨hwf, heq, h3, h4, hzero, hwindow⟩ := takeRestart_shows harrived.memory
  have hframe := harrived.frame
  have hcontrol : (s.arrive [(0x0A, 0xA5)]).takeRestart.peek 0x0A = (s.arrive [(0x0A, 0xA5)]).peek 0x0A := hwindow _ (by decide) fun hin => by
    obtain h | h := List.mem_append.mp hin
    · exact absurd h (by decide)
    · exact not_restartOffset (by decide) (by decide) h
  obtain ⟨hback, hwritten, hlast, -⟩ := writeBack_shows hmem hwf (by rw [heq, hframe]; rfl) (by rw [heq, hframe]; rfl) hcontrol
  have hfirst := harrived.window
  generalize s.arrive [(0x0A, 0xA5)] = u at *
  have hstation : u.station = s.station := by rw [hframe]
  have hoffsets : restartOffsets u = restartOffsets s := by rw [restartOffsets, hstation, restartOffsets]
  rw [hoffsets] at hzero hwindow
  rw [hstation] at heq h3 h4
  obtain ⟨hcode, hcause⟩ := restart_codes s.station.address
  generalize u.takeRestart = x at *
  have hpeek {a : Nat} (ha : a < 65536) (hne : a ≠ 0x0A) : x.writeBackControl.peek a = x.peek a := hlast a ha (by simpa using hne)
  have hall : sameWindow s x.writeBackControl ([0x0A] ++ ([0x03, 0x04] ++ restartOffsets s ++ [0x0A])) :=
    sameWindow_trans hfirst (sameWindow_trans hwindow hlast)
  generalize x.writeBackControl = t at *
  have ht : t = { restartBlocks s s.station.address with landed := s.landed - 1, window := t.window } := by
    rw [heq, hframe] at hback
    exact hback
  have hcircuit (c : CircuitNo) : t.circuit c = (s.circuit c).restarted := by
    rw [ht]
    exact restartBlocks_circuit s s.station.address c
  have hkept {a : Nat} (ha : a ∈ restartOffsets s) (hlow : a < 65536) (hne : a ≠ 0x03 ∧ a ≠ 0x04 ∧ a ≠ 0x0A) : t.peek a = 0 :=
    (hpeek hlow hne.2.2).trans (hzero a ha hne.1 hne.2.1)
  refine ⟨t, hexec, by rw [ht]; rfl, ?_, by rw [ht]; rfl, fun c => ?_, by rw [ht]; rfl, by rw [ht]; rfl, by rw [ht], by rw [ht]; rfl, hwritten,
    ?_, ?_, fun a ha => ?_, fun c hc => ?_, ?_⟩
  · rw [ht]
    exact ⟨rfl, rfl, rfl, rfl, rfl, rfl, rfl, rfl, rfl, rfl, rfl, rfl, rfl, rfl, rfl, fun a _ => entry_reset a, rfl, rfl, rfl, rfl, rfl, rfl, rfl,
      rfl, rfl, rfl, rfl, rfl, rfl, rfl⟩
  · rw [hcircuit]
    exact ⟨rfl, rfl, rfl, rfl, rfl, rfl, rfl, rfl, rfl, rfl, rfl, rfl, rfl, rfl, rfl, rfl, rfl, rfl⟩
  · rw [hpeek (by decide) (by decide), h3, hcode]
  · rw [hpeek (by decide) (by decide), h4, hcause]
  · have hfield : a < 65536 ∧ a ≠ 0x03 ∧ a ≠ 0x04 ∧ a ≠ 0x0A := by
      revert a
      decide
    exact hkept (List.mem_append_left _ ha) hfield.1 hfield.2
  · have hrange := recordBase_range c
    refine hkept (List.mem_append_right _ (List.mem_map_of_mem (List.mem_filter.mpr ⟨mem_allCircuits c, by simpa using hc⟩))) (by omega) (by omega)
  · refine sameWindow_mono hall fun a ha => ?_
    simp only [restartOffsets, List.mem_append, List.mem_cons, List.not_mem_nil, or_false] at ha ⊢
    tauto

end Sys2Proof.Proofs
end

section
namespace Sys2Proof.Proofs

open Sys2Proof Sys2Proof.Machine Sys2Proof.Claims Sys2Proof.Safety Sys2Proof.Laws

/-! ## The checks of the Start Block (R175) -/

theorem circuitsBelow_vals : ∀ n, n ≤ 16 → (circuitsBelow n).map Fin.val = List.range n := by decide

theorem ringTotal_eq_slotsTaken (s : State) {n : Nat} (hn : n ≤ 16) : s.ringTotal n = slotsTaken s n := by
  rw [ringTotal_eq_slotsOf, slotsOf, slotsTaken, ← circuitsBelow_vals n hn, List.map_map]
  rfl

theorem codesFit_eq (s : State) {n : Nat} (hn : n ≤ 16) :
    ((circuitsBelow n).all fun c => decide (s.startTxCode c ≤ 5) && decide (s.startRxCode c ≤ 5)) = codesFit s n := by
  unfold codesFit
  rw [← circuitsBelow_vals n hn, List.all_map]
  rfl

/-- The checks in the words of the statements. -/
theorem checkStartBlock_eq (s : State) : s.checkStartBlock = startOutcome s := by
  unfold State.checkStartBlock startOutcome
  dsimp only
  have hcount : s.startCount = (s.peek 0x0800).toNat := rfl
  rw [hcount]
  by_cases hn : 1 ≤ (s.peek 0x0800).toNat ∧ (s.peek 0x0800).toNat ≤ 16
  · rw [if_neg (not_not.mpr hn), if_neg (show ¬((s.peek 0x0800).toNat < 1 ∨ 16 < (s.peek 0x0800).toNat) by omega),
      codesFit_eq s hn.2, ringTotal_eq_slotsTaken s hn.2]
    refine if_congr (by simp) rfl (if_congr Iff.rfl rfl (if_congr ?_ rfl (if_congr Iff.rfl rfl (if_congr ?_ rfl rfl))))
    · show ¬(1 ≤ (s.peek 0x0801).toNat ∧ (s.peek 0x0801).toNat ≤ 8) ↔ _
      omega
    · show ¬((s.peek 0x0803).toNat < (s.peek 0x0804).toNat) ↔ _
      omega
  · rw [if_pos hn, if_pos (show (s.peek 0x0800).toNat < 1 ∨ 16 < (s.peek 0x0800).toNat by omega)]

/-- The checks read the Start Block alone. -/
theorem startOutcome_congr {s t : State} (h : ∀ a, 0x0800 ≤ a → a < 0x0840 → t.peek a = s.peek a) : startOutcome t = startOutcome s := by
  have htaken (n : Nat) (hn : n ≤ 16) : slotsTaken t n = slotsTaken s n := by
    refine congrArg List.sum (List.map_congr_left fun d hd => ?_)
    rw [List.mem_range] at hd
    rw [h _ (by omega) (by omega), h _ (by omega) (by omega)]
  have hcodes (n : Nat) (hn : n ≤ 16) : codesFit t n = codesFit s n := by
    unfold codesFit
    rw [Bool.eq_iff_iff, List.all_eq_true, List.all_eq_true]
    refine forall_congr' fun d => imp_congr_right fun hd => ?_
    rw [List.mem_range] at hd
    rw [h _ (by omega) (by omega), h _ (by omega) (by omega)]
  unfold startOutcome
  dsimp only
  rw [h 0x0800 (by decide) (by decide), h 0x0801 (by decide) (by decide), h 0x0802 (by decide) (by decide),
    h 0x0803 (by decide) (by decide), h 0x0804 (by decide) (by decide)]
  by_cases hn : (s.peek 0x0800).toNat < 1 ∨ 16 < (s.peek 0x0800).toNat
  · rw [if_pos hn, if_pos hn]
  · have hle : (s.peek 0x0800).toNat ≤ 16 := by omega
    rw [hcodes _ hle, htaken _ hle]

/-! ## Writes of CONTROL that start nothing (R145) -/

/-- A write of CONTROL that neither starts nor restarts the station. -/
theorem started_nothing {s : State} {v : Byte} {i : Instr} (hstate : s.station.state ≠ .reset)
    (hi : (i = .controlOtherValue v ∧ v ≠ 0x5A ∧ v ≠ 0xA5) ∨ (i = .go ∧ v = 0x5A ∧ s.station.state ≠ .config) ∨
      (i = .restart ∧ v = 0xA5 ∧ s.station.state = .reset)) : started v (s.arrive [(0x0A, v)]) = s.arrive [(0x0A, v)] := by
  have hkept : (s.arrive [(0x0A, v)]).station.state = s.station.state := by rw [arrive_eq]
  rw [started, hkept]
  obtain ⟨-, hgo, hrestart⟩ | ⟨-, rfl, hconfig⟩ | ⟨-, -, hreset⟩ := hi
  · rw [if_neg fun h => hgo h.1, if_neg hrestart]
  · rw [if_neg fun h => hconfig h.2, if_neg (by decide)]
  · exact absurd hreset hstate

/-- The first part of O5. -/
theorem control_nothing {s : State} {v : Byte} {i : Instr} (hmem : MemoryLaw s) (hopen : s.station.state = .reset ∨ openWrites s = false)
    (hi : (i = .controlOtherValue v ∧ v ≠ 0x5A ∧ v ≠ 0xA5) ∨ (i = .go ∧ v = 0x5A ∧ s.station.state ≠ .config) ∨
      (i = .restart ∧ v = 0xA5 ∧ s.station.state = .reset)) :
    ∃ t, exec i s = .next t ∧ t = { s with landed := s.landed - 1, window := t.window } ∧ sameWindow s t [0x0A] ∧
      if s.station.state = .reset then landsAt s t 0x0A v else writtenBack s t := by
  have hrow : (i = .controlOtherValue v) ∨ (i = .go ∧ v = 0x5A) ∨ (i = .restart ∧ v = 0xA5) := by tauto
  have harrived := arrive_arrived hmem (by decide : (0x0A : Nat) < 65536) v
  by_cases hstate : s.station.state = .reset
  · refine ⟨s.arrive [(0x0A, v)], ?_, harrived.frame, harrived.window, ?_⟩
    · rw [exec_control hrow, takeControl_eq, if_pos (by rw [harrived.station]; exact hstate)]
    · rw [if_pos hstate]
      exact harrived.lands
  · have hexec := exec_control_closed (hopen.resolve_left hstate) hstate hrow
    rw [started_nothing hstate hi] at hexec
    obtain ⟨hback, hwritten, hlast, -⟩ := writeBack_shows (t := s.arrive [(0x0A, v)]) hmem harrived.memory
      (by rw [harrived.frame]) (by rw [harrived.frame]) rfl
    have hframe := harrived.frame
    have hboth := sameWindow_trans harrived.window hlast
    generalize s.arrive [(0x0A, v)] = u at *
    refine ⟨_, hexec, ?_, sameWindow_mono hboth (by simp), by rwa [if_neg hstate]⟩
    generalize u.writeBackControl = t at *
    rw [hframe] at hback
    exact hback

/-- The write of the start status. -/
theorem setStartStatus_shows {u : State} (hmem : MemoryLaw u) (o : StartStatus) : MemoryLaw (u.setStartStatus o) ∧
    u.setStartStatus o = { u with station.startStatus := o, window := (u.setStartStatus o).window } ∧
    sameWindow u (u.setStartStatus o) [0x08] ∧ (u.setStartStatus o).peek 0x08 = o.code :=
  ⟨poke_wf _ _ _ hmem, rfl, poke_sameWindow ({ u with station.startStatus := o } : State) (by decide) _,
    peek_poke_same ({ u with station.startStatus := o } : State) _ _ hmem (by decide)⟩

theorem takeGo_bad {u : State} {o : StartStatus} (hcheck : u.checkStartBlock = o) (hbad : o ≠ .ok) : u.takeGo = u.setStartStatus o := by
  rw [State.takeGo, hcheck]
  cases o with
  | ok => exact absurd rfl hbad
  | _ => rfl

/-- A GO whose Start Block fails a check writes the start status (R175). -/
theorem control_badStart {s : State} (hmem : MemoryLaw s) (hconfig : s.station.state = .config) (hopen : openWrites s = false)
    (hbad : startOutcome s ≠ .ok) : ∃ t, exec .go s = .next t ∧
      t = { s with station.startStatus := startOutcome s, landed := s.landed - 1, window := t.window } ∧
      sameWindow s t [0x08, 0x0A] ∧ t.peek 0x08 = (startOutcome s).code ∧ writtenBack s t := by
  have hexec := exec_control_closed (v := 0x5A) hopen (by rw [hconfig]; decide) (.inr (.inl ⟨rfl, rfl⟩))
  have harrived := arrive_arrived hmem (by decide : (0x0A : Nat) < 65536) 0x5A
  have hcheck : (s.arrive [(0x0A, 0x5A)]).checkStartBlock = startOutcome s := by
    rw [checkStartBlock_eq]
    exact startOutcome_congr fun a hlow hhigh => harrived.window a (by omega) (by simp; omega)
  have hstarted : started 0x5A (s.arrive [(0x0A, 0x5A)]) = (s.arrive [(0x0A, 0x5A)]).setStartStatus (startOutcome s) := by
    rw [started, if_pos ⟨rfl, by rw [harrived.station]; exact hconfig⟩, takeGo_bad hcheck hbad]
  rw [hstarted] at hexec
  obtain ⟨hwf, heq, hpoke, hcode⟩ := setStartStatus_shows harrived.memory (startOutcome s)
  have hframe := harrived.frame
  have hfirst := harrived.window
  have hback : ∀ x : State, MemoryLaw x → x.pending = s.pending → x.landed = s.landed - 1 →
      x.peek 0x0A = (s.arrive [(0x0A, 0x5A)]).peek 0x0A → _ := fun x hx h1 h2 h3 => writeBack_shows hmem hx h1 h2 h3
  generalize s.arrive [(0x0A, 0x5A)] = u at *
  generalize u.setStartStatus (startOutcome s) = x at *
  obtain ⟨hback, hwritten, hlast, -⟩ := hback x hwf (by rw [heq, hframe]) (by rw [heq, hframe]) (hpoke _ (by decide) (by decide))
  have hboth := sameWindow_trans hfirst (sameWindow_trans hpoke hlast)
  refine ⟨_, hexec, ?_, sameWindow_mono hboth (by simp), (hlast _ (by decide) (by decide)).trans hcode, hwritten⟩
  generalize x.writeBackControl = t at *
  rw [heq, hframe] at hback
  exact hback

end Sys2Proof.Proofs
end

section
namespace Sys2Proof.Proofs

open Sys2Proof Sys2Proof.Machine Sys2Proof.Claims Sys2Proof.Safety Sys2Proof.Laws

/-! ## The queue of commands plays no part in what a write of CONTROL starts -/

/-- The state with another queue of commands, and another count of those that stand in memory. -/
def queued (p : List Instr) (n : Nat) (u : State) : State := { u with
  pending := p
  landed := n }

section
variable (p : List Instr) (n : Nat) (u : State)

theorem pokeEach_queued (l : List (Nat × Byte)) : (queued p n u).pokeEach l = queued p n (u.pokeEach l) := by
  induction l generalizing u with
  | nil => rfl
  | cons b rest ih => exact ih (u.poke b.1 b.2)

theorem pokeBytes_queued (l : List Byte) (a : Nat) : (queued p n u).pokeBytes a l = queued p n (u.pokeBytes a l) := by
  induction l generalizing u a with
  | nil => rfl
  | cons x rest ih => exact ih (u.poke a x) (a + 1)

theorem raiseWith_queued (q : NoticePair) (detail : Byte) : (queued p n u).raiseWith q detail = queued p n (u.raiseWith q detail) := by
  have hentry : (queued p n u).writeEntry q detail = queued p n (u.writeEntry q detail) := by
    have hsnapshot : (queued p n u).snapshotOf q = u.snapshotOf q := by cases q <;> rfl
    have hnotice : (queued p n u).notice = u.notice := rfl
    rw [State.writeEntry, State.writeEntry, hsnapshot, hnotice, pokeBytes_queued]
    rfl
  have hnotice : (queued p n u).notice = u.notice := rfl
  rw [State.raiseWith, State.raiseWith, hnotice, hentry]
  split
  · rfl
  split
  · split <;> rfl
  · rfl

theorem raise_queued (q : NoticePair) : (queued p n u).raise q = queued p n (u.raise q) := by
  have hdetail : (queued p n u).detailOf q = u.detailOf q := by cases q <;> rfl
  rw [State.raise, State.raise, hdetail]
  exact raiseWith_queued p n u q _

theorem writeMirror_queued (a : Address) : (queued p n u).writeMirror a = queued p n (u.writeMirror a) := by
  have hset : (queued p n u).roster.presentSet = u.roster.presentSet := rfl
  rw [State.writeMirror, State.writeMirror, hset]
  split <;> rfl

theorem setEntry_queued (a : Address) (e : RosterEntry) : ({ queued p n u with roster := (queued p n u).roster.setEntry a e } : State) =
    queued p n { u with roster := u.roster.setEntry a e } := rfl

theorem markPresent_queued (a : Address) : (queued p n u).markPresent a = queued p n (u.markPresent a) := by
  rw [State.markPresent, State.markPresent, setEntry_queued, writeMirror_queued, raise_queued]

theorem enterState_queued (st : StationState) : (queued p n u).enterState st = queued p n (u.enterState st) := by
  have hpoke : ({ queued p n u with station.state := st } : State).poke offStationState st.code =
      queued p n (({ u with station.state := st } : State).poke offStationState st.code) := rfl
  rw [State.enterState, State.enterState, hpoke, raise_queued]

/-- The entry to JOINING before the own address is marked present. -/
def joiningStart (s : State) : State := { s with
  line.state := .settling
  line.quiet := 0
  line.rxBuffer := []
  line.rxCount := 0
  line.rxEnable := true
  line.txEnable := true
  line.txen := false
  roster.silence := 0
  selector.rollOwed := false
  selector.pointer := 0
  selector.inFlight := none }

/-- The blocks of an entry to JOINING that wait for the first round. -/
def joiningWaits (a : Address) (x : State) : State := { x with
  arbiter.state := .waiting
  arbiter.base := a
  arbiter.fullNext := true
  arbiter.mode := .full
  arbiter.roundTimer := 0
  arbiter.collisions := 0
  quality.windowTimer := some 0
  station.joinTimer := some 0 }

theorem enterJoining_eq (s : State) : s.enterJoiningFromConfig =
    (joiningWaits s.station.address ((joiningStart s).markPresent s.station.address)).enterState .joining :=
  enterJoiningFromConfig_eq s

theorem enterJoiningFromConfig_queued : (queued p n u).enterJoiningFromConfig = queued p n u.enterJoiningFromConfig := by
  have hstart : joiningStart (queued p n u) = queued p n (joiningStart u) := rfl
  have hwaits (a : Address) (x : State) : joiningWaits a (queued p n x) = queued p n (joiningWaits a x) := rfl
  rw [enterJoining_eq (queued p n u), enterJoining_eq u, hstart, markPresent_queued]
  exact (congrArg (State.enterState · .joining) (hwaits _ _)).trans (enterState_queued p n _ _)

theorem layRings_queued (c : CircuitNo) (base : Half) (tx rx : Nat) :
    (queued p n u).layRings c base tx rx = queued p n (u.layRings c base tx rx) := rfl

theorem layAllRings_queued (codes : State) (cs : List CircuitNo) (base : Half) :
    (queued p n u).layAllRings (queued p n codes) base cs = queued p n (u.layAllRings codes base cs) := by
  induction cs generalizing u base with
  | nil => rfl
  | cons c rest ih =>
    rw [layAllRings_cons, layAllRings_cons, ← ih, ← layRings_queued]
    rfl

/-- The rings and the parameters of a GO that passes, before the entry to JOINING. -/
def goParameters (s : State) (x : State) : State :=
  { ((({ x with station.circuitCount := s.startCount } : State).poke offCircuitCount (BitVec.ofNat 8 s.startCount)).setStartStatus .ok) with
    station.creditStep := some s.startStep
    quality.params := some ⟨s.startExponent, s.startLow, s.startHigh⟩ }

theorem acceptGo_eq (s : State) :
    s.acceptGo = (goParameters s (s.layAllRings s ringArea (circuitsBelow s.startCount))).enterJoiningFromConfig := rfl

theorem takeGo_queued : (queued p n u).takeGo = queued p n u.takeGo := by
  have hcheck : (queued p n u).checkStartBlock = u.checkStartBlock := rfl
  have hcount : (queued p n u).startCount = u.startCount := rfl
  have hparameters (x : State) : goParameters (queued p n u) (queued p n x) = queued p n (goParameters u x) := rfl
  rw [State.takeGo, State.takeGo, hcheck]
  cases u.checkStartBlock with
  | ok =>
    dsimp only
    rw [acceptGo_eq, acceptGo_eq, layAllRings_queued, hcount, hparameters, enterJoiningFromConfig_queued]
  | _ => rfl

theorem takeRestart_queued : (queued p n u).takeRestart = queued p n u.takeRestart := by
  rw [takeRestart_eq, takeRestart_eq, restartRun_eq, restartRun_eq]
  have hrun : (queued p n u).pokeEach (restartRun (queued p n u)) = queued p n (u.pokeEach (restartRun u)) := pokeEach_queued p n u (restartRun u)
  rw [hrun]
  rfl

theorem started_queued (v : Byte) : started v (queued p n u) = queued p n (started v u) := by
  have hstate : (queued p n u).station.state = u.station.state := rfl
  rw [started, started, hstate, takeGo_queued, takeRestart_queued]
  split
  · rfl
  split <;> rfl

end

/-! ## What later writes of CONTROL have landed (log 11) -/

theorem writesWaiting_eq (s : State) :
    writesWaiting s = (s.pending.takeWhile fun i => !holdsBack i).filter fun i => (hostAccess i).isSome :=
  congrArg (fun q => (s.pending.takeWhile q).filter fun i => (hostAccess i).isSome) (funext fun i => (holdsBack_eq i).symm)

/-- The host writes that wait are the first of themselves. -/
theorem writesWaiting_take {s t : State} {k : Nat} (ht : t.pending = (writesWaiting s).take k) :
    writesWaiting t = (writesWaiting s).take k := by
  have hall : ∀ i ∈ (writesWaiting s).take k, (!holdsBack i) = true ∧ (hostAccess i).isSome = true := fun i hi => by
    have hin := List.mem_of_mem_take hi
    rw [writesWaiting_eq] at hin
    obtain ⟨hin, hsome⟩ := List.mem_filter.mp hin
    exact ⟨List.mem_takeWhile_imp (p := fun i => !holdsBack i) hin, hsome⟩
  rw [writesWaiting_eq, ht, List.takeWhile_eq_self_iff.mpr fun i hi => (hall i hi).1, List.filter_eq_self.mpr fun i hi => (hall i hi).2]

/-- What a write of CONTROL starts leaves the queue of commands alone. -/
theorem started_queue (v : Byte) (u : State) : (started v u).pending = u.pending ∧ (started v u).landed = u.landed := by
  have h : started v u = queued u.pending u.landed (started v u) := started_queued u.pending u.landed u v
  exact ⟨(congrArg State.pending h).trans rfl, (congrArg State.landed h).trans rfl⟩

/-- The write-back asks the waiting writes that stand in memory alone. -/
theorem writeBackControl_queued {s u : State} {k : Nat} (hpending : u.pending = s.pending) (hlanded : u.landed = k) :
    { (queued ((writesWaiting s).take k) k u).writeBackControl with pending := s.pending } = u.writeBackControl := by
  have hahead : (queued ((writesWaiting s).take k) k u).writesAhead.take k = u.writesAhead.take k := by
    have hwaiting : writesWaiting (queued ((writesWaiting s).take k) k u) = (writesWaiting s).take k := writesWaiting_take rfl
    have hsame : writesWaiting u = writesWaiting s := by rw [writesWaiting, writesWaiting, hpending]
    rw [writesAhead_eq, hwaiting, writesAhead_eq, hsame, ← List.map_take, ← List.map_take, List.take_take, Nat.min_self]
  have hcount : (queued ((writesWaiting s).take k) k u).landed = k := rfl
  generalize (writesWaiting s).take k = w at *
  rw [State.writeBackControl, State.writeBackControl, hcount, hahead, hlanded]
  by_cases h : (u.writesAhead.take k).any touchesControl = true
  · rw [if_pos h, if_pos h, ← hpending, ← hlanded]
    rfl
  · rw [if_neg h, if_neg h, ← hpending, ← hlanded]
    rfl

theorem hostAccess_low (i : Instr) : ∀ b ∈ (hostAccess i).getD [], b.1 < 65536 := by
  intro b hb
  cases i with
  | hostWrite w be1 be0 data =>
    have hw : w.toNat < 32768 := w.isLt
    obtain hb | hb := List.mem_append.mp hb
    · obtain ⟨-, rfl⟩ := List.mem_ite_nil_right.mp hb |>.imp_right List.mem_singleton.mp
      show 2 * w.toNat < 65536
      omega
    · obtain ⟨-, rfl⟩ := List.mem_ite_nil_right.mp hb |>.imp_right List.mem_singleton.mp
      show 2 * w.toNat + 1 < 65536
      omega
  | go | restart | controlOtherValue v | interruptEnableWrite v | requestPostIndexWrite v | attentionTakeIndexWrite v =>
    rw [List.mem_singleton.mp hb]
    simp only
    omega
  | txPostIndexWrite c v | rxReleaseIndexWrite c v | gapAck c v =>
    have hrange := recordBase_range c
    rw [List.mem_singleton.mp hb]
    show _ + _ < 65536
    omega
  | _ => exact absurd hb List.not_mem_nil

theorem foldl_pokeEach_eq {l : List (List (Nat × Byte))} (hlow : ∀ bytes ∈ l, ∀ b ∈ bytes, b.1 < 65536) (u : State) :
    l.foldl State.pokeEach u = { u with window := l.foldl afterBytes u.window } := by
  induction l generalizing u with
  | nil => rfl
  | cons bytes rest ih =>
    rw [List.forall_mem_cons] at hlow
    rw [List.foldl_cons, ih hlow.2, pokeEach_eq, pokeEach_window hlow.1]
    rfl

/-- The writes that have landed as a write of CONTROL is taken, of which it is open (R145, log 11). -/
theorem landLater_open {s : State} {v : Byte} (hopen : openWrites s = true) : ∃ n, n ≤ (writesToLand s).length ∧
    (standing (withLanded s v n)).arrive [(0x0A, v)] =
      queued ((writesWaiting s).take (s.landed - 1 + n)) (s.landed - 1 + n) (s.arrive [(0x0A, v)]).landLater ∧
    (s.arrive [(0x0A, v)]).landLater.pending = s.pending ∧ (s.arrive [(0x0A, v)]).landLater.landed = s.landed - 1 + n ∧
    (s.arrive [(0x0A, v)]).landLater.station = s.station := by
  have hany := hopen
  rw [openWrites_eq s [(0x0A, v)]] at hany
  have hwaiting : (s.arrive [(0x0A, v)]).writesAhead.drop (s.arrive [(0x0A, v)]).landed =
      (writesToLand s).map fun i => (hostAccess i).getD [] := by
    rw [arrive_writesAhead, arrive_landed, writesAhead_eq, ← List.map_drop, writesToLand]
  refine ⟨min (Config.writesLanded s.choices) (writesToLand s).length, Nat.min_le_right _ _, ?_⟩
  have hnow : (s.arrive [(0x0A, v)]).landLater = { ((((writesToLand s).take (Config.writesLanded s.choices)).map fun i =>
      (hostAccess i).getD []).foldl State.pokeEach (s.arrive [(0x0A, v)])) with
        landed := s.landed - 1 + min (Config.writesLanded s.choices) (writesToLand s).length
        choices := s.choices + 1 } := by
    have hchoices : (s.arrive [(0x0A, v)]).choices = s.choices := by rw [arrive_eq]
    rw [State.landLater]
    dsimp only
    rw [if_pos hany, hwaiting, ← List.map_take, List.length_map, List.length_take, arrive_landed, hchoices]
  have hlow : ∀ bytes ∈ ((writesToLand s).take (Config.writesLanded s.choices)).map fun i => (hostAccess i).getD [],
      ∀ b ∈ bytes, b.1 < 65536 := fun bytes hbytes => by
    obtain ⟨i, -, rfl⟩ := List.mem_map.mp hbytes
    exact hostAccess_low i
  rw [hnow, foldl_pokeEach_eq hlow, arrive_eq_arrived (bytes := [(0x0A, v)]) (by simp) s]
  refine ⟨?_, rfl, rfl, rfl⟩
  have htake : (writesToLand s).take (min (Config.writesLanded s.choices) (writesToLand s).length) =
      (writesToLand s).take (Config.writesLanded s.choices) := by rw [← List.take_eq_take_min]
  rw [List.foldl_map, withLanded, htake, arrive_eq_arrived (bytes := [(0x0A, v)]) (by simp)]
  generalize min (Config.writesLanded s.choices) (writesToLand s).length = n
  rfl

/-- A write of CONTROL taken where it is open whether later ones have landed. -/
theorem control_open {s : State} {v : Byte} {i : Instr} (hstate : s.station.state ≠ .reset) (hopen : openWrites s = true)
    (hi : (i = .controlOtherValue v) ∨ (i = .go ∧ v = 0x5A) ∨ (i = .restart ∧ v = 0xA5)) :
    ∃ n, n ≤ (writesToLand s).length ∧ openWrites (standing (withLanded s v n)) = false ∧
      ∃ t, exec i (standing (withLanded s v n)) = .next t ∧ exec i s = .next { t with pending := s.pending } := by
  obtain ⟨n, hn, harrive, hpending, hlanded, hstation⟩ := landLater_open (v := v) hopen
  have hclosed : openWrites (standing (withLanded s v n)) = false := by
    have hwaiting : writesWaiting (standing (withLanded s v n)) = (writesWaiting s).take (s.landed - 1 + n) := writesWaiting_take rfl
    have hdrop : writesToLand (standing (withLanded s v n)) = [] := by
      rw [writesToLand, hwaiting]
      exact List.drop_take_self ..
    rw [openWrites, hdrop]
    rfl
  have hexec : exec i s = .next (started v (s.arrive [(0x0A, v)]).landLater).writeBackControl := by
    rw [exec_control hi, takeControl_eq, if_neg (by rw [arrive_eq]; exact hstate)]
  have hstanding := exec_control_closed hclosed hstate hi
  rw [harrive, started_queued] at hstanding
  obtain ⟨hkeptPending, hkeptLanded⟩ := started_queue v (s.arrive [(0x0A, v)]).landLater
  rw [hpending] at hkeptPending
  rw [hlanded] at hkeptLanded
  exact ⟨n, hn, hclosed, _, hstanding, hexec.trans (congrArg Host.Outcome.next (writeBackControl_queued hkeptPending hkeptLanded).symm)⟩

/-- Settles O5: a write that starts nothing, a GO that fails a check, and a write where later ones may have landed. -/
theorem controlWritesThatStartNothing : Obligations.ControlWritesThatStartNothing :=
  ⟨fun _ _ _ hmem hopen hi => control_nothing hmem hopen hi, fun _ hmem hconfig hopen hbad => control_badStart hmem hconfig hopen hbad,
    fun _ _ _ hstate hopen hi => control_open hstate hopen hi⟩

end Sys2Proof.Proofs
end

section
namespace Sys2Proof.Proofs

open Sys2Proof Sys2Proof.Machine Sys2Proof.Claims Sys2Proof.Safety Sys2Proof.Laws

/-! ## The rings laid out (R176) -/

/-- The fields of a record that a layout writes. -/
abbrev ringOffsets : List Nat := [0x10, 0x11, 0x12, 0x13, 0x14, 0x15]

/-- The record shows the rings of its circuit. -/
structure RingsShown (t : State) (c : CircuitNo) (k : Circuit) : Prop where
  txBase : shows t (recordBase c + 0x10) k.txBase
  txSize : t.peek (recordBase c + 0x12) = BitVec.ofNat 8 k.txSize
  rxSize : t.peek (recordBase c + 0x13) = BitVec.ofNat 8 k.rxSize
  rxBase : shows t (recordBase c + 0x14) k.rxBase

theorem RingsShown.congr {u t : State} {c : CircuitNo} {k : Circuit} (h : RingsShown u c k)
    (hsame : ∀ off ∈ ringOffsets, t.peek (recordBase c + off) = u.peek (recordBase c + off)) : RingsShown t c k :=
  ⟨⟨(hsame 0x10 (by decide)).trans h.txBase.1, (hsame 0x11 (by decide)).trans h.txBase.2⟩, (hsame 0x12 (by decide)).trans h.txSize,
    (hsame 0x13 (by decide)).trans h.rxSize, ⟨(hsame 0x14 (by decide)).trans h.rxBase.1, (hsame 0x15 (by decide)).trans h.rxBase.2⟩⟩

/-- The bytes of the record that a layout writes. -/
def ringBytes (base rxBase : Half) (tx rx : Nat) : List (Nat × Byte) :=
  [(0x10, lowByte base), (0x11, highByte base), (0x12, BitVec.ofNat 8 tx), (0x14, lowByte rxBase), (0x15, highByte rxBase),
    (0x13, BitVec.ofNat 8 rx)]

theorem layRings_eq_pokeEach (s : State) (c : CircuitNo) (base : Half) (tx rx : Nat) : s.layRings c base tx rx =
    (s.updCircuit c fun k => laidOut k base tx rx).pokeEach (recordWrites c (ringBytes base (base + BitVec.ofNat 16 (256 * tx)) tx rx)) := rfl

theorem layRings_eq (s : State) (c : CircuitNo) (base : Half) (tx rx : Nat) : s.layRings c base tx rx = { s with
    circuits := (s.layRings c base tx rx).circuits
    window := (s.layRings c base tx rx).window } := by
  have h := pokeEach_eq (recordWrites c (ringBytes base (base + BitVec.ofNat 16 (256 * tx)) tx rx)) (s.updCircuit c fun k => laidOut k base tx rx)
  rw [← layRings_eq_pokeEach] at h
  generalize s.layRings c base tx rx = t at *
  have hcircuits : t.circuits = (s.updCircuit c fun k => laidOut k base tx rx).circuits := by rw [h]
  rw [hcircuits]
  exact h

theorem layRings_written (s : State) (c : CircuitNo) (base : Half) (tx rx : Nat) : RecordWritten s (s.layRings c base tx rx) c
    (ringBytes base (base + BitVec.ofNat 16 (256 * tx)) tx rx) :=
  ⟨rfl, by simp [ringBytes], by simp [ringBytes]⟩

theorem layRings_shows {s : State} (hmem : MemoryLaw s) (c : CircuitNo) (base : Half) (tx rx : Nat) :
    MemoryLaw (s.layRings c base tx rx) ∧ sameWindow s (s.layRings c base tx rx) (recordBytes c ringOffsets) ∧
      RingsShown (s.layRings c base tx rx) c (laidOut (s.circuit c) base tx rx) := by
  have h := layRings_written s c base tx rx
  refine ⟨h.wf hmem, sameWindow_mono h.sameWindow fun a ha => ?_,
    ⟨(h.shows hmem (off := 0x10) (v := lowByte base) (by simp [ringBytes])).trans (lowByte_eq base),
      (h.shows hmem (off := 0x11) (v := highByte base) (by simp [ringBytes])).trans (highByte_eq base)⟩,
    h.shows hmem (by simp [ringBytes]), h.shows hmem (by simp [ringBytes]),
    ⟨(h.shows hmem (off := 0x14) (v := lowByte (base + BitVec.ofNat 16 (256 * tx))) (by simp [ringBytes])).trans (lowByte_eq _),
      (h.shows hmem (off := 0x15) (v := highByte (base + BitVec.ofNat 16 (256 * tx))) (by simp [ringBytes])).trans (highByte_eq _)⟩⟩
  obtain ⟨off, hoff, rfl⟩ := mem_recordBytes_iff.mp ha
  refine mem_recordBytes_iff.mpr ⟨off, ?_, rfl⟩
  simp only [ringBytes, List.map_cons, List.map_nil, List.mem_cons, List.not_mem_nil, or_false] at hoff ⊢
  tauto

theorem layRings_circuit_other (s : State) {c d : CircuitNo} (hd : d ≠ c) (base : Half) (tx rx : Nat) :
    (s.layRings c base tx rx).circuit d = s.circuit d := (layRings_only s c base tx rx).others d hd

/-- The layout of the rings of these circuits, one after another from a base. -/
structure RingsLaid (s codes t : State) (base : Half) (l : List CircuitNo) : Prop where
  frame : t = { s with circuits := t.circuits, window := t.window }
  wf : MemoryLaw t
  other : ∀ c ∉ l, t.circuit c = s.circuit c
  window : sameWindow s t (l.flatMap fun c => recordBytes c ringOffsets)
  laid : ∀ pre c post, l = pre ++ c :: post → t.circuit c =
    laidOut (s.circuit c) (base + BitVec.ofNat 16 (256 * slotsOf codes pre)) (ringSize (codes.startTxCode c)) (ringSize (codes.startRxCode c))
  shows : ∀ c ∈ l, RingsShown t c (t.circuit c)

theorem layAllRings_laid {s : State} (hmem : MemoryLaw s) (codes : State) (base : Half) (l : List CircuitNo) (hnodup : l.Nodup) :
    RingsLaid s codes (s.layAllRings codes base l) base l := by
  induction l generalizing s base with
  | nil => exact ⟨rfl, hmem, fun _ _ => rfl, fun _ _ _ => rfl, fun pre c post h => absurd h (by simp), fun c hc => absurd hc List.not_mem_nil⟩
  | cons d rest ih =>
    obtain ⟨hd, hrest⟩ := List.nodup_cons.mp hnodup
    obtain ⟨hwf, hwindow, hshown⟩ := layRings_shows hmem d base (ringSize (codes.startTxCode d)) (ringSize (codes.startRxCode d))
    have hsame := layRings_circuit s d base (ringSize (codes.startTxCode d)) (ringSize (codes.startRxCode d))
    have hother (c : CircuitNo) (hc : c ≠ d) := layRings_circuit_other s hc base (ringSize (codes.startTxCode d)) (ringSize (codes.startRxCode d))
    have heq := layRings_eq s d base (ringSize (codes.startTxCode d)) (ringSize (codes.startRxCode d))
    rw [layAllRings_cons]
    generalize s.layRings d base (ringSize (codes.startTxCode d)) (ringSize (codes.startRxCode d)) = u at *
    have h := ih hwf (base + BitVec.ofNat 16 (256 * (ringSize (codes.startTxCode d) + ringSize (codes.startRxCode d)))) hrest
    generalize u.layAllRings codes _ rest = t at *
    have hfirst : t.circuit d = laidOut (s.circuit d) base (ringSize (codes.startTxCode d)) (ringSize (codes.startRxCode d)) :=
      (h.other d hd).trans hsame
    refine ⟨?_, h.wf, fun c hc => ?_, ?_, fun pre c post hl => ?_, fun c hc => ?_⟩
    · have hframe := h.frame
      rw [heq] at hframe
      exact hframe
    · rw [List.mem_cons, not_or] at hc
      obtain ⟨hne, hout⟩ := hc
      exact (h.other c hout).trans (hother c hne)
    · rw [List.flatMap_cons]
      exact sameWindow_trans hwindow h.window
    · cases pre with
      | nil =>
        obtain ⟨rfl, -⟩ := List.cons.inj hl
        rw [hfirst]
        simp [slotsOf]
      | cons e pre =>
        obtain ⟨rfl, rfl⟩ := List.cons.inj hl
        have hne : c ≠ d := fun he => hd (by rw [he]; simp)
        rw [h.laid pre c post rfl, hother c hne, BitVec.add_assoc, ← BitVec.ofNat_add, ← Nat.mul_add]
        rfl
    · obtain rfl | hin := List.mem_cons.mp hc
      · rw [hfirst]
        refine hshown.congr fun off hoff => h.window _ (record_lt c ?_) fun hin => ?_
        · revert off
          decide
        · obtain ⟨e, he, hin⟩ := List.mem_flatMap.mp hin
          obtain ⟨off', hoff', hsum⟩ := mem_recordBytes_iff.mp hin
          have hlt : off' < 0x40 ∧ off < 0x40 := ⟨(by decide : ∀ o ∈ ringOffsets, o < 0x40) off' hoff', (by decide : ∀ o ∈ ringOffsets, o < 0x40) off hoff⟩
          have hne : e.val ≠ c.val := fun h => hd (Fin.ext h ▸ he)
          simp only [recordBase] at hsum
          omega
      · exact h.shows c hin

/-! ## Where each ring lies -/

theorem circuitsBelow_split : ∀ n, n ≤ 16 → ∀ c : CircuitNo, c.val < n →
    circuitsBelow n = circuitsBelow c.val ++ c :: (circuitsBelow n).drop (c.val + 1) := by decide

theorem mem_circuitsBelow {n : Nat} {c : CircuitNo} : c ∈ circuitsBelow n ↔ c.val < n := by
  simp [circuitsBelow, mem_allCircuits]

theorem circuitsBelow_nodup (n : Nat) : (circuitsBelow n).Nodup := allCircuits_nodup.filter _

theorem slotsOf_circuitsBelow (s : State) {n : Nat} (hn : n ≤ 16) : slotsOf s (circuitsBelow n) = slotsTaken s n :=
  (ringTotal_eq_slotsOf s n).symm.trans (ringTotal_eq_slotsTaken s hn)

theorem ringBase_eq (s : State) {c : Nat} (hc : c ≤ 16) :
    ringArea + BitVec.ofNat 16 (256 * slotsOf s (circuitsBelow c)) = BitVec.ofNat 16 (ringStart s c) := by
  rw [slotsOf_circuitsBelow s hc, ringStart, BitVec.ofNat_add]
  rfl

end Sys2Proof.Proofs
end

section
namespace Sys2Proof.Proofs

open Sys2Proof Sys2Proof.Machine Sys2Proof.Claims Sys2Proof.Safety Sys2Proof.Laws

/-! ## The parameters of a GO (R175, R176) -/

theorem goParameters_shows {x : State} (hmem : MemoryLaw x) (s : State) : MemoryLaw (goParameters s x) ∧
    goParameters s x = { x with
      station := { x.station with startStatus := .ok, circuitCount := s.startCount, creditStep := some s.startStep }
      quality.params := some ⟨s.startExponent, s.startLow, s.startHigh⟩
      window := (goParameters s x).window } ∧
    (goParameters s x).peek 0x08 = 1 ∧ (goParameters s x).peek 0x09 = BitVec.ofNat 8 s.startCount ∧
    sameWindow x (goParameters s x) [0x08, 0x09] := by
  have hwf : MemoryLaw (({ x with station.circuitCount := s.startCount } : State).poke offCircuitCount (BitVec.ofNat 8 s.startCount)) :=
    poke_wf _ _ _ hmem
  have hcount : (({ x with station.circuitCount := s.startCount } : State).poke offCircuitCount (BitVec.ofNat 8 s.startCount)).peek 0x09 =
      BitVec.ofNat 8 s.startCount := peek_poke_same ({ x with station.circuitCount := s.startCount } : State) _ _ hmem (by decide)
  have hfirst : sameWindow x (({ x with station.circuitCount := s.startCount } : State).poke offCircuitCount (BitVec.ofNat 8 s.startCount)) [0x09] :=
    poke_sameWindow ({ x with station.circuitCount := s.startCount } : State) (by decide) _
  obtain ⟨m, hm⟩ : ∃ m, ({ x with station.circuitCount := s.startCount } : State).poke offCircuitCount (BitVec.ofNat 8 s.startCount) =
    { x with station.circuitCount := s.startCount, window := m } := ⟨_, rfl⟩
  unfold goParameters
  generalize State.poke { x with station.circuitCount := s.startCount } offCircuitCount (BitVec.ofNat 8 s.startCount) = y at *
  obtain ⟨hwf', heq, hlast, hcode⟩ := setStartStatus_shows hwf .ok
  generalize y.setStartStatus .ok = z at *
  refine ⟨hwf', ?_, hcode, (hlast _ (by decide) (by decide)).trans hcount, sameWindow_mono (sameWindow_trans hfirst hlast) (by simp)⟩
  rw [hm] at heq
  rw [heq]

/-! ## The entry to JOINING (R178) -/

theorem joiningStart_markPresent (s : State) (a : Address) : (joiningStart s).markPresent a = entryWritten (joiningStart s) a ⟨true, 0⟩ := rfl

/-- What the entry to JOINING leaves and shows. -/
structure Joined (y t : State) : Prop where
  frame : t = { joiningWaits y.station.address (joiningStart y) with
    station := { y.station with state := .joining, joinTimer := some 0 }
    roster := editedRoster { y.roster with silence := 0 } y.station.address ⟨true, 0⟩
    notice := t.notice
    window := t.window }
  wf : MemoryLaw t
  state : t.peek 0x03 = 2
  mirror : mirrorShows t y.station.address
  counter : shows t 0x18 (y.roster.changeCounter + 1)
  window : sameWindow y t ([0x03] ++ mirrorBytes y.station.address ++ raiseBytes y 2)
  raised : Raised y t [.station .roster, .station .station]
  roster : ∀ v : State, v.roster = t.roster → v.station.state = y.station.state → ToldAs y t (.station .roster) fun n => entryBytes v n (.station .roster)
  station : ToldAs y t (.station .station) fun n => entryBytes t n (.station .station)

theorem enterJoining_joined {y : State} (hmem : MemoryLaw y) : Joined y y.enterJoiningFromConfig := by
  rw [enterJoining_eq, joiningStart_markPresent]
  have hedited := entryWritten_eq (joiningStart y) y.station.address ⟨true, 0⟩
  obtain ⟨hmirror, hchange, hwindow, hwf, -, hraised, htold⟩ := entryWritten_shows (s := joiningStart y) hmem y.station.address ⟨true, 0⟩
  have hfront : Raised y (joiningStart y) [] := .silent (offs := []) rfl (sameWindow_of_window rfl) (by simp)
  have hstart : sameWindow y (joiningStart y) [] := sameWindow_of_window rfl
  generalize entryWritten (joiningStart y) y.station.address ⟨true, 0⟩ = z at *
  have hback : Raised z (joiningWaits y.station.address z) [] := .silent (offs := []) rfl (sameWindow_of_window rfl) (by simp)
  have hwaits : sameWindow z (joiningWaits y.station.address z) [] := sameWindow_of_window rfl
  have hwf' : MemoryLaw (joiningWaits y.station.address z) := hwf
  have hroster : (joiningWaits y.station.address z).roster = z.roster := rfl
  obtain ⟨hraised', htold'⟩ := enterState_raised hwf' .joining
  obtain ⟨-, hstate, hwindow'⟩ := enterState_shows hwf' .joining
  have heq := enterState_eq (joiningWaits y.station.address z) .joining
  have hstation : (joiningWaits y.station.address z).station = { y.station with joinTimer := some 0 } := by rw [hedited]; rfl
  have hwaiting : joiningWaits y.station.address z = { joiningWaits y.station.address (joiningStart y) with
      roster := editedRoster { y.roster with silence := 0 } y.station.address ⟨true, 0⟩
      notice := z.notice
      window := z.window } := by
    rw [hedited]
    rfl
  have hfirst := hfront.trans hraised
  have htold'' := htold.before hfront hraised List.not_mem_nil
  have hmiddle := hfirst.trans hback
  have hbytes : raiseBytes (joiningStart y) 1 = raiseBytes y 1 := rfl
  rw [hbytes] at hwindow
  have hbefore : sameWindow y z (mirrorBytes y.station.address ++ raiseBytes y 1) := sameWindow_trans (offs := []) hstart hwindow
  have hbefore' : sameWindow y (joiningWaits y.station.address z) (mirrorBytes y.station.address ++ raiseBytes y 1) := hbefore
  have hall := sameWindow_raises (k := 2) hmiddle hbefore' hwindow' (by simp) (by decide)
  have hwf'' : MemoryLaw ((joiningWaits y.station.address z).enterState .joining) := raiseWith_wf _ _ _ (poke_wf _ _ _ hwf')
  have hzroster : z.roster = editedRoster { y.roster with silence := 0 } y.station.address ⟨true, 0⟩ := by rw [hedited]; rfl
  have hzstation : z.station = y.station := by rw [hedited]; rfl
  generalize joiningWaits y.station.address z = w at *
  generalize w.enterState .joining = t at *
  have htroster : t.roster = z.roster := by rw [heq]; exact hroster
  have hkept (x : Nat) (hlow : 0x14 ≤ x) (hhigh : x ≤ 0x19) : t.peek x = z.peek x := by
    refine (hwindow' x (by omega) fun hin => ?_).trans (hwaits x (by omega) List.not_mem_nil)
    obtain hin | hin := List.mem_append.mp hin
    · rw [List.mem_singleton] at hin
      omega
    · exact not_mem_raiseBytes (by omega) _ _ hin
  refine ⟨?_, ?_, hstate, mirrorShows_congr htroster hkept hmirror, ?_, sameWindow_mono hall fun x hx => ?_, hmiddle.trans hraised',
    fun v hv hv' => ?_, ?_⟩
  · rw [hwaiting] at heq
    exact heq
  · exact hwf''
  · exact ⟨(hkept _ (by decide) (by decide)).trans hchange.1, (hkept _ (by decide) (by decide)).trans hchange.2⟩
  · simp only [List.mem_append] at hx ⊢
    tauto
  · have hentry (n : Byte) : entryBytes v n (.station .roster) = entryBytes z n (.station .roster) := by
      simp only [entryBytes, hv, htroster, hv', hzstation]
    simp only [hentry]
    exact (htold''.after hfirst hback).after hmiddle hraised'
  · exact htold'.before hmiddle hraised' (by simp)

/-- A GO that passes, before the write-back. -/
def goAccepted (u : State) : State := (goParameters u (u.layAllRings u ringArea (circuitsBelow u.startCount))).enterJoiningFromConfig

theorem takeGo_ok {u : State} (hcheck : u.checkStartBlock = .ok) : u.takeGo = goAccepted u := by
  rw [State.takeGo, hcheck]
  exact acceptGo_eq u

/-- What a GO that passes leaves and shows, before the write-back. -/
structure GoTaken (u t : State) : Prop where
  frame : t = { joiningWaits u.station.address (joiningStart u) with
    station := { u.station with
      state := .joining, startStatus := .ok, circuitCount := u.startCount, creditStep := some u.startStep, joinTimer := some 0 }
    roster := editedRoster { u.roster with silence := 0 } u.station.address ⟨true, 0⟩
    quality := { u.quality with windowTimer := some 0, params := some ⟨u.startExponent, u.startLow, u.startHigh⟩ }
    circuits := t.circuits
    notice := t.notice
    window := t.window }
  wf : MemoryLaw t
  circuit : ∀ c : CircuitNo, t.circuit c = if c.val < u.startCount then
      laidOut (u.circuit c) (BitVec.ofNat 16 (ringStart u c.val)) (ringSize (u.startTxCode c)) (ringSize (u.startRxCode c))
    else u.circuit c
  rings : ∀ c : CircuitNo, c.val < u.startCount → RingsShown t c (t.circuit c)
  state : t.peek 0x03 = 2
  status : t.peek 0x08 = 1
  count : t.peek 0x09 = BitVec.ofNat 8 u.startCount
  mirror : mirrorShows t u.station.address
  counter : shows t 0x18 (u.roster.changeCounter + 1)
  window : sameWindow u t ([0x03, 0x08, 0x09] ++ mirrorBytes u.station.address ++ raiseBytes u 2 ++
    (circuitsBelow u.startCount).flatMap fun c => recordBytes c ringOffsets)
  raised : Raised u t [.station .roster, .station .station]
  roster : ∀ v : State, v.roster = t.roster → v.station.state = u.station.state →
    ToldAs u t (.station .roster) fun n => entryBytes v n (.station .roster)
  station : ToldAs u t (.station .station) fun n => entryBytes t n (.station .station)

theorem ringOffsets_flatMap_range {l : List CircuitNo} {x : Nat} (h : x ∈ l.flatMap fun c => recordBytes c ringOffsets) :
    0x0100 ≤ x ∧ x < 0x0600 := by
  obtain ⟨c, -, hin⟩ := List.mem_flatMap.mp h
  obtain ⟨off, hoff, rfl⟩ := mem_recordBytes_iff.mp hin
  have hrange := recordBase_range c
  have hlt := (by decide : ∀ o ∈ ringOffsets, o < 0x40) off hoff
  omega

theorem goAccepted_taken {u : State} (hmem : MemoryLaw u) (hcount : u.startCount ≤ 16) : GoTaken u (goAccepted u) := by
  have hlaid := layAllRings_laid hmem u ringArea (circuitsBelow u.startCount) (circuitsBelow_nodup _)
  unfold goAccepted
  generalize u.layAllRings u ringArea (circuitsBelow u.startCount) = x at *
  obtain ⟨hwf, heq, h8, h9, hsame⟩ := goParameters_shows hlaid.wf u
  have hpoint (c : CircuitNo) : (goParameters u x).circuit c = x.circuit c := rfl
  generalize goParameters u x = y at *
  have hjoined := enterJoining_joined hwf
  generalize y.enterJoiningFromConfig = t at *
  have hframe := hlaid.frame
  have hstation : y.station.address = u.station.address := by rw [heq, hframe]
  have hroster : y.roster = u.roster := by rw [heq, hframe]
  have hstate : y.station.state = u.station.state := by rw [heq, hframe]
  have hnotice : y.notice = u.notice := by rw [heq, hframe]
  have hfront : sameWindow u y (((circuitsBelow u.startCount).flatMap fun c => recordBytes c ringOffsets) ++ [0x08, 0x09]) :=
    sameWindow_trans hlaid.window hsame
  have hsilent : Raised u y [] := .silent hnotice hfront fun a ha => by
    obtain ha | ha := List.mem_append.mp ha
    · have := ringOffsets_flatMap_range ha
      omega
    · simp at ha
      omega
  have hbytes : raiseBytes y 2 = raiseBytes u 2 := raiseBytes_congr (by rw [hnotice]) 2
  have hwindow := hjoined.window
  rw [hstation, hbytes] at hwindow
  have hcircuit (c : CircuitNo) : t.circuit c = x.circuit c := by
    rw [hjoined.frame]
    exact hpoint c
  have hkept {a : Nat} (ha : a < 65536) (hout : a ≠ 0x03 ∧ (a < 0x0F ∨ 0x20 ≤ a ∧ a < 0x0600)) : t.peek a = y.peek a := hwindow a ha fun hin => by
    simp only [List.mem_append, List.mem_singleton] at hin
    obtain (hin | hin) | hin := hin
    · exact hout.1 hin
    · have := mirrorBytes_range hin
      omega
    · have := raiseBytes_range hin
      omega
  refine ⟨?_, hjoined.wf, fun c => ?_, fun c hc => ?_, hjoined.state, (hkept (by decide) (by decide)).trans h8,
    (hkept (by decide) (by decide)).trans h9, hstation ▸ hjoined.mirror, by rw [← hroster]; exact hjoined.counter,
    sameWindow_mono (sameWindow_trans hfront hwindow) fun a ha => ?_, hsilent.trans hjoined.raised, fun v hv hv' => ?_, ?_⟩
  · have h := hjoined.frame
    have hsame := congrArg State.circuits h
    rw [hstation, hroster, heq, hframe] at h
    rw [hsame, heq]
    exact h
  · rw [hcircuit]
    split
    case isTrue h =>
      rw [hlaid.laid _ c _ (circuitsBelow_split _ hcount c h), ringBase_eq u (by omega)]
    case isFalse h => exact hlaid.other c fun hin => h (mem_circuitsBelow.mp hin)
  · rw [hcircuit]
    refine (hlaid.shows c (mem_circuitsBelow.mpr hc)).congr fun off hoff => ?_
    have hrange := recordBase_range c
    have hlt := (by decide : ∀ o ∈ ringOffsets, o < 0x40) off hoff
    refine (hkept (by omega) (by omega)).trans (hsame _ (by omega) ?_)
    simp
    omega
  · simp only [List.mem_append, List.mem_cons, List.not_mem_nil, or_false] at ha ⊢
    tauto
  · exact (hjoined.roster v hv (hv'.trans hstate.symm)).before hsilent hjoined.raised List.not_mem_nil
  · exact hjoined.station.before hsilent hjoined.raised List.not_mem_nil

end Sys2Proof.Proofs
end

section
namespace Sys2Proof.Proofs

open Sys2Proof Sys2Proof.Machine Sys2Proof.Claims Sys2Proof.Safety Sys2Proof.Laws

theorem ringStart_congr {s u : State} (h : ∀ a, 0x0800 ≤ a → a < 0x0840 → u.peek a = s.peek a) {c : Nat} (hc : c ≤ 16) :
    ringStart u c = ringStart s c := by
  refine congrArg (0x1000 + 256 * ·) (congrArg List.sum (List.map_congr_left fun d hd => ?_))
  rw [List.mem_range] at hd
  rw [h _ (by omega) (by omega), h _ (by omega) (by omega)]

theorem editedRoster_eq (r : Roster) (a : Address) (e : RosterEntry) : editedRoster r a e = { r with
    entries := (editedRoster r a e).entries
    changeCounter := r.changeCounter + 1 } := by
  unfold editedRoster Roster.setEntry
  split <;> rfl

/-- Settles O6: the byte arrives, the rings and the parameters are laid down, JOINING is entered, and CONTROL is written back. -/
theorem goAcceptedEntersJoining : Obligations.GoAcceptedEntersJoining := by
  intro s hmem hconfig hopen haddress hok
  have hexec := exec_control_closed (v := 0x5A) hopen (by rw [hconfig]; decide) (.inr (.inl ⟨rfl, rfl⟩))
  have harrived := arrive_arrived hmem (by decide : (0x0A : Nat) < 65536) 0x5A
  have hblock (a : Nat) (hlow : 0x0800 ≤ a) (hhigh : a < 0x0840) : (s.arrive [(0x0A, 0x5A)]).peek a = s.peek a :=
    harrived.window a (by omega) (by simp; omega)
  have hcheck : (s.arrive [(0x0A, 0x5A)]).checkStartBlock = .ok := by rw [checkStartBlock_eq, startOutcome_congr hblock, hok]
  have hstarted : started 0x5A (s.arrive [(0x0A, 0x5A)]) = goAccepted (s.arrive [(0x0A, 0x5A)]) := by
    rw [started, if_pos ⟨rfl, by rw [harrived.station]; exact hconfig⟩, takeGo_ok hcheck]
  rw [hstarted] at hexec
  have hfits := startFits_of_ok hcheck
  have hgo := goAccepted_taken harrived.memory hfits.count.2
  have hback : ∀ x : State, MemoryLaw x → x.pending = s.pending → x.landed = s.landed - 1 →
      x.peek 0x0A = (s.arrive [(0x0A, 0x5A)]).peek 0x0A → _ := fun x hx h1 h2 h3 => writeBack_shows hmem hx h1 h2 h3
  have hframe := harrived.frame
  have hfirst := harrived.window
  have hle := hfits.count.2
  generalize s.arrive [(0x0A, 0x5A)] = u at *
  generalize goAccepted u = x at *
  have hcontrol : x.peek 0x0A = u.peek 0x0A := hgo.window _ (by decide) fun hin => by
    simp only [List.mem_append] at hin
    obtain ((hin | hin) | hin) | hin := hin
    · exact absurd hin (by decide)
    · have := mirrorBytes_range hin
      omega
    · have := raiseBytes_range hin
      omega
    · have := ringOffsets_flatMap_range hin
      omega
  obtain ⟨hwrote, hwritten, hlast, -⟩ := hback x hgo.wf (by rw [hgo.frame, hframe]; rfl) (by rw [hgo.frame, hframe]; rfl) hcontrol
  generalize x.writeBackControl = t at *
  have hstation : u.station = s.station := by rw [hframe]
  have hroster : u.roster = s.roster := by rw [hframe]
  have hnotice : u.notice = s.notice := by rw [hframe]
  have hcircuits (c : CircuitNo) : u.circuit c = s.circuit c := by rw [hframe]; rfl
  have hcount : u.startCount = (s.peek 0x0800).toNat := congrArg BitVec.toNat (hblock _ (by decide) (by decide))
  have hcount' : BitVec.ofNat 8 u.startCount = s.peek 0x0800 := by rw [hcount]; simp
  have hpeek {a : Nat} (ha : a < 65536) (hne : a ≠ 0x0A) : t.peek a = x.peek a := hlast a ha (by simpa using hne)
  have hbefore : Raised s u [] := .silent hnotice hfirst (by simp)
  have hafter : Raised x t [] := .silent (by rw [hwrote]) hlast (by simp)
  have hcircuit (c : CircuitNo) : t.circuit c = x.circuit c := by rw [hwrote]; rfl
  have hraised := (hbefore.trans hgo.raised).trans hafter
  have hnumber {a : Nat} (hlow : 0x0800 ≤ a) (hhigh : a < 0x0840) : (u.peek a).toNat = (s.peek a).toNat := congrArg BitVec.toNat (hblock a hlow hhigh)
  have hstep : u.startStep = (s.peek 0x0801).toNat := hnumber (by decide) (by decide)
  have hexponent : u.startExponent = (s.peek 0x0802).toNat := hnumber (by decide) (by decide)
  have hlow : u.startLow = (s.peek 0x0803).toNat := hnumber (by decide) (by decide)
  have hhigh : u.startHigh = (s.peek 0x0804).toNat := hnumber (by decide) (by decide)
  have htx (c : CircuitNo) : ringSize (u.startTxCode c) = 2 ^ (s.peek (0x0810 + 2 * c.val)).toNat :=
    congrArg (2 ^ ·) (hnumber (a := 0x0810 + 2 * c.val) (by omega) (by omega))
  have hrx (c : CircuitNo) : ringSize (u.startRxCode c) = 2 ^ (s.peek (0x0811 + 2 * c.val)).toNat :=
    congrArg (2 ^ ·) (hnumber (a := 0x0811 + 2 * c.val) (by omega) (by omega))
  have hstart (c : CircuitNo) : ringStart u c.val = ringStart s c.val := ringStart_congr hblock (by omega)
  have hwindow := sameWindow_trans hfirst (sameWindow_trans hgo.window hlast)
  have hraise : raiseBytes u 2 = raiseBytes s 2 := raiseBytes_congr (by rw [hnotice]) 2
  have hxroster : x.roster = t.roster := by rw [hwrote]
  have hxstation : x.station = t.station := by rw [hwrote]
  have hxcircuit := hgo.circuit
  have hrings := hgo.rings
  have hmirror := hgo.mirror
  have hcounter := hgo.counter
  have htold := hgo.roster
  have htold' := hgo.station
  have hmiddle := hgo.raised
  have h3 := hgo.state
  have h8 := hgo.status
  have h9 := hgo.count
  have hx := hgo.frame
  have ht : t = { joiningWaits s.station.address (joiningStart s) with
      station := { s.station with
        state := .joining, startStatus := .ok, circuitCount := (s.peek 0x0800).toNat, creditStep := some (s.peek 0x0801).toNat, joinTimer := some 0 }
      roster := editedRoster { s.roster with silence := 0 } s.station.address ⟨true, 0⟩
      quality := { s.quality with
        windowTimer := some 0, params := some ⟨(s.peek 0x0802).toNat, (s.peek 0x0803).toNat, (s.peek 0x0804).toNat⟩ }
      circuits := t.circuits
      notice := t.notice
      landed := s.landed - 1
      window := t.window } := by
    have hsame := congrArg State.circuits hwrote
    have hsame' := congrArg State.notice hwrote
    rw [hcount, hstep, hexponent, hlow, hhigh, hframe] at hx
    rw [hsame, hsame']
    rw [hx] at hwrote
    exact hwrote
  rw [hcount, hstation, hraise] at hwindow
  simp only [hcircuits, hcount, htx, hrx, hstart] at hxcircuit
  rw [hcount] at hrings
  rw [hxroster, hstation] at htold
  have htroster : t.roster = editedRoster { s.roster with silence := 0 } s.station.address ⟨true, 0⟩ := by rw [ht]
  refine ⟨t, hexec, by rw [ht], fun c => ?_, fun c hc => ?_, by rw [ht]; rfl, by rw [ht]; rfl, by rw [ht]; rfl, by rw [ht]; rfl, by rw [ht]; rfl,
    by rw [ht]; rfl, by rw [htroster]; exact editedRoster_eq .., fun a ha => ?_, by rw [ht], ?_, ?_, hraised.only, by rw [ht]; rfl, by rw [ht]; rfl, by rw [ht]; rfl,
    by rw [ht]; rfl, by rw [ht]; rfl, by rw [ht], by rw [ht]; rfl, (hpeek (by decide) (by decide)).trans h3, (hpeek (by decide) (by decide)).trans h8,
    (hpeek (by decide) (by decide)).trans (h9.trans hcount'), hwritten, ?_, presentSet_isPresentSet t.roster, ?_, ?_⟩
  · rw [hcircuit, hxcircuit, BitVec.ofNat_add]
  · have hkept (off : Nat) (hoff : off ∈ ringOffsets) : t.peek (recordBase c + off) = x.peek (recordBase c + off) := by
      have hrange := recordBase_range c
      have hlt := (by decide : ∀ o ∈ ringOffsets, o < 0x40) off hoff
      exact hpeek (by omega) (by omega)
    obtain ⟨h10, h12, h13, h14⟩ := (hrings c hc).congr hkept
    rw [hcircuit]
    exact ⟨h10, h12, h13, h14⟩
  · rw [htroster]
    exact entry_editedRoster haddress _ ha
  · exact (((htold { t with station := s.station } rfl rfl).before hbefore hmiddle List.not_mem_nil).after (hbefore.trans hmiddle) hafter).told fun n => rfl
  · exact ((htold'.before hbefore hmiddle List.not_mem_nil).after (hbefore.trans hmiddle) hafter).told fun n => by
      simp only [entryBytes, hxroster, hxstation]
  · rw [hstation] at hmirror
    exact mirrorShows_congr hxroster.symm (fun a hlow hhigh => hpeek (by omega) (by omega)) hmirror
  · rw [hroster] at hcounter
    rw [htroster]
    exact ⟨(hpeek (by decide) (by decide)).trans hcounter.1, (hpeek (by decide) (by decide)).trans hcounter.2⟩
  · refine sameWindow_mono hwindow fun a ha => ?_
    simp only [List.mem_append, List.mem_cons, List.not_mem_nil, or_false, circuitsBelow] at ha ⊢
    tauto

end Sys2Proof.Proofs
end

section
namespace Sys2Proof.Proofs

open Sys2Proof Sys2Proof.Machine Sys2Proof.Claims Sys2Proof.Safety Sys2Proof.Laws

/-! ## The fields of the start pass, in their order (R174, log 16) -/

/-- The write is the `i`th of the start pass of these straps: it writes bytes of that field alone, with the values of the pass. -/
def WritesField (st : Station) (i : Nat) (w : FieldWrite) : Prop :=
  ∀ b ∈ writeBytes w, passField b.1 = i ∧ b.1 < 0x0500 ∧ b.2 = passValue st b.1

theorem passValue_zero (st : Station) {a : Nat} (ha : 8 ≤ a) : passValue st a = 0 := by
  rw [passValue, if_neg (by omega)]
  unfold startValue
  split <;> first | omega | rfl

theorem writesField_byte {st : Station} {i off : Nat} {v : Byte} (hfield : passField off = i) (hlow : off < 0x0500) (hv : v = passValue st off) :
    WritesField st i (.byte off v) := fun b hb => by
  rw [List.mem_singleton.mp hb]
  exact ⟨hfield, hlow, hv⟩

theorem writesField_half {st : Station} {i off : Nat} (hfield : passField off = i ∧ passField (off + 1) = i) (hlow : off + 1 < 0x0500)
    (hoff : 8 ≤ off) : WritesField st i (.half off 0) := fun b hb => by
  obtain rfl | hb := List.mem_cons.mp hb
  · exact ⟨hfield.1, by simp only; omega, (passValue_zero st hoff).symm⟩
  · rw [List.mem_singleton.mp hb]
    exact ⟨hfield.2, hlow, (passValue_zero st (by omega)).symm⟩

theorem passField_eq {a : Nat} (ha : 0x14 ≤ a) : passField a = 19 + (a - 0x14) / 2 := by
  unfold passField
  rw [if_neg (by omega), if_neg (by omega), if_neg (by omega), if_neg (by omega)]

theorem startPassWrites_single (st : Station) {i : Nat} (hlow : 7 ≤ i) (hhigh : i < 19) :
    (startPassWrites st.address st.rate st.loop)[i]? = some (.byte (i + 1) 0) := by
  unfold startPassWrites
  rw [List.append_assoc, List.getElem?_append_left (by simp; omega), List.getElem?_append_right (by simpa using hlow), List.getElem?_map,
    List.getElem?_range (by simp; omega), Option.map_some]
  simp only [List.length_cons, List.length_nil, offStartStatus]
  congr 2
  omega

theorem startPassWrites_double (st : Station) {j : Nat} (hj : j < 630) :
    (startPassWrites st.address st.rate st.loop)[19 + j]? = some (.half (0x14 + 2 * j) 0) := by
  unfold startPassWrites
  by_cases hrecord : j < 118
  · rw [List.getElem?_append_left (by simp; omega), List.getElem?_append_right (by simp), List.getElem?_map,
      List.getElem?_range (by simp; omega), Option.map_some]
    simp only [List.length_append, List.length_cons, List.length_nil, List.length_map, List.length_range, offPresentLow]
    refine congrArg (fun o => some (FieldWrite.half o 0)) ?_
    omega
  · rw [List.getElem?_append_right (by simp; omega), List.getElem?_map, List.getElem?_range (by simp; omega), Option.map_some]
    simp only [List.length_append, List.length_cons, List.length_nil, List.length_map, List.length_range]
    refine congrArg (fun o => some (FieldWrite.half o 0)) ?_
    omega

theorem startPassWrites_length (st : Station) : (startPassWrites st.address st.rate st.loop).length = 649 := by
  simp [startPassWrites]

/-- The first fields hold the state, the table of R133 and the latched straps. -/
theorem startPassWrites_first (st : Station) {i : Nat} (hi : i < 7) {w : FieldWrite}
    (h : (startPassWrites st.address st.rate st.loop)[i]? = some w) : WritesField st i w := by
  have hloop : BitVec.zeroExtend 8 (BitVec.ofBool st.loop) = if st.loop then 1 else 0 := by cases st.loop <;> rfl
  interval_cases i <;> obtain rfl := Option.some.inj h
  · exact writesField_byte rfl (by decide) rfl
  · exact fun b hb => by
      obtain rfl | hb := List.mem_cons.mp hb
      · exact ⟨rfl, by decide, rfl⟩
      · rw [List.mem_singleton.mp hb]
        exact ⟨rfl, by decide, rfl⟩
  · exact writesField_byte rfl (by decide) rfl
  · exact writesField_byte rfl (by decide) rfl
  · exact writesField_byte rfl (by decide) rfl
  · exact writesField_byte rfl (by decide) rfl
  · exact writesField_byte rfl (by decide) hloop

/-- Each write of the start pass writes its own field with the value of the pass. -/
theorem startPassWrites_field (st : Station) {i : Nat} {w : FieldWrite} (h : (startPassWrites st.address st.rate st.loop)[i]? = some w) :
    WritesField st i w := by
  have hi : i < 649 := by
    rw [← startPassWrites_length st]
    exact (List.getElem?_eq_some_iff.mp h).1
  obtain hfirst | hsingle | hdouble : i < 7 ∨ (7 ≤ i ∧ i < 19) ∨ 19 ≤ i := by omega
  · exact startPassWrites_first st hfirst h
  · rw [startPassWrites_single st hsingle.1 hsingle.2] at h
    obtain rfl := Option.some.inj h
    refine writesField_byte ?_ (by omega) (passValue_zero st (by omega)).symm
    unfold passField
    rw [if_neg (by omega), if_neg (by omega), if_neg (by omega), if_pos (by omega)]
    rfl
  · obtain ⟨j, rfl⟩ := Nat.exists_eq_add_of_le hdouble
    rw [startPassWrites_double st (by omega)] at h
    obtain rfl := Option.some.inj h
    refine writesField_half ⟨?_, ?_⟩ (by omega) (by omega) <;> rw [passField_eq (by omega)] <;> omega

/-- Every byte below 0x0500 is one of the write of its field. -/
theorem passField_written (st : Station) {a : Nat} (ha : a < 0x0500) : ∃ w, (startPassWrites st.address st.rate st.loop)[passField a]? = some w ∧
    ∃ b ∈ writeBytes w, b.1 = a := by
  obtain hfirst | hsingle | hdouble : a < 8 ∨ (8 ≤ a ∧ a < 0x14) ∨ 0x14 ≤ a := by omega
  · interval_cases a
    · exact ⟨_, rfl, _, List.mem_cons_self, rfl⟩
    · exact ⟨_, rfl, _, List.mem_cons_of_mem _ (List.mem_singleton_self _), rfl⟩
    all_goals exact ⟨_, rfl, _, List.mem_singleton_self _, rfl⟩
  · have hfield : passField a = a - 1 := by
      unfold passField
      rw [if_neg (by omega), if_neg (by omega), if_neg (by omega), if_pos (by omega)]
    rw [hfield, startPassWrites_single st (by omega) (by omega)]
    exact ⟨_, rfl, _, List.mem_singleton_self _, by show a - 1 + 1 = a; omega⟩
  · rw [passField_eq hdouble, startPassWrites_double st (by omega)]
    refine ⟨_, rfl, ?_⟩
    by_cases hodd : (a - 0x14) % 2 = 0
    · exact ⟨_, List.mem_cons_self, by show 0x14 + 2 * ((a - 0x14) / 2) = a; omega⟩
    · exact ⟨_, List.mem_cons_of_mem _ (List.mem_singleton_self _), by show 0x14 + 2 * ((a - 0x14) / 2) + 1 = a; omega⟩

/-! ## The rest of a start pass (R174) -/

/-- The bytes that a start pass with `n` fields written has yet to write. -/
def restBytes (st : Station) (n : Nat) : List (Nat × Byte) := ((startPassWrites st.address st.rate st.loop).drop n).flatMap writeBytes

theorem restBytes_field {st : Station} {n : Nat} {b : Nat × Byte} (hb : b ∈ restBytes st n) :
    n ≤ passField b.1 ∧ b.1 < 0x0500 ∧ b.2 = passValue st b.1 := by
  obtain ⟨w, hw, hb⟩ := List.mem_flatMap.mp hb
  obtain ⟨i, hi⟩ := List.mem_iff_getElem?.mp hw
  rw [List.getElem?_drop] at hi
  obtain ⟨hfield, hrest⟩ := startPassWrites_field st hi b hb
  exact ⟨by omega, hrest⟩

theorem restBytes_written (st : Station) {n a : Nat} (ha : a < 0x0500) (hn : n ≤ passField a) : ∃ b ∈ restBytes st n, b.1 = a := by
  obtain ⟨w, hw, b, hb, hba⟩ := passField_written st ha
  refine ⟨b, List.mem_flatMap.mpr ⟨w, List.mem_iff_getElem?.mpr ⟨passField a - n, ?_⟩, hb⟩, hba⟩
  rw [List.getElem?_drop, Nat.add_sub_cancel' hn, hw]

theorem startPassRest_eq (s : State) (n : Nat) : s.writeFields (s.startPassRest n) = s.pokeEach (restBytes s.station n) :=
  writeFields_eq_pokeEach _ _

/-- What the rest of the pass leaves in the window. -/
theorem startPassRest_shows {s : State} (hmem : MemoryLaw s) (n : Nat) : MemoryLaw (s.writeFields (s.startPassRest n)) ∧
    s.writeFields (s.startPassRest n) = { s with window := (s.writeFields (s.startPassRest n)).window } ∧
    (∀ a, a < 0x0500 → n ≤ passField a → (s.writeFields (s.startPassRest n)).peek a = passValue s.station a) ∧
    (∀ a, a < 65536 → 0x0500 ≤ a ∨ passField a < n → (s.writeFields (s.startPassRest n)).peek a = s.peek a) := by
  rw [startPassRest_eq]
  have hlow : ∀ b ∈ restBytes s.station n, b.1 < 65536 := fun b hb => by
    have := (restBytes_field hb).2.1
    omega
  refine ⟨pokeEach_wf _ hmem, pokeEach_eq _ _, fun a ha hn => ?_, fun a ha hout => ?_⟩
  · exact peek_pokeEach_value hlow (restBytes_written s.station ha hn) (fun b hb hba => hba ▸ (restBytes_field hb).2.2) hmem
  · refine peek_pokeEach_ne hlow s ha fun b hb hba => ?_
    obtain ⟨hfield, hbelow, -⟩ := restBytes_field hb
    rw [hba] at hfield hbelow
    omega

/-- What the end of the pass leaves and shows. -/
theorem finishStartPass_shows {u : State} (hmem : MemoryLaw u) :
    u.finishStartPass = { u with
      station.startPass := none
      station.state := if u.station.address = 31 then .halted else .config
      station.haltCause := if u.station.address = 31 then .badStrap else u.station.haltCause
      window := u.finishStartPass.window } ∧
    u.finishStartPass.peek 0x03 = (if u.station.address = 31 then 5 else 1) ∧
    (u.station.address = 31 → u.finishStartPass.peek 0x04 = 2) ∧
    (∀ a, a < 65536 → a ≠ 0x03 → (a = 0x04 → u.station.address ≠ 31) → u.finishStartPass.peek a = u.peek a) := by
  unfold State.finishStartPass
  by_cases haddress : u.station.address = 31
  · simp only [if_pos haddress]
    have hwf : MemoryLaw (({ u with station.startPass := none, station.haltCause := .badStrap, station.state := .halted } : State).poke
      offHaltCause HaltCause.badStrap.code) := poke_wf _ _ _ hmem
    have hcause : (({ u with station.startPass := none, station.haltCause := .badStrap, station.state := .halted } : State).poke
      offHaltCause HaltCause.badStrap.code).peek 0x04 = 2 :=
      peek_poke_same ({ u with station.startPass := none, station.haltCause := .badStrap, station.state := .halted } : State) _ _ hmem (by decide)
    refine ⟨rfl, peek_poke_same _ _ _ hwf (by decide), fun _ => (peek_poke_ne _ _ _ _ (by decide) (by decide) (by decide)).trans hcause,
      fun a ha h3 h4 => ?_⟩
    have hne : a ≠ 0x04 := fun h => h4 h haddress
    exact (peek_poke_ne _ _ a _ (by decide) ha h3).trans
      (peek_poke_ne ({ u with station.startPass := none, station.haltCause := .badStrap, station.state := .halted } : State) _ a _ (by decide) ha hne)
  · simp only [if_neg haddress]
    exact ⟨rfl, peek_poke_same ({ u with station.startPass := none, station.state := .config } : State) _ _ hmem (by decide),
      fun h => absurd h haddress,
      fun a ha h3 _ => peek_poke_ne ({ u with station.startPass := none, station.state := .config } : State) _ a _ (by decide) ha h3⟩

theorem exec_startPassEnd {s : State} {n : Nat} (hreset : s.station.state = .reset) (hpass : s.station.startPass = some n) :
    exec .startPassEnd s = .next (s.writeFields (s.startPassRest n)).finishStartPass := by
  show execStartPassEnd s = _
  rw [execStartPassEnd, hreset, hpass]

/-- Settles O4: the straps are latched; the rest of the pass is written and the station enters CONFIG or HALTED. -/
theorem startPassLatchesWritesAndEnters : Obligations.StartPassLatchesWritesAndEnters := by
  refine ⟨fun s address rate loop hreset hlow => ?_, fun s n hmem hreset hpass => ⟨_, exec_startPassEnd hreset hpass, ?_⟩⟩
  · show execResetRelease address rate loop s = _
    rw [execResetRelease, if_pos ⟨hlow, hreset⟩]
    rfl
  · obtain ⟨hwf, heq, hwritten, hkept⟩ := startPassRest_shows hmem n
    obtain ⟨hframe, hstate, hcause, hrest⟩ := finishStartPass_shows hwf
    generalize s.writeFields (s.startPassRest n) = u at *
    have hstation : u.station = s.station := by rw [heq]
    rw [hstation] at hframe hstate hcause hrest
    generalize u.finishStartPass = t at *
    refine ⟨?_, hstate, hcause, fun a ha hn => ?_, fun a ha hn h3 h4 => ?_, fun a hlow hhigh => ?_⟩
    · rw [heq] at hframe
      exact hframe
    · by_cases h3 : a = 0x03
      · rw [h3, hstate]
        rfl
      by_cases h4 : a = 0x04 ∧ s.station.address = 31
      · rw [h4.1, hcause h4.2]
        exact (if_pos h4.2).symm
      rw [hrest a (by omega) h3 fun h haddress => h4 ⟨h, haddress⟩, hwritten a ha hn, passValue]
      by_cases h4' : a = 0x04
      · rw [if_pos (.inr h4'), h4']
        exact (if_neg fun haddress => h4 ⟨h4', haddress⟩).symm
      · rw [if_neg (by omega)]
    · exact (hrest a (by omega) h3 fun h => h4.resolve_left (not_not.mpr h)).trans (hkept a (by omega) (.inr hn))
    · exact (hrest a hhigh (by omega) (by omega)).trans (hkept a hhigh (.inl hlow))

end Sys2Proof.Proofs
end

section
namespace Sys2Proof.Proofs

open Sys2Proof Sys2Proof.Machine Sys2Proof.Claims Sys2Proof.Safety Sys2Proof.Laws

/-! ## One bit time, block by block (log 3) -/

/-- The bit time of the blocks, as the statements say it: all of it but the happenings that fall due. -/
structure BitTime (s t : State) : Prop where
  circuit : ∀ c, t.circuit c = { s.circuit c with
    retryTimer := (s.circuit c).retryTimer.map fun n => min 131072 (n + 1)
    dataRetryTimer := (s.circuit c).dataRetryTimer.map fun n => min 131072 (n + 1)
    probeTimer := (s.circuit c).probeTimer.map fun n => min 131072 (n + 1)
    rxIdleTimer := (s.circuit c).rxIdleTimer.map fun n => min 16384 (n + 1) }
  roster : t.roster = { s.roster with
    entries := t.roster.entries
    silence := if s.station.state = .active then min 32768 (s.roster.silence + 1) else s.roster.silence }
  entry : ∀ a, a < 31 → t.roster.entry a =
    if s.station.state.receives = true ∧ (s.roster.entry a).present = true ∧ a ≠ s.station.address.toNat then
      ⟨true, min 262144 ((s.roster.entry a).age + 1)⟩
    else s.roster.entry a
  station : t.station = { s.station with
    joinTimer := s.station.joinTimer.map fun n => min 65536 (n + 1)
    muteTimer := s.station.muteTimer.map fun n => min 262144 (n + 1)
    startPass := s.station.startPass.map fun n => if n < 649 then n + 1 else n }
  arbiter : t.arbiter = if s.arbiter.state = .round then
      { s.arbiter with roundTimer := min (24 + 16 * s.arbiter.positions) (s.arbiter.roundTimer + 1) }
    else s.arbiter
  quality : t.quality = { s.quality with
    windowTimer := match s.quality.params with
      | some q => s.quality.windowTimer.map fun n => min (65536 * 2 ^ q.exponent) (n + 1)
      | none => s.quality.windowTimer }
  lineOff : s.line.state = .off → t.line = s.line
  lineQuiet : s.line.state = .settling ∨ s.line.state = .idle ∨ s.line.state = .hearing ∨ s.line.state = .stopped →
    t.line = { s.line with quiet := min 20 (s.line.quiet + 1) }
  driven : s.line.state = .sending → ∀ f ∈ s.selector.inFlight, drivenOn s t f
  lineState : t.line.state = s.line.state
  rest : t.orphans = s.orphans ∧ t.requests = s.requests ∧ t.notice = s.notice ∧ t.selector = s.selector ∧ t.bus = s.bus ∧
    t.choices = s.choices ∧ t.landed = s.landed ∧ t.pending = s.pending
  window : s.station.startPass = none → t.window = s.window
  pass : MemoryLaw s → ∀ n ∈ s.station.startPass, ∀ a, a < 65536 →
    t.peek a = if a < 0x0500 ∧ passField a = n then passValue s.station a else s.peek a

/-! ### The start pass -/

/-- What a bit time of the start pass leaves in the window. -/
theorem tickStartPass_eq (s : State) : s.tickStartPass = { s with
    station.startPass := s.station.startPass.map fun n => if n < 649 then n + 1 else n
    window := s.tickStartPass.window } := by
  unfold State.tickStartPass
  cases hpass : s.station.startPass with
  | none =>
    dsimp only
    rw [Option.map_none, ← hpass]
  | some n =>
    dsimp only
    have hlength : (s.startPassRest n).length = 649 - n := by
      rw [State.startPassRest, List.length_drop, startPassWrites_length]
    cases hrest : s.startPassRest n with
    | nil =>
      rw [hrest, List.length_nil] at hlength
      dsimp only
      rw [Option.map_some, if_neg (by omega), ← hpass]
    | cons w rest =>
      rw [hrest, List.length_cons] at hlength
      dsimp only
      rw [Option.map_some, if_pos (by omega)]
      cases w <;> rfl

theorem tickStartPass_window {s : State} (h : s.station.startPass = none) : s.tickStartPass = s := by
  unfold State.tickStartPass
  rw [h]

/-- A bit time of the start pass writes one field (R174, log 16). -/
theorem tickStartPass_peek {s : State} (hmem : MemoryLaw s) {n : Nat} (hpass : s.station.startPass = some n) {a : Nat} (ha : a < 65536) :
    s.tickStartPass.peek a = if a < 0x0500 ∧ passField a = n then passValue s.station a else s.peek a := by
  unfold State.tickStartPass
  rw [hpass]
  dsimp only
  have hrest : s.startPassRest n = (startPassWrites s.station.address s.station.rate s.station.loop).drop n := rfl
  cases hwrites : s.startPassRest n with
  | nil =>
    have hn : 649 ≤ n := by
      have hlength := congrArg List.length hwrites
      rw [hrest, List.length_drop, startPassWrites_length, List.length_nil] at hlength
      omega
    refine (if_neg fun ⟨hlow, hfield⟩ => ?_).symm
    obtain ⟨w, hw, -⟩ := passField_written s.station hlow
    have := (List.getElem?_eq_some_iff.mp hw).1
    rw [startPassWrites_length] at this
    omega
  | cons w rest =>
    have hw : (startPassWrites s.station.address s.station.rate s.station.loop)[n]? = some w := by
      rw [hrest] at hwrites
      have := congrArg (·[0]?) hwrites
      simpa using this
    have hbytes := startPassWrites_field s.station hw
    have hlow : ∀ b ∈ writeBytes w, b.1 < 65536 := fun b hb => by
      have := (hbytes b hb).2.1
      omega
    have hwrite : (({ s with station.startPass := some (n + 1) } : State).writeField w) =
        ({ s with station.startPass := some (n + 1) } : State).pokeEach (writeBytes w) := by cases w <;> rfl
    dsimp only
    rw [hwrite]
    split
    case isTrue h =>
      obtain ⟨hbelow, hfield⟩ := h
      obtain ⟨w', hw', b, hb, hba⟩ := passField_written s.station hbelow
      rw [hfield, hw] at hw'
      obtain rfl := Option.some.inj hw'
      exact peek_pokeEach_value hlow ⟨b, hb, hba⟩ (fun b hb hba => hba ▸ (hbytes b hb).2.2) hmem
    case isFalse h =>
      refine peek_pokeEach_ne hlow _ ha fun b hb hba => h ?_
      obtain ⟨hfield, hbelow, -⟩ := hbytes b hb
      rw [hba] at hfield hbelow
      exact ⟨hbelow, hfield⟩

end Sys2Proof.Proofs
end

section
namespace Sys2Proof.Proofs

open Sys2Proof Sys2Proof.Machine Sys2Proof.Claims Sys2Proof.Safety Sys2Proof.Laws

/-! ### The timers -/

theorem entry_tick (r : Roster) (st : Station) {a : Nat} (ha : a < 31) : (r.tick st).entry a =
    if st.state.receives = true ∧ (r.entry a).present = true ∧ a ≠ st.address.toNat then ⟨true, min 262144 ((r.entry a).age + 1)⟩
    else r.entry a := by
  have hentry (q : Roster) : q.entry a = q.entries.get ⟨a, ha⟩ := dif_pos ha
  rw [hentry, hentry r]
  unfold Roster.tick
  dsimp only
  by_cases hreceives : st.state.receives = true
  · rw [if_pos hreceives, Vector.get_ofFn]
    unfold RosterEntry.tick
    dsimp only
    by_cases h : (r.entries.get ⟨a, ha⟩).present = true ∧ a ≠ st.address.toNat
    · rw [if_pos h, if_pos ⟨hreceives, h⟩, ← h.1]
      rfl
    · rw [if_neg h, if_neg fun g => h g.2]
  · rw [if_neg hreceives, if_neg fun g => hreceives g.1]

theorem arbiter_tick (a : Arbiter) : a.tick =
    if a.state = .round then { a with roundTimer := min (24 + 16 * a.positions) (a.roundTimer + 1) } else a := by
  have hlength : a.silentLength = 24 + 16 * a.positions := congrArg (24 + ·) (Nat.mul_comm a.positions 16)
  rw [Arbiter.tick, hlength]

theorem quality_tick (q : Quality) : q.tick = { q with
    windowTimer := match q.params with
      | some p => q.windowTimer.map fun n => min (65536 * 2 ^ p.exponent) (n + 1)
      | none => q.windowTimer } := by
  unfold Quality.tick
  cases hparams : q.params with
  | none =>
    dsimp only
    rw [← hparams]
  | some p =>
    dsimp only
    rw [← hparams]
    rfl

/-! ### The own frame -/

theorem lineBits_level (f : FlightFrame) (n : Nat) (b : Byte) (loop : Bool) :
    f.level n b loop = (loop || lineLevel n (9 + payloadSize f) b) := by
  have hlast : (!decide (f.bodyLength + 2 ≤ n / 10 + 1)) = decide (n / 10 + 1 < 9 + payloadSize f) := by
    have hlength : f.bodyLength = 7 + payloadSize f := rfl
    rw [hlength, ← decide_not]
    exact decide_eq_decide.mpr (by omega)
  have hdigit : n % 10 < 10 := Nat.mod_lt _ (by decide)
  unfold FlightFrame.level lineBits lineLevel
  rw [hlast]
  generalize decide (n / 10 + 1 < 9 + payloadSize f) = last
  generalize n % 10 = d at *
  congr 1
  interval_cases d <;> rfl

theorem ownByte_congr {u t : State} (h : t.window = u.window) (f : FlightFrame) (i : Nat) : Claims.ownByte t f i = Claims.ownByte u f i := by
  unfold Claims.ownByte State.peek
  rw [h]

theorem quietSending_eq (s : State) (level : Bool) :
    s.quietSending level = if s.station.loop = true ∨ level ≠ s.line.txd then 0 else min 20 (s.line.quiet + 1) := by
  unfold State.quietSending
  exact if_congr (by simp) rfl rfl

/-- One bit time of the own frame, as the statements say it (R1, R14). -/
theorem tickSending_driven {s t : State} {f : FlightFrame} (hline : t.line = s.tickSending f) (hwindow : t.window = s.window) : drivenOn s t f := by
  have htime : f.lineTime = 10 * (9 + payloadSize f) := by
    show 10 * (7 + payloadSize f + 2) = _
    omega
  have hbody : f.bodyLength = 7 + payloadSize f := rfl
  unfold State.tickSending at hline
  dsimp only at hline
  rw [htime] at hline
  by_cases hend : 10 * (9 + payloadSize f) ≤ s.line.txBit + 1
  · rw [if_pos hend, quietSending_eq] at hline
    refine ⟨?_, fun _ => by rw [hline]; exact ⟨rfl, rfl, rfl⟩, fun h => absurd hend (by omega)⟩
    rw [Nat.min_eq_left hend, hline]
  · rw [if_neg hend, lineBits_level, quietSending_eq] at hline
    obtain ⟨l, hl⟩ : ∃ l, l = if (s.line.txBit + 1) % 10 = 0 then s.driveByte f else s.line := ⟨_, rfl⟩
    rw [← hl] at hline
    have hkept : l = { s.line with driven := l.driven, txCheck := l.txCheck } := by
      rw [hl]
      split <;> rfl
    have hdriven : t.line.driven = l.driven := by rw [hline]
    have hcheck : t.line.txCheck = l.txCheck := by rw [hline]
    have hlevel : t.line.txd = (s.station.loop || lineLevel (s.line.txBit + 1) (9 + payloadSize f) (l.driven.getLastD 0)) := by rw [hline]
    refine ⟨?_, fun h => absurd h hend, fun _ => ⟨by rw [hlevel, hdriven], ?_⟩⟩
    · rw [Nat.min_eq_right (show s.line.txBit + 1 ≤ 10 * (9 + payloadSize f) by omega), hlevel, hdriven, hcheck]
      rw [hkept] at hline
      exact hline
    · rw [hdriven, hcheck, hl]
      by_cases htenth : (s.line.txBit + 1) % 10 = 0
      · rw [if_neg (not_not.mpr htenth), if_pos htenth, ownByte_congr hwindow, ← bodyByte_eq_ownByte]
        unfold State.driveByte State.nextByte
        dsimp only
        rw [hbody]
        by_cases hin : s.line.driven.length < 7 + payloadSize f
        · rw [if_pos hin, if_pos hin, if_pos hin]
          exact ⟨rfl, rfl⟩
        · rw [if_neg hin, if_neg hin, if_neg hin]
          refine ⟨?_, rfl⟩
          by_cases hfirst : s.line.driven.length = 7 + payloadSize f
          · rw [if_pos hfirst, if_pos hfirst, highByte_eq]
          · rw [if_neg hfirst, if_neg hfirst, lowByte_eq]
      · rw [if_pos htenth, if_neg htenth]
        exact ⟨rfl, rfl⟩

end Sys2Proof.Proofs
end

section
namespace Sys2Proof.Proofs

open Sys2Proof Sys2Proof.Machine Sys2Proof.Claims Sys2Proof.Safety Sys2Proof.Laws

theorem tickLine_state (s : State) : s.tickLine.state = s.line.state := by
  unfold State.tickLine
  split
  case h_2 f hsending hf =>
    unfold State.tickSending
    dsimp only
    split
    · rfl
    · split <;> rfl
  all_goals rfl

/-- A bit time of the timers, the line and the start pass. -/
theorem bitTime (s : State) : BitTime s s.tickStartPass.tickTimers := by
  have hu := tickStartPass_eq s
  have hnone := tickStartPass_window (s := s)
  have hpass := fun hmem n hn a ha => tickStartPass_peek (s := s) hmem (n := n) hn (a := a) ha
  generalize s.tickStartPass = u at *
  have hstation : u.station = { s.station with startPass := s.station.startPass.map fun n => if n < 649 then n + 1 else n } := by rw [hu]
  have hline : u.line = s.line := by rw [hu]
  have hcircuit (c : CircuitNo) : u.circuit c = s.circuit c := by rw [hu]; rfl
  have hroster : u.roster = s.roster := by rw [hu]
  have harbiter : u.arbiter = s.arbiter := by rw [hu]
  have hquality : u.quality = s.quality := by rw [hu]
  have hselector : u.selector = s.selector := by rw [hu]
  have hoff (h : s.line.state = .off) : u.tickLine = s.line := by rw [tickLine_off (by rw [hline]; exact h), hline]
  have hquiet (h : s.line.state ≠ .off) (g : s.line.state ≠ .sending) : u.tickLine = { s.line with quiet := min 20 (s.line.quiet + 1) } := by
    rw [tickLine_quiet (by rw [hline]; exact h) (by rw [hline]; exact g), hline]
    rfl
  have hsending (h : s.line.state = .sending) (f : FlightFrame) (hf : f ∈ s.selector.inFlight) : u.tickLine = u.tickSending f := by
    rw [State.tickLine, hline, h, hselector, Option.mem_def.mp hf]
  exact {
    circuit := fun c => by
      rw [tickTimers_circuit, hcircuit]
      rfl
    roster := by
      have hticked : u.tickTimers.roster = u.roster.tick u.station := rfl
      rw [hticked, hroster, hstation]
      rfl
    entry := fun a ha => by
      show (u.roster.tick u.station).entry a = _
      rw [entry_tick _ _ ha, hroster, hstation]
    station := by
      show u.station.tick = _
      rw [hstation]
      rfl
    arbiter := by
      show u.arbiter.tick = _
      rw [arbiter_tick, harbiter]
    quality := by
      show u.quality.tick = _
      rw [hquality]
      exact quality_tick _
    lineOff := hoff
    lineQuiet := fun h => hquiet (by rcases h with h | h | h | h <;> rw [h] <;> decide) (by rcases h with h | h | h | h <;> rw [h] <;> decide)
    driven := fun h f hf => by
      have hdriven : drivenOn u u.tickTimers f := tickSending_driven (hsending h f hf) rfl
      have hloop : u.station.loop = s.station.loop := by rw [hstation]
      generalize u.tickTimers = t at *
      simp only [drivenOn, hline, hloop] at hdriven
      exact hdriven
    lineState := by
      show u.tickLine.state = _
      rw [tickLine_state, hline]
    rest := by
      rw [hu]
      exact ⟨rfl, rfl, rfl, rfl, rfl, rfl, rfl, rfl⟩
    window := fun h => by
      show u.window = _
      rw [hnone h]
    pass := fun hmem n hn a ha => hpass hmem n hn a ha }

end Sys2Proof.Proofs
end

section
namespace Sys2Proof.Proofs

open Sys2Proof Sys2Proof.Machine Sys2Proof.Claims Sys2Proof.Safety Sys2Proof.Laws

/-! ## What falls due in a bit time -/

theorem mem_dueIf {b : Bool} {i j : Instr} : i ∈ dueIf b j ↔ b = true ∧ i = j := by
  unfold dueIf
  split
  case isTrue h => simp [h]
  case isFalse h => simp [h]

/-- A timer reaches its limit in the bit time before which it stood one short of it. -/
theorem reached_iff {limit : Nat} (hlimit : 0 < limit) (timer : Option Nat) :
    reached limit timer (timer.map fun n => min limit (n + 1)) = true ↔ timer = some (limit - 1) := by
  cases timer with
  | none => simp [reached]
  | some n =>
    simp only [reached, Option.map_some, Bool.and_eq_true, decide_eq_true_eq, Option.some.injEq]
    omega

theorem came_iff {limit n : Nat} (hlimit : 0 < limit) : came limit n (min limit (n + 1)) = true ↔ n = limit - 1 := by
  simp only [came, Bool.and_eq_true, decide_eq_true_eq]
  omega

theorem came_self (limit n : Nat) : came limit n n = false := by
  simp only [came, Bool.and_eq_false_iff, decide_eq_false_iff_not]
  omega

theorem passDue_iff (t : State) : (decide t.station.startPass.isSome && (t.startPassRest (t.station.startPass.getD 0)).isEmpty) = true ↔
    ∃ n, t.station.startPass = some n ∧ 649 ≤ n := by
  have hrest (n : Nat) : (t.startPassRest n).isEmpty = true ↔ 649 ≤ n := by
    rw [List.isEmpty_iff, State.startPassRest, List.drop_eq_nil_iff, startPassWrites_length]
  cases hpass : t.station.startPass with
  | none => simp
  | some n => simp [hrest]

theorem turn_iff (s t : State) : (t.arbiter.turnDue && !s.arbiter.turnDue) = true ↔ atPosition t.arbiter ∧ ¬atPosition s.arbiter := by
  rw [Bool.and_eq_true, Bool.not_eq_true', ← Bool.not_eq_true, turnDue_iff, turnDue_iff]

section
variable {s t : State} (h : BitTime s t)
include h

theorem sentDue_iff : s.sentDue t = true ↔ s.line.state = .sending ∧ ∃ f ∈ s.selector.inFlight, s.line.txBit + 1 = 10 * (9 + payloadSize f) := by
  unfold State.sentDue
  have htime (f : FlightFrame) : f.lineTime = 10 * (9 + payloadSize f) := by
    show 10 * (7 + payloadSize f + 2) = _
    omega
  by_cases hsending : s.line.state = .sending
  · cases hflight : s.selector.inFlight with
    | none => simp [hsending]
    | some f =>
      obtain ⟨hline, -⟩ := h.driven hsending f hflight
      have hbit : t.line.txBit = min f.lineTime (s.line.txBit + 1) := by rw [hline, htime]
      simp only [hsending, hbit]
      rw [came_iff (by rw [htime]; omega), htime]
      simp only [true_and, Option.mem_def, Option.some.injEq, exists_eq_left']
      omega
  · split
    · next hs _ => exact absurd hs hsending
    · simp [hsending]

/-- A line heard, or waiting after a collision, becomes quiet in the bt in which its measure comes to 20 (R2). -/
theorem lineQuiet_came (hstate : s.line.state = .hearing ∨ s.line.state = .stopped) :
    (t.lineQuiet && !s.lineQuiet) = true ↔ s.station.loop = false ∧ s.line.quiet = 19 := by
  have hloop : t.station.loop = s.station.loop := by rw [h.station]
  have hquiet : t.line.quiet = min 20 (s.line.quiet + 1) := by rw [h.lineQuiet (by tauto)]
  have hlimit : Config.quietTime = 20 := rfl
  rw [State.lineQuiet, State.lineQuiet, hloop, h.lineState, hquiet, hlimit]
  cases s.station.loop with
  | true => simp
  | false =>
    simp only [Bool.false_eq_true, if_false, Bool.and_eq_true, decide_eq_true_eq, Bool.not_eq_true', decide_eq_false_iff_not, true_and]
    omega

theorem mem_quietDue {i : Instr} : i ∈ quietDue s t ↔
    (s.line.state = .hearing ∧ s.station.loop = false ∧ s.line.quiet = 19 ∧ i = .frameTruncated s.line.rxBuffer) ∨
    (s.line.state = .stopped ∧ s.station.loop = false ∧ s.line.quiet = 19 ∧ i = .frameCollided) := by
  have hcame := lineQuiet_came h
  have hbuffer : s.line.state = .hearing → t.line.rxBuffer = s.line.rxBuffer := fun hs => by rw [h.lineQuiet (by tauto)]
  unfold quietDue
  rw [h.lineState]
  cases hs : s.line.state with
  | hearing =>
    rw [hbuffer hs]
    simp only [hs, true_or, true_implies] at hcame
    simp only [reduceCtorEq, false_and, or_false, true_and, ← and_assoc, ← hcame]
    split <;> simp_all
  | stopped =>
    simp only [hs, or_true, true_implies] at hcame
    simp only [reduceCtorEq, false_and, false_or, true_and, ← and_assoc, ← hcame]
    split <;> simp_all
  | _ => simp

theorem settled_iff : (t.line.state == .settling && came Config.quietTime s.line.quiet t.line.quiet) = true ↔
    s.line.state = .settling ∧ s.line.quiet = 19 := by
  rw [Bool.and_eq_true, beq_iff_eq, h.lineState]
  refine and_congr_right fun hs => ?_
  have hquiet : t.line.quiet = min Config.quietTime (s.line.quiet + 1) := by rw [h.lineQuiet (.inl hs)]; rfl
  rw [hquiet, came_iff (by decide)]
  rfl

theorem mem_agedDue {i : Instr} : i ∈ agedDue s.roster t.roster ↔ ∃ a : Address, i = .peerAgedOut a ∧ s.station.state.receives = true ∧
    a ≠ s.station.address ∧ s.roster.isPresent a = true ∧ (s.roster.entry a.toNat).age = 262143 := by
  have hcame (a : Nat) (ha : a < 31) : came Config.tAbsent (s.roster.entry a).age (t.roster.entry a).age = true ↔
      (s.station.state.receives = true ∧ (s.roster.entry a).present = true ∧ a ≠ s.station.address.toNat) ∧ (s.roster.entry a).age = 262143 := by
    rw [h.entry a ha]
    split
    case isTrue hticks => exact (came_iff (limit := 262144) (by decide)).trans (iff_and_self.mpr fun _ => hticks)
    case isFalse hstays => simp [came_self, hstays]
  simp only [agedDue, allAddresses, List.mem_flatMap, List.mem_range, mem_dueIf]
  constructor
  · rintro ⟨a, ha, hdue, rfl⟩
    obtain ⟨⟨hreceives, hpresent, hown⟩, hage⟩ := (hcame a ha).mp hdue
    have hnumber : (BitVec.ofNat 5 a).toNat = a := by
      rw [BitVec.toNat_ofNat]
      exact Nat.mod_eq_of_lt (by omega)
    refine ⟨_, rfl, hreceives, fun he => hown (by rw [← he, hnumber]), ?_, by rw [hnumber]; exact hage⟩
    rw [Roster.isPresent, hnumber]
    exact hpresent
  · rintro ⟨a, rfl, hreceives, hown, hpresent, hage⟩
    have ha := toNat_lt_31 (ne_31_of_present hpresent)
    refine ⟨a.toNat, ha, (hcame _ ha).mpr ⟨⟨hreceives, hpresent, fun he => hown (BitVec.eq_of_toNat_eq he)⟩, hage⟩, ?_⟩
    rw [BitVec.ofNat_toNat, BitVec.setWidth_eq]

theorem mem_circuitDue {i : Instr} : (i ∈ allCircuits.flatMap fun c => circuitDue c (s.circuit c) (t.circuit c)) ↔ ∃ c : CircuitNo,
    ((s.circuit c).state = .calling ∧ (s.circuit c).retryTimer = some 131071 ∧ i = .callRetryExpiry c) ∨
    ((s.circuit c).state = .clearing ∧ (s.circuit c).retryTimer = some 131071 ∧ i = .clearRetryExpiry c) ∨
    ((s.circuit c).dataRetryTimer = some 131071 ∧ i = .dataRetryExpiry c) ∨
    ((s.circuit c).probeTimer = some 131071 ∧ i = .probeExpiry c) ∨
    ((s.circuit c).rxIdleTimer = some 16383 ∧ i = .rxIdleExpiry c) := by
  have hretry (timer : Option Nat) : reached Config.tRetry timer (timer.map fun n => min 131072 (n + 1)) = true ↔ timer = some 131071 :=
    reached_iff (limit := 131072) (by decide) timer
  have hidle (timer : Option Nat) : reached Config.tRxIdle timer (timer.map fun n => min 16384 (n + 1)) = true ↔ timer = some 16383 :=
    reached_iff (limit := 16384) (by decide) timer
  rw [List.mem_flatMap]
  refine exists_congr fun c => (and_iff_right (mem_allCircuits c)).trans ?_
  rw [h.circuit]
  simp only [circuitDue, List.mem_append, mem_dueIf, Bool.and_eq_true, beq_iff_eq, hretry, hidle, and_assoc, or_assoc]

theorem join_iff : reached Config.tJoin s.station.joinTimer t.station.joinTimer = true ↔ s.station.joinTimer = some 65535 := by
  rw [h.station]
  exact reached_iff (limit := 65536) (by decide) _

theorem mute_iff : reached Config.tMute s.station.muteTimer t.station.muteTimer = true ↔ s.station.muteTimer = some 262143 := by
  rw [h.station]
  exact reached_iff (limit := 262144) (by decide) _

theorem silence_iff : came Config.tRoll s.roster.silence t.roster.silence = true ↔ s.station.state = .active ∧ s.roster.silence = 32767 := by
  rw [h.roster]
  by_cases hactive : s.station.state = .active
  · rw [if_pos hactive]
    exact (came_iff (limit := 32768) (by decide)).trans (iff_and_self.mpr fun _ => hactive)
  · rw [if_neg hactive, came_self]
    simp [hactive]

theorem window_iff : s.quality.due t.quality = true ↔
    ∃ q ∈ s.quality.params, ∃ n ∈ s.quality.windowTimer, n + 1 = 65536 * 2 ^ q.exponent := by
  unfold Quality.due
  rw [h.quality]
  cases hparams : s.quality.params with
  | none => simp
  | some q =>
    have hpositive : 0 < 65536 * 2 ^ q.exponent := by positivity
    refine (reached_iff (limit := 65536 * 2 ^ q.exponent) hpositive _).trans ?_
    simp only [Option.mem_def, Option.some.injEq, exists_eq_left']
    constructor
    · intro htimer
      exact ⟨_, htimer, by omega⟩
    · rintro ⟨n, htimer, hn⟩
      rw [htimer]
      congr 1
      omega

theorem silentEnd_iff : (t.arbiter.silenceDue && !s.arbiter.silenceDue) = true ↔
    s.arbiter.state = .round ∧ s.arbiter.roundTimer + 1 = 24 + 16 * s.arbiter.positions := by
  rw [Bool.and_eq_true, Bool.not_eq_true', ← Bool.not_eq_true, silenceDue_iff, silenceDue_iff]
  by_cases hround : s.arbiter.state = .round
  · have harbiter : t.arbiter = { s.arbiter with roundTimer := min (24 + 16 * s.arbiter.positions) (s.arbiter.roundTimer + 1) } := by
      rw [h.arbiter, if_pos hround]
    rw [harbiter]
    simp only [hround, true_and]
    omega
  · have harbiter : t.arbiter = s.arbiter := by rw [h.arbiter, if_neg hround]
    rw [harbiter]
    simp [hround]

end

end Sys2Proof.Proofs
end

section
namespace Sys2Proof.Proofs

open Sys2Proof Sys2Proof.Machine Sys2Proof.Claims Sys2Proof.Safety Sys2Proof.Laws

/-! ## The queue after a bit time (log 23) -/

/-- Which block of what falls due a command is part of. -/
def dueRank : Instr → Nat
  | .startPassEnd => 0
  | .frameSent => 1
  | .frameTruncated _ | .frameCollided => 2
  | .lineSettled => 3
  | .peerAgedOut _ => 4
  | .callRetryExpiry _ | .clearRetryExpiry _ | .dataRetryExpiry _ | .probeExpiry _ | .rxIdleExpiry _ => 5
  | .joinTimerExpiry => 6
  | .muteTimerExpiry => 7
  | .silenceTimerExpiry => 8
  | .qualityWindowEnd => 9
  | .turn => 10
  | .silentRoundEnd => 11
  | _ => 12

theorem dueRank_requestRow (b : Byte) : dueRank (requestRow b) = 12 := by
  unfold requestRow
  split_ifs <;> rfl

theorem takingOf_eq (s : State) : s.takingOf = requestRow (reqByte s 1) := by
  have hkind : requestKindOf s.requestRecord.kind = requestKindOf (reqByte s 1) := rfl
  unfold State.takingOf
  rw [hkind]
  cases hk : requestKindOf (reqByte s 1) with
  | none => exact (requestRow_injective (v := 0) hk).symm
  | some kind =>
    rw [requestRow_injective (hk.trans (requestKindOf_code kind).symm)]
    cases kind <;> rfl

theorem mem_taking {t : State} {i : Instr} : i ∈ dueIf t.requestWaiting t.takingOf ↔ waits t ∧ i = requestRow (reqByte t 1) := by
  rw [mem_dueIf, requestWaiting_iff, takingOf_eq]

/-- A command of another block takes no request. -/
theorem ne_requestRow {i : Instr} (hrank : dueRank i ≠ 12) (b : Byte) : i ≠ requestRow b := fun he =>
  hrank (he ▸ dueRank_requestRow b)

/-- What joins the queue in a bit time is what falls due (R2, R154). -/
theorem mem_dueBetween {s t : State} (h : BitTime s t) (i : Instr) : i ∈ dueBetween s t ↔ fallsDue s t i := by
  simp only [dueBetween, List.mem_append, mem_dueIf (j := .startPassEnd), mem_dueIf (j := .frameSent), mem_dueIf (j := .lineSettled),
    mem_dueIf (j := .joinTimerExpiry), mem_dueIf (j := .muteTimerExpiry), mem_dueIf (j := .silenceTimerExpiry),
    mem_dueIf (j := .qualityWindowEnd), mem_dueIf (j := .turn), mem_dueIf (j := .silentRoundEnd), mem_taking, passDue_iff, turn_iff,
    sentDue_iff h, mem_quietDue h, settled_iff h, mem_agedDue h, mem_circuitDue h, join_iff h, mute_iff h, silence_iff h, window_iff h,
    silentEnd_iff h, or_assoc]
  by_cases hrank : dueRank i = 12
  · cases i <;> simp [dueRank] at hrank <;> simp [fallsDue]
  · simp only [ne_requestRow hrank, and_false, or_false]
    cases i <;> simp [dueRank] at hrank <;> simp [fallsDue, and_assoc]

/-- A command of one of the first blocks alone, each once. -/
structure DueBelow (k : Nat) (l : List Instr) : Prop where
  nodup : l.Nodup
  rank : ∀ i ∈ l, dueRank i < k

theorem DueBelow.append {k : Nat} {l m : List Instr} (h : DueBelow k l) (hnodup : m.Nodup) (hrank : ∀ i ∈ m, dueRank i = k) :
    DueBelow (k + 1) (l ++ m) := by
  refine ⟨List.nodup_append.mpr ⟨h.nodup, hnodup, fun i hi j hj hij => ?_⟩, fun i hi => ?_⟩
  · have hlow := h.rank i hi
    rw [hij, hrank j hj] at hlow
    omega
  · obtain hi | hi := List.mem_append.mp hi
    · exact Nat.lt_succ_of_lt (h.rank i hi)
    · exact Nat.lt_succ_of_le (hrank i hi).le

theorem DueBelow.appendOne {k : Nat} {l : List Instr} {b : Bool} {i : Instr} (h : DueBelow k l) (hrank : dueRank i = k) :
    DueBelow (k + 1) (l ++ dueIf b i) := by
  refine h.append ?_ fun j hj => (mem_dueIf.mp hj).2 ▸ hrank
  unfold dueIf
  split <;> simp

theorem nodup_quietDue (s t : State) : (quietDue s t).Nodup := by
  unfold quietDue
  split
  · split <;> simp
  · simp

theorem nodup_agedDue (r t : Roster) : (agedDue r t).Nodup := by
  refine List.nodup_flatMap.mpr ⟨fun a _ => ?_, ?_⟩
  · unfold dueIf
    split <;> simp
  · refine List.Pairwise.imp_of_mem ?_ List.nodup_range
    intro a b ha hb hne i hi hj
    obtain ⟨-, rfl⟩ := mem_dueIf.mp hi
    obtain ⟨-, hsame⟩ := mem_dueIf.mp hj
    rw [allAddresses, List.mem_range] at ha hb
    have hnumber := congrArg BitVec.toNat (Instr.peerAgedOut.inj hsame)
    rw [BitVec.toNat_ofNat, BitVec.toNat_ofNat, Nat.mod_eq_of_lt (by omega), Nat.mod_eq_of_lt (by omega)] at hnumber
    exact hne hnumber

/-- The circuit of a timer's expiry. -/
def expiryCircuit : Instr → CircuitNo
  | .callRetryExpiry c | .clearRetryExpiry c | .dataRetryExpiry c | .probeExpiry c | .rxIdleExpiry c => c
  | _ => 0

theorem circuitOf_due {c : CircuitNo} {k l : Circuit} {i : Instr} (hi : i ∈ circuitDue c k l) : expiryCircuit i = c := by
  simp only [circuitDue, List.mem_append, mem_dueIf] at hi
  obtain (((⟨-, rfl⟩ | ⟨-, rfl⟩) | ⟨-, rfl⟩) | ⟨-, rfl⟩) | ⟨-, rfl⟩ := hi <;> rfl

theorem nodup_circuitDue_one (c : CircuitNo) (k l : Circuit) : (circuitDue c k l).Nodup := by
  unfold circuitDue dueIf
  split_ifs <;> simp

theorem nodup_circuitDue (s t : State) : (allCircuits.flatMap fun c => circuitDue c (s.circuit c) (t.circuit c)).Nodup := by
  refine List.nodup_flatMap.mpr ⟨fun c _ => nodup_circuitDue_one c _ _, allCircuits_nodup.imp fun {c d} hne i hi hj => ?_⟩
  exact hne ((circuitOf_due hi).symm.trans (circuitOf_due hj))

/-- Each happening joins the queue once. -/
theorem nodup_dueBetween {s t : State} (h : BitTime s t) : (dueBetween s t).Nodup := by
  have hnil : DueBelow 0 [] := ⟨List.nodup_nil, fun i hi => absurd hi List.not_mem_nil⟩
  have hpass := hnil.appendOne (b := decide t.station.startPass.isSome && (t.startPassRest (t.station.startPass.getD 0)).isEmpty) (i := .startPassEnd) rfl
  have hsent := hpass.appendOne (b := s.sentDue t) (i := .frameSent) rfl
  have hquiet := hsent.append (nodup_quietDue s t) fun i hi => by
    obtain ⟨-, -, -, rfl⟩ | ⟨-, -, -, rfl⟩ := (mem_quietDue h).mp hi <;> rfl
  have hsettled := hquiet.appendOne (b := t.line.state == .settling && came Config.quietTime s.line.quiet t.line.quiet) (i := .lineSettled) rfl
  have haged := hsettled.append (nodup_agedDue s.roster t.roster) fun i hi => by
    obtain ⟨a, rfl, -⟩ := (mem_agedDue h).mp hi
    rfl
  have hcircuits := haged.append (nodup_circuitDue s t) fun i hi => by
    obtain ⟨c, ⟨-, -, rfl⟩ | ⟨-, -, rfl⟩ | ⟨-, rfl⟩ | ⟨-, rfl⟩ | ⟨-, rfl⟩⟩ := (mem_circuitDue h).mp hi <;> rfl
  have hjoin := hcircuits.appendOne (b := reached Config.tJoin s.station.joinTimer t.station.joinTimer) (i := .joinTimerExpiry) rfl
  have hmute := hjoin.appendOne (b := reached Config.tMute s.station.muteTimer t.station.muteTimer) (i := .muteTimerExpiry) rfl
  have hsilence := hmute.appendOne (b := came Config.tRoll s.roster.silence t.roster.silence) (i := .silenceTimerExpiry) rfl
  have hwindow := hsilence.appendOne (b := s.quality.due t.quality) (i := .qualityWindowEnd) rfl
  have hturn := hwindow.appendOne (b := t.arbiter.turnDue && !s.arbiter.turnDue) (i := .turn) rfl
  have hend := hturn.appendOne (b := t.arbiter.silenceDue && !s.arbiter.silenceDue) (i := .silentRoundEnd) rfl
  have htaking := hend.appendOne (b := t.requestWaiting) (i := t.takingOf) (by rw [takingOf_eq]; exact dueRank_requestRow _)
  exact htaking.nodup

/-- What falls due does not ask the queue. -/
theorem fallsDue_pending (s t : State) (l : List Instr) (i : Instr) : fallsDue s { t with pending := l } i ↔ fallsDue s t i := by
  have hkind : reqByte { t with pending := l } 1 = reqByte t 1 := rfl
  unfold fallsDue
  simp only [hkind]

/-- Settles O2: the blocks one bit time on, and the happenings that fall due. -/
theorem idleStepIsOneBitTime : Obligations.IdleStepIsOneBitTime := by
  intro s hpending
  have h := bitTime s
  have hstep : step s = .next { s.tickStartPass.tickTimers with
      pending := s.tickStartPass.tickTimers.pending ++ dueBetween s s.tickStartPass.tickTimers } := by
    rw [step, hpending]
    rfl
  generalize s.tickStartPass.tickTimers = t at *
  obtain ⟨horphans, hrequests, hnotice, hselector, hbus, hchoices, hlanded, hqueue⟩ := h.rest
  rw [hqueue, hpending, List.nil_append] at hstep
  refine ⟨_, hstep, h.circuit, h.roster, h.entry, h.station, h.arbiter, h.quality, h.lineOff, h.lineQuiet, h.driven, fun i => ?_,
    nodup_dueBetween h, horphans, hrequests, hnotice, hselector, hbus, hchoices, hlanded, h.window, h.pass⟩
  exact (mem_dueBetween h i).trans (fallsDue_pending s t _ i).symm

end Sys2Proof.Proofs
end

section
namespace Sys2Proof.Proofs

open Sys2Proof Sys2Proof.Machine Sys2Proof.Claims Sys2Proof.Safety Sys2Proof.Laws

/-! ## Entry to HALTED (R180) -/

/-- The roster as HALTED leaves it (R36). -/
def emptied (r : Roster) : Roster := { r with
  entries := Vector.replicate 31 RosterEntry.absent
  silence := 0
  changeCounter := r.changeCounter + 1 }

theorem entry_emptied (r : Roster) (a : Nat) : (emptied r).entry a = ⟨false, 0⟩ := by
  unfold Roster.entry emptied
  split
  · simp [Vector.get_eq_getElem, RosterEntry.absent]
  · rfl

theorem emptyRoster_shows {w : State} (hmem : MemoryLaw w) : MemoryLaw w.emptyRoster ∧
    w.emptyRoster = { w with roster := emptied w.roster, window := w.emptyRoster.window } ∧
    (∀ a ∈ bytesFrom 0x14 4, w.emptyRoster.peek a = 0) ∧ shows w.emptyRoster 0x18 (w.roster.changeCounter + 1) ∧
    sameWindow w w.emptyRoster (bytesFrom 0x14 6) := by
  obtain ⟨hlow, hwindow, hwf⟩ := pokeHalf_shows (s := { w with roster := emptied w.roster }) hmem (a := 0x14) (by decide) 0
  have heq : w.emptyRoster = (((({ w with roster := emptied w.roster } : State).pokeHalf 0x14 0).pokeHalf 0x16 0).pokeHalf 0x18
      (w.roster.changeCounter + 1)) := rfl
  obtain ⟨m, hm⟩ : ∃ m, ({ w with roster := emptied w.roster } : State).pokeHalf 0x14 0 = { w with roster := emptied w.roster, window := m } := ⟨_, rfl⟩
  rw [heq]
  generalize State.pokeHalf { w with roster := emptied w.roster } 0x14 0 = x at *
  obtain ⟨hhigh, hwindow', hwf'⟩ := pokeHalf_shows hwf (a := 0x16) (by decide) 0
  obtain ⟨m', hm'⟩ : ∃ m', x.pokeHalf 0x16 0 = { x with window := m' } := ⟨_, rfl⟩
  generalize x.pokeHalf 0x16 0 = y at *
  obtain ⟨hcounter, hwindow'', hwf''⟩ := pokeHalf_shows hwf' (a := 0x18) (by decide) (w.roster.changeCounter + 1)
  obtain ⟨m'', hm''⟩ : ∃ m'', y.pokeHalf 0x18 (w.roster.changeCounter + 1) = { y with window := m'' } := ⟨_, rfl⟩
  have hlow' := shows_of_sameWindow hwindow'' (by decide) (by decide) (by decide) (shows_of_sameWindow hwindow' (by decide) (by decide) (by decide) hlow)
  have hhigh' := shows_of_sameWindow hwindow'' (by decide) (by decide) (by decide) hhigh
  generalize y.pokeHalf 0x18 (w.roster.changeCounter + 1) = z at *
  refine ⟨hwf'', by rw [hm'', hm', hm], fun a ha => ?_, hcounter, sameWindow_mono (sameWindow_trans (sameWindow_trans hwindow hwindow') hwindow'') (by decide)⟩
  have ha' : a = 0x14 ∨ a = 0x15 ∨ a = 0x16 ∨ a = 0x17 := by
    have := mem_bytesFrom.mp ha
    omega
  obtain rfl | rfl | rfl | rfl := ha'
  · exact hlow'.1
  · exact hlow'.2
  · exact hhigh'.1
  · exact hhigh'.2

/-- The Turn Arbiter and the quality timer as HALTED leaves them. -/
def haltedArbiter (a : Address) (x : State) : State := { x with
  arbiter.state := .off
  arbiter.base := a
  arbiter.fullNext := false
  arbiter.mode := .compressed
  arbiter.roundTimer := 0
  arbiter.collisions := 0
  quality.windowTimer := none }

/-- The station's own fields of HALTED, before its state. -/
def haltedCause (x : State) : State := ({ x with
  station.joinTimer := none
  station.muteTimer := none
  station.haltCause := .duplicateAddress } : State).poke offHaltCause HaltCause.duplicateAddress.code

/-- What follows the losses of an entry to HALTED. -/
def haltedFrom (a : Address) (w : State) : State := (haltedCause (haltedArbiter a w.emptyRoster).clearWindowCounts).enterState .halted

theorem enterHaltedState_eq_haltedFrom (u : State) : u.enterHaltedState = haltedFrom u.station.address (haltedCircuits u) :=
  enterHaltedState_eq u

theorem haltedCause_shows {x : State} (hmem : MemoryLaw x) : MemoryLaw (haltedCause x) ∧
    haltedCause x = { x with
      station := { x.station with haltCause := .duplicateAddress, joinTimer := none, muteTimer := none }
      window := (haltedCause x).window } ∧
    (haltedCause x).peek 0x04 = 1 ∧ sameWindow x (haltedCause x) [0x04] := by
  unfold haltedCause
  refine ⟨poke_wf _ _ _ hmem, rfl, peek_poke_same _ _ _ hmem (by decide), ?_⟩
  exact poke_sameWindow ({ x with station := { x.station with haltCause := .duplicateAddress, joinTimer := none, muteTimer := none } } : State) (by decide) _

/-- What an entry to HALTED leaves and shows after its losses. -/
structure HaltedFrom (a : Address) (w t : State) : Prop where
  frame : t = { w with
    station := { w.station with state := .halted, haltCause := .duplicateAddress, joinTimer := none, muteTimer := none }
    arbiter := { w.arbiter with state := .off, base := a, fullNext := false, mode := .compressed, roundTimer := 0, collisions := 0 }
    roster := emptied w.roster
    quality := { w.quality with d := 0, k := 0, windowTimer := none }
    notice := t.notice
    window := t.window }
  wf : MemoryLaw t
  raised : Raised w t [.station .station]
  told : ToldAs w t (.station .station) fun n => entryBytes t n (.station .station)
  state : t.peek 0x03 = 5
  cause : t.peek 0x04 = 1
  mirror : ∀ a ∈ bytesFrom 0x14 4, t.peek a = 0
  counter : shows t 0x18 (w.roster.changeCounter + 1)
  counts : ∀ a ∈ bytesFrom 0x26 4, t.peek a = 0
  window : sameWindow w t ([0x03, 0x04] ++ bytesFrom 0x14 6 ++ bytesFrom 0x26 4 ++ raiseBytes w 1)

theorem haltedFrom_shows {w : State} (hmem : MemoryLaw w) (a : Address) : HaltedFrom a w (haltedFrom a w) := by
  obtain ⟨hwf, heq, hmirror, hcounter, hwindow⟩ := emptyRoster_shows hmem
  unfold haltedFrom
  generalize w.emptyRoster = x at *
  obtain ⟨hcounts, hwindow'⟩ := clearWindowCounts_shows (s := haltedArbiter a x) hwf
  have heq' := clearWindowCounts_eq (haltedArbiter a x)
  have hwf' : MemoryLaw (haltedArbiter a x).clearWindowCounts := pokeHalf_wf _ _ _ (pokeHalf_wf _ _ _ hwf)
  have hwindow'' : sameWindow x (haltedArbiter a x).clearWindowCounts (bytesFrom 0x26 4) := hwindow'
  generalize (haltedArbiter a x).clearWindowCounts = y at *
  obtain ⟨hwf'', heq'', hcause, hwindow3⟩ := haltedCause_shows hwf'
  generalize haltedCause y = z at *
  have hfront : sameWindow w z (bytesFrom 0x14 6 ++ bytesFrom 0x26 4 ++ [0x04]) := sameWindow_trans (sameWindow_trans hwindow hwindow'') hwindow3
  have hz : z = { w with
      station := { w.station with haltCause := .duplicateAddress, joinTimer := none, muteTimer := none }
      arbiter := { w.arbiter with state := .off, base := a, fullNext := false, mode := .compressed, roundTimer := 0, collisions := 0 }
      roster := emptied w.roster
      quality := { w.quality with d := 0, k := 0, windowTimer := none }
      window := z.window } := by
    rw [heq', heq] at heq''
    exact heq''
  have hsilent : Raised w z [] := .silent (by rw [hz]) hfront fun b hb => by
    simp only [List.mem_append, mem_bytesFrom, List.mem_singleton] at hb
    omega
  obtain ⟨hraised, htold⟩ := enterState_raised hwf'' .halted
  obtain ⟨-, hstate, hlast⟩ := enterState_shows hwf'' .halted
  have hframe := enterState_eq z .halted
  have hwf4 : MemoryLaw (z.enterState .halted) := raiseWith_wf _ _ _ (poke_wf _ _ _ hwf'')
  have hbytes : raiseBytes z 1 = raiseBytes w 1 := raiseBytes_congr (by rw [hz]) 1
  rw [hbytes] at hlast
  generalize z.enterState .halted = t at *
  have hkept {b : Nat} (hb : b < 65536) (hne : b ≠ 0x03) (hoff : b < 0x0F ∨ (0x12 < b ∧ b < 0x0600)) : t.peek b = z.peek b :=
    hlast b hb fun hin => by
      obtain hin | hin := List.mem_append.mp hin
      · exact hne (List.mem_singleton.mp hin)
      · exact not_mem_raiseBytes (by omega) _ _ hin
  have hlater {b : Nat} (hb : b < 65536) (hne : b ≠ 0x04) (hout : b < 0x26) : z.peek b = x.peek b :=
    (hwindow3 b hb (by simpa using hne)).trans (hwindow'' b hb fun hin => by rw [mem_bytesFrom] at hin; omega)
  refine ⟨?_, hwf4, hsilent.trans hraised, htold.before hsilent hraised List.not_mem_nil, hstate, (hkept (by decide) (by decide) (by decide)).trans hcause,
    fun b hb => ?_, ⟨?_, ?_⟩, fun b hb => ?_, sameWindow_mono (sameWindow_trans hfront hlast) fun b hb => ?_⟩
  · rw [hz] at hframe
    exact hframe
  · have hrange := mem_bytesFrom.mp hb
    exact ((hkept (by omega) (by omega) (by omega)).trans (hlater (by omega) (by omega) (by omega))).trans (hmirror b hb)
  · exact ((hkept (by decide) (by decide) (by decide)).trans (hlater (by decide) (by decide) (by decide))).trans hcounter.1
  · exact ((hkept (by decide) (by decide) (by decide)).trans (hlater (by decide) (by decide) (by decide))).trans hcounter.2
  · have hrange := mem_bytesFrom.mp hb
    exact ((hkept (by omega) (by omega) (by omega)).trans (hwindow3 b (by omega) (by simp; omega))).trans (hcounts b hb)
  · simp only [List.mem_append, List.mem_cons, List.not_mem_nil, or_false] at hb ⊢
    tauto

end Sys2Proof.Proofs
end

section
namespace Sys2Proof.Proofs

open Sys2Proof Sys2Proof.Machine Sys2Proof.Claims Sys2Proof.Safety Sys2Proof.Laws

/-- What an entry to HALTED leaves and shows (R180). -/
structure Halted (u t : State) : Prop where
  frame : t = { u with
    station := { u.station with state := .halted, haltCause := .duplicateAddress, joinTimer := none, muteTimer := none }
    line := u.line.off
    arbiter := { u.arbiter with state := .off, base := u.station.address, fullNext := false, mode := .compressed, roundTimer := 0, collisions := 0 }
    selector := { u.selector with rollOwed := false, inFlight := none }
    roster := emptied u.roster
    orphans.entries := []
    circuits := t.circuits
    quality := { u.quality with d := 0, k := 0, windowTimer := none }
    notice := t.notice
    window := t.window }
  wf : MemoryLaw t
  circuit : ∀ c, t.circuit c = lostWith (owedCleared (u.circuit c)) .lostHalted
  lost : ∀ s, Raised s u [] → (∀ c, u.circuit c = s.circuit c) → lostAll s t (fun c => owedCleared (s.circuit c)) (fun _ => true) .lostHalted
  raised : Raised u t (lossPairs u.circuit (fun _ => true) .lostHalted ++ [.station .station])
  told : ToldAs u t (.station .station) fun n => entryBytes t n (.station .station)
  state : t.peek 0x03 = 5
  cause : t.peek 0x04 = 1
  mirror : ∀ a ∈ bytesFrom 0x14 4, t.peek a = 0
  counter : shows t 0x18 (u.roster.changeCounter + 1)
  counts : ∀ a ∈ bytesFrom 0x26 4, t.peek a = 0
  window : sameWindow u t ([0x03, 0x04] ++ bytesFrom 0x14 6 ++ bytesFrom 0x26 4 ++ allCircuits.flatMap lossBytes ++ raiseBytes u 17)

/-- The entry to HALTED: nothing is owed any more, every circuit is lost in ascending order, and then the blocks and the state. -/
theorem enterHaltedState_halted {u : State} (hmem : MemoryLaw u) : Halted u u.enterHaltedState := by
  have hwf : MemoryLaw (disowned { u with line := u.line.off, selector.inFlight := none }) :=
    (disowned_work (segment := True) { u with line := u.line.off, selector.inFlight := none }).memory hmem
  have hdisowned := disowned_eq { u with line := u.line.off, selector.inFlight := none }
  have howed := disowned_circuit { u with line := u.line.off, selector.inFlight := none }
  have hlost := losses_shown hwf .lostHalted allCircuits allCircuits_nodup
  rw [← loseAll_eq_losses] at hlost
  have hflight := haltedCircuits_flight u
  have hhalted : haltedCircuits u = (disowned { u with line := u.line.off, selector.inFlight := none }).loseAll .lostHalted := rfl
  rw [← hhalted] at hlost
  rw [enterHaltedState_eq_haltedFrom]
  have hfrom := haltedFrom_shows hlost.wf u.station.address
  generalize haltedFrom u.station.address (haltedCircuits u) = t at *
  generalize haltedCircuits u = w at *
  generalize disowned { u with line := u.line.off, selector.inFlight := none } = v at *
  have hnotice : v.notice = u.notice := by rw [hdisowned]
  have hsame : sameWindow u v [] := sameWindow_of_window (by rw [hdisowned])
  have hfront : Raised u v [] := .silent hnotice hsame (by simp)
  have hbefore (c : CircuitNo) : v.circuit c = owedCleared (u.circuit c) := howed c
  obtain ⟨horphans, hdrops, hdrops'⟩ := hlost.orphans fun c _ => .inl (by rw [hbefore]; simp)
  have hw : w = { u with
      line := u.line.off
      selector := { u.selector with rollOwed := false, inFlight := none }
      orphans.entries := []
      circuits := w.circuits
      notice := w.notice
      window := w.window } := by
    have h1 := circuitsOnly_eq hlost.only
    have hselector : w.selector = { u.selector with rollOwed := false, inFlight := none } :=
      selector_eq (hlost.only.pointer.trans (by rw [hdisowned])) (hlost.only.rollOwed.trans (by rw [hdisowned])) hflight
    rw [hselector, horphans] at h1
    conv_lhs => rw [h1, hdisowned]
  have hframe := hfrom.frame
  have hcircuits : t.circuits = w.circuits := by rw [hframe]
  have hcircuit (c : CircuitNo) : t.circuit c = w.circuit c := by rw [State.circuit, hcircuits, ← State.circuit]
  have hcounter := hfrom.counter
  have hroster : w.roster = u.roster := by rw [hw]
  rw [hroster] at hcounter
  have hrecords (c : CircuitNo) (off : Nat) (hoff : off < 0x40) : t.peek (recordBase c + off) = w.peek (recordBase c + off) := by
    have hrange := recordBase_range c
    refine hfrom.window _ (record_lt c hoff) fun hin => ?_
    obtain hin | hin := List.mem_append.mp hin
    · simp only [List.mem_append, List.mem_cons, List.not_mem_nil, or_false, mem_bytesFrom] at hin
      omega
    · exact record_not_mem_raiseBytes c hoff w 1 hin
  have hpairs : (allCircuits.flatMap fun c => (lossPair (v.circuit c) c .lostHalted).toList) ⊆ lossPairs u.circuit (fun _ => true) .lostHalted :=
    flatMap_lossPair_subset (before := u.circuit) (fun _ _ => rfl) fun c => by rw [hbefore]; rfl
  have hraised := hfront.trans hlost.raised
  refine ⟨?_, hfrom.wf, fun c => ?_, fun s hs hcs => ?_, (hraised.trans hfrom.raised).mono ?_, hfrom.told.before hraised hfrom.raised fun hin => ?_,
    hfrom.state, hfrom.cause, hfrom.mirror, hcounter, hfrom.counts, ?_⟩
  · rw [hcircuits]
    conv_lhs => rw [hframe, hw]
  · rw [hcircuit, hlost.circuit, if_pos (mem_allCircuits c), hbefore]
  · exact lostAll_of_losses hlost (fun c => by simp [mem_allCircuits]) (fun c => by rw [hbefore, hcs]) (fun _ => rfl) (hs.trans hfront)
      (fun _ _ => List.not_mem_nil) hcircuit hrecords hfrom.raised
  · exact List.append_subset.mpr ⟨fun p hp => List.mem_append_left _ (hpairs hp), List.subset_append_right _ _⟩
  · obtain ⟨c, -, hp⟩ := List.mem_flatMap.mp hin
    obtain hp | hp := lossPair_circuit (Option.mem_toList.mp hp) <;> cases hp
  · have hlosses := sameWindow_of_drops hlost.window hdrops hdrops'
    have hlength := lossPairs_length (s := v) allCircuits .lostHalted
    have hall := sameWindow_raises (k := 17) hlost.raised hlosses hfrom.window (by rw [allCircuits_length] at hlength; omega) (by decide)
    rw [raiseBytes_congr (s := u) (by rw [hnotice])] at hall
    refine sameWindow_mono (sameWindow_trans hsame hall) fun a ha => ?_
    simp only [List.nil_append, List.mem_append] at ha ⊢
    tauto

end Sys2Proof.Proofs
end

section
namespace Sys2Proof.Proofs

open Sys2Proof Sys2Proof.Machine Sys2Proof.Claims Sys2Proof.Safety Sys2Proof.Laws

/-! ## A duplicate address (R32) -/

/-- The halt, as the statements say it of the state before the frame. -/
theorem haltedOn_of_halted {s u t : State} {due : List NoticePair} (h : Halted u t) (hstation : u.station = s.station)
    (hpointer : u.selector.pointer = s.selector.pointer) (hcounter : u.roster.changeCounter = s.roster.changeCounter)
    (hrequests : u.requests = s.requests) (hbus : u.bus = s.bus) (hpending : u.pending = s.pending) (hraised : Raised s u due)
    (hout : NoticePair.station .station ∉ due) : haltedOn s t := by
  have hframe := h.frame
  have hshown := h.counter
  rw [hcounter] at hshown
  have hselector : ({ u.selector with rollOwed := false, inFlight := none } : Selector) = { s.selector with rollOwed := false, inFlight := none } :=
    congrArg (fun p => (⟨p, false, none⟩ : Selector)) hpointer
  have hroster : t.roster = emptied u.roster := by rw [hframe]
  have hcount : (emptied u.roster).changeCounter = s.roster.changeCounter + 1 := congrArg (· + 1) hcounter
  refine ⟨by rw [hframe, hstation], by rw [hframe]; rfl, by rw [hframe]; rfl, by rw [hframe]; rfl, by rw [hframe]; rfl, by rw [hframe]; rfl,
    by rw [hframe], by rw [hframe, hstation], by rw [hframe], by rw [hframe], by rw [hframe], by rw [hframe], by rw [hframe, hselector],
    ⟨by rw [hroster, hcount], fun a _ => by rw [hroster, entry_emptied], hshown⟩, by rw [hroster]; rfl, h.mirror, by rw [hframe], by rw [hframe],
    by rw [hframe], h.counts, by rw [hframe, hrequests], by rw [hframe, hbus], by rw [hframe, hpending],
    (h.told.before hraised h.raised hout).told fun n => rfl, h.state, h.cause⟩

/-- A malformed frame from the own address, up to the entry to HALTED. -/
theorem hear_malformed_own {s : State} {bytes : List Byte} (hbad : isMalformed bytes) (hown : sourceField bytes = s.station.address)
    (hline : s.line.state = .hearing) (hreceives : s.station.state.receives = true) (hloop : s.station.loop = false) :
    exec (.malformedFrame bytes) s =
      .next ((({ s with line := heardLine s.line bytes } : State).countMalformed).frameEnd (some (sourceField bytes))).enterHaltedState := by
  refine congrArg Host.Outcome.next ?_
  rw [hear_malformed hline hbad, State.malformedEnd]
  refine if_pos ?_
  show (sourceField bytes == s.station.address && !s.station.loop && s.station.state.receives) = true
  rw [hown, hloop, hreceives, beq_self_eq_true]
  rfl

/-- The first part of O28. -/
theorem malformed_own_halts {s : State} {bytes : List Byte} (hmem : MemoryLaw s) (hbad : isMalformed bytes)
    (hown : sourceField bytes = s.station.address) (hline : s.line.state = .hearing) (hreceives : s.station.state.receives = true)
    (hloop : s.station.loop = false) : ∃ t, exec (.malformedFrame bytes) s = .next t ∧ haltedOn s t ∧
      t = { s with
        station := t.station
        line := t.line
        arbiter := t.arbiter
        selector := t.selector
        roster := t.roster
        orphans.entries := []
        circuits := t.circuits
        notice := t.notice
        quality := { s.quality with malformed := s.quality.malformed + 1, d := 0, k := 0, windowTimer := none }
        window := t.window } ∧
      shows t 0x22 (s.quality.malformed + 1) ∧
      lostAll s t (fun c => owedCleared (s.circuit c)) (fun _ => true) .lostHalted ∧
      raisedOnly s t (lossPairs s.circuit (fun _ => true) .lostHalted ++ [.station .station]) ∧
      sameWindow s t ([0x03, 0x04] ++ bytesFrom 0x14 6 ++ [0x22, 0x23] ++ bytesFrom 0x26 4 ++ allCircuits.flatMap lossBytes ++
        raiseBytes s 17) := by
  obtain ⟨hshown, hwindow⟩ := countMalformed_shows (s := { s with line := heardLine s.line bytes }) hmem
  have hwf : MemoryLaw ({ s with line := heardLine s.line bytes } : State).countMalformed := pokeHalf_wf _ _ _ hmem
  obtain ⟨m, hm⟩ : ∃ m, ({ s with line := heardLine s.line bytes } : State).countMalformed = { s with
    line := heardLine s.line bytes, quality.malformed := s.quality.malformed + 1, window := m } := ⟨_, rfl⟩
  have hexec := hear_malformed_own hbad hown hline hreceives hloop
  generalize ({ s with line := heardLine s.line bytes } : State).countMalformed = x at *
  have hframe := frameEnd_eq x (some (sourceField bytes))
  generalize x.frameEnd (some (sourceField bytes)) = u at *
  have hu : u = { s with
      line := heardLine s.line bytes
      arbiter := u.arbiter
      quality.malformed := s.quality.malformed + 1
      window := x.window } := by
    rw [hm] at hframe
    rw [hm]
    exact hframe
  have hwf' : MemoryLaw u := by rw [hframe]; exact hwf
  have hsame : sameWindow s u [0x22, 0x23] := by rw [hframe]; exact hwindow
  have hshown' : shows u 0x22 (s.quality.malformed + 1) := by rw [hframe]; exact hshown
  have hcircuit (c : CircuitNo) : u.circuit c = s.circuit c := by rw [hu]; rfl
  have hfront : Raised s u [] := .silent (by rw [hu]) hsame (by simp)
  have hhalted := enterHaltedState_halted hwf'
  generalize u.enterHaltedState = t at *
  have hbytes : raiseBytes u 17 = raiseBytes s 17 := raiseBytes_congr (by rw [hu]) 17
  have hlast := hhalted.window
  rw [hbytes] at hlast
  refine ⟨t, hexec, haltedOn_of_halted hhalted (by rw [hu]) (by rw [hu]) (by rw [hu]) (by rw [hu]) (by rw [hu]) (by rw [hu]) hfront List.not_mem_nil,
    ?_, ?_, hhalted.lost s hfront hcircuit, ?_, sameWindow_mono (sameWindow_trans hsame hlast) fun a ha => ?_⟩
  · have h := hhalted.frame
    have hstation := congrArg State.station h
    have hline' := congrArg State.line h
    have harbiter := congrArg State.arbiter h
    have hselector := congrArg State.selector h
    have hroster := congrArg State.roster h
    rw [hstation, hline', harbiter, hselector, hroster]
    conv_lhs => rw [h, hu]
    rw [hu]
  · have hkept {a : Nat} (ha : a = 0x22 ∨ a = 0x23) : t.peek a = u.peek a := hlast a (by omega) fun hin => by
      simp only [List.mem_append, List.mem_cons, List.not_mem_nil, or_false, mem_bytesFrom, List.mem_flatMap] at hin
      obtain (((hin | hin) | hin) | ⟨c, -, hin⟩) | hin := hin
      · omega
      · omega
      · omega
      · exact not_mem_recordBytes (by omega) hin
      · exact not_mem_raiseBytes (by omega) _ _ hin
    exact ⟨(hkept (.inl rfl)).trans hshown'.1, (hkept (.inr rfl)).trans hshown'.2⟩
  · have hpairs : lossPairs u.circuit (fun _ => true) .lostHalted = lossPairs s.circuit (fun _ => true) .lostHalted := by
      rw [funext hcircuit]
    rw [← hpairs]
    exact (hfront.trans hhalted.raised).only
  · simp only [List.mem_append, List.mem_cons, List.not_mem_nil, or_false] at ha ⊢
    tauto

end Sys2Proof.Proofs
end

section
namespace Sys2Proof.Proofs

open Sys2Proof Sys2Proof.Machine Sys2Proof.Claims Sys2Proof.Safety Sys2Proof.Laws

/-! ## What a received frame tells the host -/

theorem circuit_mem_circuitPairs (c : CircuitNo) (cause : CircuitCause) : NoticePair.circuit c cause ∈ circuitPairs :=
  List.mem_flatMap.mpr ⟨c, mem_allCircuits c, List.mem_map.mpr ⟨cause, by cases cause <;> decide, rfl⟩⟩

/-- The work of a received frame on the circuits, which raises pairs of circuits alone and leaves the roster's and the Quality Monitor's
fields as they are. -/
structure Tells (s t : State) : Prop where
  work : Work (workByte True) s t
  raised : MemoryLaw s → (∀ c, RingAreaLaw (s.circuit c)) → Raised s t circuitPairs
  fields : MemoryLaw s → (∀ c, RingAreaLaw (s.circuit c)) → sameRange s t 0x0013 0x0030

theorem Tells.refl (s : State) : Tells s s :=
  ⟨.refl s, fun _ _ => (Raised.silent (offs := []) rfl (fun _ _ _ => rfl) (by simp)).mono (List.nil_subset _), fun _ _ _ _ _ => rfl⟩

theorem Tells.trans {s t u : State} (h : Tells s t) (g : Tells t u) : Tells s u where
  work := h.work.trans g.work
  raised hmem hr := ((h.raised hmem hr).trans (g.raised (h.work.memory hmem) (h.work.rings hr))).mono
    (List.append_subset.mpr ⟨List.Subset.refl _, List.Subset.refl _⟩)
  fields hmem hr a hlo hhi := (g.fields (h.work.memory hmem) (h.work.rings hr) a hlo hhi).trans (h.fields hmem hr a hlo hhi)

/-- Bytes outside the station's fields and the attention queue. -/
def OffStation (offs : List Nat) : Prop := ∀ a ∈ offs, (0x0030 ≤ a ∧ a < 0x0600) ∨ 0x0800 ≤ a

/-- Work that raises nothing. -/
theorem Tells.quiet {s t : State} (offs : List Nat) (hwork : Work (workByte True) s t) (hnotice : t.notice = s.notice)
    (hsame : (∀ c, RingAreaLaw (s.circuit c)) → sameWindow s t offs) (hoffs : (∀ c, RingAreaLaw (s.circuit c)) → OffStation offs) :
    Tells s t where
  work := hwork
  raised _ hr := (Raised.silent hnotice (hsame hr) fun a ha => by
    have := hoffs hr a ha
    omega).mono (List.nil_subset _)
  fields _ hr a hlo hhi := hsame hr a (by omega) fun ha => by
    have := hoffs hr a ha
    omega

theorem offStation_recordBytes (c : CircuitNo) {offs : List Nat} (h : ∀ off ∈ offs, off < 0x40) : OffStation (recordBytes c offs) := by
  intro a ha
  obtain ⟨off, hoff, rfl⟩ := List.mem_map.mp ha
  have := h off hoff
  have := recordBase_range c
  omega

section FrameTells

/-! ### The elementary changes -/

theorem updCircuit_tells (s : State) (c : CircuitNo) (f : Circuit → Circuit) (hf : ringsOf (f (s.circuit c)) = ringsOf (s.circuit c)) :
    Tells s (s.updCircuit c f) :=
  .quiet [] (updCircuit_work s c f hf) rfl (fun _ _ _ _ => rfl) fun _ _ h => absurd h List.not_mem_nil

theorem pokeRecord_tells (s : State) (c : CircuitNo) {off : Nat} (hoff : off < 0x30) (v : Byte) : Tells s (s.pokeRecord c off v) :=
  .quiet (recordBytes c [off]) (pokeRecord_work s c hoff v) rfl (fun _ => pokeRecord_sameWindow s c (by omega) v)
    fun _ => offStation_recordBytes c (by simp; omega)

theorem pokeRecordHalf_tells (s : State) (c : CircuitNo) {off : Nat} (hoff : off + 1 < 0x30) (v : Half) :
    Tells s (s.pokeRecordHalf c off v) := (pokeRecord_tells s c (by omega) (lowByte v)).trans (pokeRecord_tells _ c hoff (highByte v))

theorem addOrphan_tells (s : State) (peer : Address) (peerCircuit : CircuitNo) (reply : Reply) : Tells s (s.addOrphan peer peerCircuit reply) :=
  .quiet [0x30, 0x31] (addOrphan_work s peer peerCircuit reply) (addOrphan_notice s peer peerCircuit reply)
    (fun _ => addOrphan_sameWindow s peer peerCircuit reply) fun _ => by simp [OffStation]

theorem raiseWith_tells (s : State) (c : CircuitNo) (cause : CircuitCause) (detail : Byte) : Tells s (s.raiseWith (.circuit c cause) detail) where
  work := raiseWith_work s _ _
  raised hmem _ := (Raised.of_raiseWith hmem _ detail).mono (fun _ hp => List.mem_singleton.mp hp ▸ circuit_mem_circuitPairs c cause)
  fields _ _ a hlo hhi := raiseWith_sameWindow s _ detail a (by omega) (not_mem_raiseBytes (by omega) s 1)

theorem raise_tells (s : State) (c : CircuitNo) (cause : CircuitCause) : Tells s (s.raise (.circuit c cause)) := raiseWith_tells s c cause _

theorem raiseDone_tells (s : State) (c : CircuitNo) (d : Option Completion) : Tells s (s.raiseOption (doneOf c d)) := by
  cases d with
  | none => exact .refl s
  | some d => exact raise_tells s c .done

/-- A segment goes into a slot of the ring area (R140, R141). -/
theorem writeSlot_tells (s : State) (c : CircuitNo) (f : Frame) (gapped : Bool) (missing : Nat) (hfree : (s.circuit c).freeSlots ≠ 0)
    (hlength : f.payload.length ≤ 252) : Tells s (s.writeSlot c f gapped missing) :=
  .quiet (bytesFrom (s.circuit c).rxSlot 256) (writeSlot_work s c f gapped missing hfree hlength) (by rw [writeSlot_eq])
    (fun hr x hx hout => by
      rw [mem_bytesFrom] at hout
      exact peek_writeSlot_ne s c f gapped missing (hr c) hfree hlength hx (by omega))
    fun hr x hx => by
      have hslot := rxSlot_range (hr c) (freeSlots_pos hfree)
      rw [mem_bytesFrom] at hx
      omega

/-! ### The operations on circuits -/

theorem forget_tells (s : State) (c : CircuitNo) (f : Discharged → Discharged) : Tells s (s.forget c f) :=
  .quiet [] (forget_work s c f) rfl (fun _ _ _ _ => rfl) fun _ _ h => absurd h List.not_mem_nil

theorem clearAckPoll_tells (s : State) (c : CircuitNo) : Tells s (s.clearAckPoll c) :=
  (forget_tells s c _).trans (updCircuit_tells _ c _ rfl)

theorem clearControl_tells (s : State) (c : CircuitNo) : Tells s (s.clearControl c) :=
  (forget_tells s c _).trans (updCircuit_tells _ c _ rfl)

theorem oweControl_tells (s : State) (c : CircuitNo) (kind : ControlKind) : Tells s (s.oweControl c kind) :=
  updCircuit_tells s c _ rfl

theorem oweAck_tells (s : State) (c : CircuitNo) : Tells s (s.oweAck c) := updCircuit_tells s c _ rfl

theorem setCircuitState_tells (s : State) (c : CircuitNo) (st : CircuitState) : Tells s (s.setCircuitState c st) :=
  (updCircuit_tells s c (fun k => { k with state := st }) rfl).trans (pokeRecord_tells _ c (by decide) _)

theorem writeCompletion_tells (s : State) (c : CircuitNo) (d : Completion) : Tells s (s.writeCompletion c d) :=
  .quiet (recordBytes c [0x08, 0x09, 0x0A, 0x0B, 0x0C]) (writeCompletion_work s c d) (writeCompletion_notice s c d)
    (fun _ => writeCompletion_sameWindow s c d) fun _ => offStation_recordBytes c (by decide)

theorem writeCompletionOption_tells (s : State) (c : CircuitNo) (d : Option Completion) :
    Tells s (s.writeCompletionOption c d) := by
  cases d with
  | none => exact .refl s
  | some d => exact writeCompletion_tells s c d

theorem writeUnsent_tells (s : State) (c : CircuitNo) : Tells s (s.writeUnsent c) :=
  (updCircuit_tells s c (fun k => { k with unsentCount := (s.circuit c).postedCopy - (s.circuit c).txDone }) rfl).trans
    (pokeRecord_tells _ c (by decide) _)

theorem releaseOwed_tells (s : State) (c : CircuitNo) : Tells s (s.releaseOwed c) := by
  have hcleared : Tells s ((s.clearAckPoll c).updCircuit c fun k => { k with callOwed := false }) :=
    (clearAckPoll_tells s c).trans (updCircuit_tells _ c _ rfl)
  unfold State.releaseOwed
  refine .trans ?_ (clearControl_tells _ c)
  split
  · exact hcleared.trans (addOrphan_tells _ _ _ _)
  · exact hcleared

theorem goFree_tells (s : State) (c : CircuitNo) (done : Option Completion) : Tells s (s.goFree c done) := by
  have hunsent : Tells s (if (s.circuit c).state.live then s.writeUnsent c else s) := by
    split
    · exact writeUnsent_tells s c
    · exact .refl s
  exact (((hunsent.trans (releaseOwed_tells _ c)).trans (updCircuit_tells _ c _ rfl)).trans
    (writeCompletionOption_tells _ c done)).trans (setCircuitState_tells _ c .free)

theorem freeWith_tells (s : State) (c : CircuitNo) (outcome : CompletionOutcome) : Tells s (s.freeWith c outcome) :=
  (goFree_tells s c _).trans (raiseDone_tells _ c _)

theorem completeInto_tells (s : State) (c : CircuitNo) (outcome : CompletionOutcome) (st : CircuitState) :
    Tells s (s.completeInto c outcome st) :=
  (((writeCompletionOption_tells s c _).trans (updCircuit_tells _ c _ rfl)).trans (setCircuitState_tells _ c st)).trans
    (raiseDone_tells _ c _)

theorem enterEnded_tells (s : State) (c : CircuitNo) (cause : EndCause) (confirm : Bool) :
    Tells s (s.enterEnded c cause confirm) := by
  have hcontrol : Tells s (if confirm then s.oweControl c .confirm else s.clearControl c) := by
    cases confirm
    · exact clearControl_tells s c
    · exact oweControl_tells s c .confirm
  exact (((((hcontrol.trans (clearAckPoll_tells _ c)).trans (updCircuit_tells _ c _ rfl)).trans (writeUnsent_tells _ c)).trans
    (pokeRecord_tells _ c (by decide) _)).trans (setCircuitState_tells _ c .ended)).trans (raise_tells _ c _)

theorem lose_tells (s : State) (c : CircuitNo) (cause : EndCause) : Tells s (s.lose c cause) := by
  unfold State.lose
  split
  · exact freeWith_tells s c .lost
  · exact enterEnded_tells s c cause false
  · exact freeWith_tells s c .lost
  · exact freeWith_tells s c .unconfirmed
  · split
    · exact freeWith_tells s c .lost
    · exact .refl s
  · exact .refl s
  · exact .refl s

theorem testDrain_tells (s : State) (c : CircuitNo) : Tells s (s.testDrain c) := by
  unfold State.testDrain
  split
  · exact (((clearAckPoll_tells s c).trans (oweControl_tells _ c .clear)).trans (updCircuit_tells _ c _ rfl)).trans
      (setCircuitState_tells _ c .clearing)
  · exact .refl s

theorem testStall_tells (s : State) (c : CircuitNo) : Tells s (s.testStall c) := updCircuit_tells s c _ rfl

theorem noticeFill_tells (s : State) (c : CircuitNo) (endMark : Bool) : Tells s (s.noticeFill c endMark) := by
  unfold State.noticeFill
  split
  · exact (updCircuit_tells s c _ rfl).trans (raise_tells _ c _)
  · exact updCircuit_tells s c _ rfl

theorem noticeRelease_tells (s : State) (c : CircuitNo) (before : Nat) : Tells s (s.noticeRelease c before) := by
  unfold State.noticeRelease
  split
  · exact raise_tells s c _
  · exact .refl s

theorem advanceFill_tells (s : State) (c : CircuitNo) (seq : Seq) : Tells s (s.advanceFill c seq) :=
  (updCircuit_tells s c (fun k => { k with rxFill := k.rxFill + 1, expectedSeq := seq + 1 }) rfl).trans
    (pokeRecord_tells _ c (by decide) _)

theorem markGap_tells (s : State) (c : CircuitNo) : Tells s (s.markGap c) := by
  have hcounted : Tells s ((s.updCircuit c fun k => { k with gapCount := k.gapCount + 1 }).pokeRecordHalf c
      recGapCount ((s.circuit c).gapCount + 1)) := (updCircuit_tells s c _ rfl).trans (pokeRecordHalf_tells _ c (by decide) _)
  unfold State.markGap
  dsimp only
  split
  · exact hcounted
  · exact (hcounted.trans (updCircuit_tells _ c _ rfl)).trans (pokeRecordHalf_tells _ c (by decide) _)

theorem takeAssuredSegment_tells (s : State) (c : CircuitNo) (f : Frame) (hlength : f.payload.length ≤ 252) :
    Tells s (s.takeAssuredSegment c f) := by
  unfold State.takeAssuredSegment
  dsimp only
  split
  · exact oweAck_tells s c
  · split
    · exact ((updCircuit_tells s c _ rfl).trans (pokeRecordHalf_tells _ c (by decide) _)).trans (oweAck_tells _ c)
    · next hfree =>
      exact (((writeSlot_tells s c f false 0 hfree hlength).trans (advanceFill_tells _ c f.seq)).trans (oweAck_tells _ c)).trans
        (noticeFill_tells _ c f.endMark)

theorem takePlainSegment_tells (s : State) (c : CircuitNo) (f : Frame) (hlength : f.payload.length ≤ 252) :
    Tells s (s.takePlainSegment c f) := by
  unfold State.takePlainSegment
  dsimp only
  split
  · exact (updCircuit_tells s c _ rfl).trans (pokeRecordHalf_tells _ c (by decide) _)
  · next hfree =>
    split
    · exact ((writeSlot_tells s c f false 0 hfree hlength).trans (advanceFill_tells _ c f.seq)).trans (noticeFill_tells _ c f.endMark)
    · exact ((((writeSlot_tells s c f true _ hfree hlength).trans (markGap_tells _ c)).trans (advanceFill_tells _ c f.seq)).trans
        (raiseWith_tells _ c _ _)).trans (noticeFill_tells _ c f.endMark)

theorem takeAck_tells (s : State) (c : CircuitNo) (a credit : Seq) : Tells s (s.takeAck c a credit) := by
  unfold State.takeAck
  dsimp only
  split
  · exact ((((updCircuit_tells s c (fun k => k.acknowledge a credit) rfl).trans (pokeRecord_tells _ c (by decide) _)).trans
      (noticeRelease_tells _ c _)).trans (testDrain_tells _ c)).trans (testStall_tells _ c)
  · split
    · exact (updCircuit_tells s c _ rfl).trans (testStall_tells _ c)
    · exact .refl s

theorem takeData_tells (s : State) (c : CircuitNo) (f : Frame) (hlength : f.payload.length ≤ 252) :
    Tells s (s.takeData c f) := by
  unfold State.takeData
  split
  · exact (takeAssuredSegment_tells s c f hlength).trans (takeAck_tells _ c _ _)
  · exact takePlainSegment_tells s c f hlength

theorem takeAckFrame_tells (s : State) (c : CircuitNo) (f : Frame) : Tells s (s.takeAckFrame c f) := by
  unfold State.takeAckFrame
  split
  · refine .trans ?_ (takeAck_tells _ c _ _)
    split
    · exact oweAck_tells s c
    · exact .refl s
  · exact .refl s

theorem strayFrame_tells (s : State) (k : Kind) (f : Frame) : Tells s (s.strayFrame k f) := by
  unfold State.strayFrame
  split
  · exact addOrphan_tells s _ _ _
  · exact .refl s

theorem acceptAnswer_tells (s : State) (c : CircuitNo) (f : Frame) : Tells s (s.acceptAnswer c f) := by
  have hstale : Tells s (s.loseStaleOther c f) := by
    unfold State.loseStaleOther
    split
    · exact lose_tells s _ _
    · exact .refl s
  exact ((hstale.trans (updCircuit_tells _ c _ (ringsOf_withInitialLimit _ f.credit))).trans
    (pokeRecord_tells _ c (by decide) _)).trans (completeInto_tells _ c _ _)

theorem callingFrame_tells (s : State) (k : Kind) (c : CircuitNo) (f : Frame) : Tells s (s.callingFrame k c f) := by
  unfold State.callingFrame
  split
  · split
    · exact acceptAnswer_tells s c f
    · exact strayFrame_tells s _ f
  · split
    · exact freeWith_tells s c _
    · exact .refl s
  · exact .refl s

theorem clearedByPeer_tells (s : State) (c : CircuitNo) (outcome : CompletionOutcome) :
    Tells s (s.clearedByPeer c outcome) := (oweControl_tells s c .confirm).trans (freeWith_tells _ c outcome)

theorem openFrame_tells (s : State) (k : Kind) (c : CircuitNo) (f : Frame) (hlength : f.payload.length ≤ 252) :
    Tells s (s.openFrame k c f) := by
  unfold State.openFrame
  split
  · exact takeData_tells s c f hlength
  · exact takeAckFrame_tells s c f
  · exact enterEnded_tells s c _ _
  · exact .refl s

theorem drainingFrame_tells (s : State) (k : Kind) (c : CircuitNo) (f : Frame) (hlength : f.payload.length ≤ 252) :
    Tells s (s.drainingFrame k c f) := by
  unfold State.drainingFrame
  split
  · exact takeData_tells s c f hlength
  · exact takeAckFrame_tells s c f
  · exact clearedByPeer_tells s c _
  · exact .refl s

theorem clearingFrame_tells (s : State) (k : Kind) (c : CircuitNo) : Tells s (s.clearingFrame k c) := by
  unfold State.clearingFrame
  split
  · exact clearedByPeer_tells s c _
  · exact freeWith_tells s c _
  · exact .refl s

theorem endedFrame_tells (s : State) (k : Kind) (c : CircuitNo) (f : Frame) : Tells s (s.endedFrame k c f) := by
  unfold State.endedFrame
  split
  · split
    · exact .refl s
    · exact addOrphan_tells s _ _ _
  · split
    · exact oweControl_tells s c _
    · exact .refl s
  · exact .refl s

theorem takeCircuitFrame_tells (s : State) (k : Kind) (f : Frame) (hlength : f.payload.length ≤ 252) :
    Tells s (s.takeCircuitFrame k f) := by
  have stray := strayFrame_tells s k f
  unfold State.takeCircuitFrame
  dsimp only
  split
  · exact stray
  · split
    · exact stray
    · exact stray
    · split
      · exact callingFrame_tells s k _ f
      · exact stray
    · split
      · exact openFrame_tells s k _ f hlength
      · exact stray
    · split
      · exact drainingFrame_tells s k _ f hlength
      · exact stray
    · split
      · exact clearingFrame_tells s k _
      · exact stray
    · split
      · exact endedFrame_tells s k _ f
      · exact stray

theorem acceptCall_tells (s : State) (c : CircuitNo) (f : Frame) : Tells s (s.acceptCall c f) :=
  (((((updCircuit_tells s c _ (ringsOf_withInitialLimit _ f.credit)).trans (pokeRecord_tells _ c (by decide) _)).trans
    (pokeRecord_tells _ c (by decide) _)).trans (pokeRecord_tells _ c (by decide) _)).trans (oweControl_tells _ c .answer)).trans
    (completeInto_tells _ c _ _)

theorem matchListener_tells (s : State) (f : Frame) : Tells s (s.matchListener f) := by
  unfold State.matchListener
  split
  · exact acceptCall_tells s _ f
  · exact addOrphan_tells s _ _ _

theorem takeCall_tells (s : State) (f : Frame) : Tells s (s.takeCall f) := by
  unfold State.takeCall
  split
  · exact .refl s
  · unfold State.answerCall
    split
    · exact matchListener_tells s f
    · split
      · split
        · exact oweControl_tells s _ _
        · exact .refl s
      · exact (lose_tells s _ _).trans (matchListener_tells _ f)

theorem tableFrame_tells (s : State) (k : Kind) (f : Frame) (hlength : f.payload.length ≤ 252) :
    Tells s (s.tableFrame k f) := by
  unfold State.tableFrame
  split
  · exact .refl s
  · split
    · exact .refl s
    · exact takeCall_tells s f
    · exact takeCircuitFrame_tells s _ f hlength

end FrameTells

end Sys2Proof.Proofs
end

section
namespace Sys2Proof.Proofs

open Sys2Proof Sys2Proof.Machine Sys2Proof.Claims Sys2Proof.Safety Sys2Proof.Laws

/-! ## A good frame from the own address (R32, R36) -/

/-- The frame counted as good and its end told to the Turn Arbiter, with the free value that orders the Circuit Table and the halt drawn. -/
def duplicateHeard (s : State) (k : Kind) (f : Frame) : State :=
  { ({ s with line := heardLine s.line (frameBytes k f) } : State).countGood.frameEnd (some f.src) with choices := s.choices + 1 }

/-- What the state after the frame's end shows. -/
structure DuplicateHeard (s y : State) : Prop where
  frame : y = { s with
    line := y.line
    arbiter := y.arbiter
    quality.goodHeard := s.quality.goodHeard + 1
    choices := s.choices + 1
    window := y.window }
  wf : MemoryLaw y
  window : sameWindow s y [0x1E, 0x1F]
  counted : shows y 0x1E (s.quality.goodHeard + 1)

theorem duplicateHeard_shows {s : State} (hmem : MemoryLaw s) (k : Kind) (f : Frame) : DuplicateHeard s (duplicateHeard s k f) := by
  obtain ⟨hcounted, hwindow, hwf⟩ := pokeHalf_shows (s := { s with
    line := heardLine s.line (frameBytes k f), quality.goodHeard := s.quality.goodHeard + 1 }) hmem (a := 0x1E) (by decide)
    (s.quality.goodHeard + 1)
  obtain ⟨m, hm⟩ : ∃ m, ({ s with line := heardLine s.line (frameBytes k f) } : State).countGood = { s with
    line := heardLine s.line (frameBytes k f), quality.goodHeard := s.quality.goodHeard + 1, window := m } := ⟨_, rfl⟩
  have hpoke : ({ s with line := heardLine s.line (frameBytes k f) } : State).countGood = ({ s with
    line := heardLine s.line (frameBytes k f), quality.goodHeard := s.quality.goodHeard + 1 } : State).pokeHalf 0x1E
      (s.quality.goodHeard + 1) := rfl
  rw [← hpoke] at hcounted hwindow hwf
  unfold duplicateHeard
  generalize ({ s with line := heardLine s.line (frameBytes k f) } : State).countGood = x at *
  rw [frameEnd_eq x (some f.src)]
  refine ⟨?_, hwf, hwindow, hcounted⟩
  rw [hm]

/-- The row of a good frame from the own address: the Circuit Table and the halt, in the order that the free value gives (log 13). -/
theorem exec_frameRow_own {s : State} {k : Kind} {f : Frame} (hrules : keepsRules k f = true) (hown : f.src = s.station.address)
    (hline : s.line.state = .hearing) (hreceives : s.station.state.receives = true) (hloop : s.station.loop = false) :
    exec (frameRow k f) s = .next (if Config.tableBeforeHalt s.choices then ((duplicateHeard s k f).tableFrame k f).enterHaltedState
      else (duplicateHeard s k f).enterHaltedState.tableFrame k f) := by
  rw [exec_frameRow_hear]
  refine congrArg Host.Outcome.next ?_
  rw [State.hear, if_pos hline, classify_frameBytes hrules]
  show State.goodEnd { s with line := heardLine s.line (frameBytes k f) } k f = _
  refine if_pos ?_
  show (f.src == s.station.address && !s.station.loop && s.station.state.receives) = true
  rw [hown, hloop, hreceives, beq_self_eq_true]
  rfl

/-! ### The Circuit Table after the halt -/

theorem addOrphan_halted {t : State} (hstate : t.station.state = .halted) (peer : Address) (peerCircuit : CircuitNo) (reply : Reply) :
    t.addOrphan peer peerCircuit reply = t := if_pos (.inr hstate)

theorem strayFrame_halted {t : State} (hstate : t.station.state = .halted) (k : Kind) (f : Frame) : t.strayFrame k f = t := by
  unfold State.strayFrame
  split
  · exact addOrphan_halted hstate _ _ _
  · rfl

theorem endedFrame_halted {t : State} (hstate : t.station.state = .halted) (k : Kind) (c : CircuitNo) (f : Frame) :
    t.endedFrame k c f = t := by
  unfold State.endedFrame
  split
  · split
    · rfl
    · exact addOrphan_halted hstate _ _ _
  · exact if_neg (by rw [hstate]; decide)
  · rfl

theorem takeCircuitFrame_halted {t : State} (hstate : t.station.state = .halted)
    (hall : ∀ c, (t.circuit c).state = .free ∨ (t.circuit c).state = .ended) (k : Kind) (f : Frame) : t.takeCircuitFrame k f = t := by
  have hstray := strayFrame_halted hstate k f
  unfold State.takeCircuitFrame
  dsimp only
  split
  · exact hstray
  · obtain hfree | hended := hall f.dstCircuit
    · rw [hfree]
      exact hstray
    · rw [hended]
      dsimp only
      split
      · exact endedFrame_halted hstate k _ f
      · exact hstray

/-- In HALTED, with every circuit FREE or ENDED, a frame does nothing. -/
theorem tableFrame_halted {t : State} (hstate : t.station.state = .halted)
    (hall : ∀ c, (t.circuit c).state = .free ∨ (t.circuit c).state = .ended) (k : Kind) (f : Frame) : t.tableFrame k f = t := by
  unfold State.tableFrame
  split
  · rfl
  · split
    · rfl
    · exact if_pos (.inl (by rw [hstate]; decide))
    · exact takeCircuitFrame_halted hstate hall _ f

theorem Halted.station_state {u t : State} (h : Halted u t) : t.station.state = .halted := by
  rw [h.frame]

theorem lostWith_halted (k : Circuit) : (lostWith k .lostHalted).state = .free ∨ (lostWith k .lostHalted).state = .ended := by
  cases hk : k.state <;> simp [lostWith, hk, freed, endedWith]

theorem Halted.free_or_ended {u t : State} (h : Halted u t) (c : CircuitNo) : (t.circuit c).state = .free ∨ (t.circuit c).state = .ended := by
  rw [h.circuit]
  exact lostWith_halted _

/-! ### The halt after the frame -/

theorem Halted.outside {u t : State} (h : Halted u t) {a : Nat}
    (ha : (0x001E ≤ a ∧ a < 0x0020) ∨ (0x0500 ≤ a ∧ a < 0x0600) ∨ (0x0800 ≤ a ∧ a < 65536)) : t.peek a = u.peek a := by
  refine h.window a (by omega) fun hin => ?_
  simp only [List.mem_append, List.mem_cons, List.not_mem_nil, or_false, mem_bytesFrom, List.mem_flatMap] at hin
  obtain (((hin | hin) | hin) | ⟨c, -, hin⟩) | hin := hin
  · omega
  · omega
  · omega
  · obtain ⟨off, hoff, rfl⟩ := mem_recordBytes_iff.mp hin
    have hrange := recordBase_range c
    have hlast := (by decide : ∀ off ∈ [0x00, 0x02, 0x08, 0x09, 0x0A, 0x0B, 0x0C, 0x20], off ≤ 0x20) off hoff
    omega
  · exact not_mem_raiseBytes (by omega) _ _ hin

theorem lossPairs_subset_circuitPairs (before : CircuitNo → Circuit) (lost : CircuitNo → Bool) (cause : EndCause) :
    lossPairs before lost cause ⊆ circuitPairs := fun p hp => by
  obtain ⟨c, -, hc⟩ := List.mem_filterMap.mp hp
  split at hc
  · obtain rfl | rfl := lossPair_circuit hc <;> exact circuit_mem_circuitPairs c _
  · cases hc

theorem station_not_mem_circuitPairs (cause : StationCause) : NoticePair.station cause ∉ circuitPairs := by
  cases cause <;> decide

theorem Tells.outside {y v : State} (h : Tells y v) (hmem : MemoryLaw y) (hrings : ∀ c, RingAreaLaw (y.circuit c)) {a : Nat}
    (ha : (0x001E ≤ a ∧ a < 0x0020) ∨ (0x0500 ≤ a ∧ a < 0x0600) ∨ (0x0800 ≤ a ∧ a < 0x1000)) : v.peek a = y.peek a := by
  by_cases hlow : a < 0x0020
  · exact h.fields hmem hrings a (by omega) (by omega)
  · refine h.work.window hrings a (by omega) ?_
    rintro ((⟨h1, -⟩ | h2) | ⟨-, h3⟩) <;> omega

/-- What the statement says of the halted state, whatever the Circuit Table did before. -/
theorem halts_after {s y v t : State} (hy : DuplicateHeard s y) (hrings : ∀ c, RingAreaLaw (s.circuit c)) (htells : Tells y v)
    (honly : CircuitsOnly y v) (h : Halted v t) :
    haltedOn s t ∧ t.orphans.entries = [] ∧ shows t 0x1E (s.quality.goodHeard + 1) ∧
      (∀ c, (t.circuit c).state = .free ∨ (t.circuit c).state = .ended) ∧ raisedOnly s t (circuitPairs ++ [.station .station]) ∧
      sameRange s t 0x0500 0x0600 ∧ sameRange s t 0x0800 0x1000 := by
  have hframe := hy.frame
  have hrings' : ∀ c, RingAreaLaw (y.circuit c) := by
    rw [hframe]
    exact hrings
  have hraised : Raised s v circuitPairs := (Raised.silent (by rw [hframe]) hy.window (by simp)).trans (htells.raised hy.wf hrings')
  have hlate {a : Nat} (ha : (0x001E ≤ a ∧ a < 0x0020) ∨ (0x0500 ≤ a ∧ a < 0x0600) ∨ (0x0800 ≤ a ∧ a < 0x1000)) : t.peek a = y.peek a :=
    (h.outside (by omega)).trans (htells.outside hy.wf hrings' ha)
  have hrange {a : Nat} (ha : (0x0500 ≤ a ∧ a < 0x0600) ∨ (0x0800 ≤ a ∧ a < 0x1000)) : t.peek a = s.peek a :=
    (hlate (.inr ha)).trans (hy.window a (by omega) (by simp; omega))
  have hcounted := hy.counted
  refine ⟨haltedOn_of_halted h (by rw [honly.station, hframe]) (by rw [honly.pointer, hframe]) (by rw [honly.roster, hframe])
    (by rw [honly.requests, hframe]) (by rw [honly.bus, hframe]) (by rw [honly.pending, hframe]) hraised (station_not_mem_circuitPairs _),
    by rw [h.frame], ⟨(hlate (by omega)).trans hcounted.1, (hlate (by omega)).trans hcounted.2⟩, h.free_or_ended,
    ((hraised.trans h.raised).mono ?_).only, fun a hlo hhi => hrange (by omega), fun a hlo hhi => hrange (by omega)⟩
  refine List.append_subset.mpr ⟨List.subset_append_left _ _, List.append_subset.mpr ⟨?_, List.subset_append_right _ _⟩⟩
  exact fun p hp => List.mem_append_left _ (lossPairs_subset_circuitPairs _ _ _ hp)

/-- Settles O28: a malformed frame halts at once; a good one reaches the Circuit Table before the halt, or after it, where it does
nothing. -/
theorem duplicateAddressHalts : Obligations.DuplicateAddressHalts := by
  refine ⟨fun s bytes hmem hbad hown hline hreceives hloop => malformed_own_halts hmem hbad hown hline hreceives hloop,
    fun s k f hmem hrings hrules hown hline hreceives hloop => ?_⟩
  have hheard := duplicateHeard_shows hmem k f
  rw [exec_frameRow_own hrules hown hline hreceives hloop]
  generalize duplicateHeard s k f = y at *
  by_cases hfirst : Config.tableBeforeHalt s.choices = true
  · rw [if_pos hfirst]
    have htells := tableFrame_tells y k f (payload_le_of_keepsRules hrules)
    exact ⟨_, rfl, halts_after hheard hrings htells (tableFrame_only y k f) (enterHaltedState_halted (htells.work.memory hheard.wf))⟩
  · rw [if_neg hfirst]
    have hhalted := enterHaltedState_halted hheard.wf
    rw [tableFrame_halted hhalted.station_state hhalted.free_or_ended]
    exact ⟨_, rfl, halts_after hheard hrings (.refl y) (.refl y) hhalted⟩

end Sys2Proof.Proofs
end
